-- ==== Sys2Proof/Word.lean ====
section
/-! DEFINITION. The byte and the 32-bit register word of the AQL-1600 (chapter 0, R8 and R9). -/
namespace Sys2Proof

/-- One byte (chapter 0, R9: multi-byte fields are runs of bytes, least significant first). -/
abbrev Byte := BitVec 8

/-- One 32-bit word of the register window (R64). -/
abbrev Word := BitVec 32

end Sys2Proof
end

