-- ==== Sys2Proof/Syntax.lean ====
section
/-! DEFINITION. The commands of the block: one constructor for each row of the table of operations and events, with the operands
its sender supplies (assumption log 6 says which sender). -/
namespace Sys2Proof

/-- The two ports of the window (R65). -/
inductive Port where
  | host | spi
deriving DecidableEq, Repr

/-- A word of a port's bank store in error, met by the frame being sent: the bank, the word of its half of the 16 KiB store, its syndrome,
and the sample period of the frame (R218). -/
structure WaveErr where
  bank : Fin 2
  word : Fin 1024
  synd : BitVec 8
  at_ : Fin 64
deriving DecidableEq, Repr

/-- What the preparation of a line meets: nothing, a word of staging, a delay line, a table store or a cell store that has lost bits, by its
on-die number (R376, Table 6.8), or a mismatch of pair u at step A4 or B4 (R191). -/
inductive PrepErr where
  | none_
  | ecc (addr : Nat) (synd : BitVec 8)
  | pair (u : Nat) (atB4 : Bool)
deriving DecidableEq, Repr

/-- The state of a profile generator at the next servo boundary, as it chooses it (R339): raw position in units of 2⁻³² AU, velocity in 2⁻³²
AU/s, acceleration in 2⁻¹⁶ AU/s². -/
structure ServoNext where
  p : Int
  v : Int
  a : Int
deriving DecidableEq, Repr

/-- Why a decoder is taken out of service: a state-register mismatch, or a word in error of one of its seven banks (5.7). -/
inductive DecErr where
  | logic
  | ecc (bank : Fin 7) (word : Fin 8192) (synd : BitVec 8)
deriving DecidableEq, Repr

/-- Bits of a DRAM beat that have decayed: its byte address, the data bits and the check bits that flip (R376). -/
structure Upset where
  addr : Nat
  data : BitVec 64
  check : BitVec 8
deriving DecidableEq, Repr

/-- What a DRAM channel still reports on ALERT_n after four retries: nothing, a command, or the write of the line at an address (Table 13.7). -/
inductive DramAlert where
  | none_
  | command
  | write (a : Nat)
deriving DecidableEq, Repr

/-- A word of the control SRAM, banks 416 to 447, or of bank 319, that its owner finds in error (Table 13.7). -/
structure WordErr where
  bank : Fin 32
  word : Fin 8192
  synd : BitVec 8
deriving DecidableEq, Repr

/-- A lease message as it arrives: a frame's payload on the twin link, or the levels of LS_IN in each half of each bit on the lease wires, first to last
(R433, R434). -/
inductive LeaseIn where
  | link (f : List Byte)
  | wire (half : List Bool)
deriving DecidableEq, Repr

/-- What the head-memory bus does with one try of a transfer (R241): it succeeds, is not acknowledged, within 10 ms of polling after a page, loses arbitration, finds SDA held low, or is
stretched beyond 25 ms. -/
inductive BusTry where
  | done | noAck | arbitration | stuck | stretch
deriving DecidableEq, Repr

/-- A word of the 512 KiB audit store in error, with its syndrome (R333). -/
structure AuditErr where
  word : Fin 65536
  synd : BitVec 8
deriving DecidableEq, Repr

/-- What has befallen the life memory by the time of a flush or of the start: a word of the fire accumulator store, or an MRAM word, by its logical
index, has lost the bits of a syndrome; the place of a logical block fails the compare of its writes from now on (R377, R484, R492, R494). -/
inductive LifeFinding where
  | accumulator (word : Fin 65536) (synd : BitVec 8)
  | word (word : Fin 131072) (synd : BitVec 8)
  | verify (block : Fin 256)
deriving DecidableEq, Repr

/-- What the boot flash returns at discovery (R56, R58): the bytes at SFDP address 0, the Basic Flash Parameter Table, and the first 256 bytes of each
image slot. -/
structure Flash where
  sfdp : List Byte
  bfpt : List Byte
  slot0 : List Byte
  slot1 : List Byte
deriving DecidableEq, Repr

/-- The commands, in the table's order. -/
inductive Instr where
  /-- MAIN_SUPPLIES_FALL (R40): The main supplies fall below their thresholds with VBAT present, and the part passes to KEEPALIVE. -/
  | mainSuppliesFall
  /-- MAIN_SUPPLIES_VALID (R40): The supplies become valid with RESET_N high, and the part leaves KEEPALIVE for BOOT. -/
  | mainSuppliesValid (lgcy unitB hold slot1 : Bool)
  /-- RESET_N_FALL (R47): RESET_N goes low: firing is inhibited and a flush runs before the warm reset. -/
  | resetNFall
  /-- WARM_RESET_FLUSH_DONE (R47): The flush of a warm reset ends, EIDLE is sent on every lane and the part resets into BOOT. -/
  | warmResetFlushDone (lgcy unitB hold slot1 : Bool)
  /-- RESET_N_RISE (R44): RESET_N rises, the straps are sampled and the start-up sequence begins with PLL lock. -/
  | resetNRise (lgcy unitB hold slot1 : Bool)
  /-- PLLS_LOCKED (R44): All PLLs lock; the SRAM repairs load, the SRAM sweep starts and the head-presence filters start. -/
  | pllsLocked
  /-- SRAM_SWEEP_DONE (R379): The SRAM sweep ends, SWEEP_DONE is set, the window becomes ready and the boot ROM starts. -/
  | sramSweepDone
  /-- BOOT_IMAGE_LOADED (R58): The boot ROM ends the load of a slot: it verifies the signature, then starts Verup, tries the next slot or stops. -/
  | bootImageLoaded (body : List Byte)
  /-- VERUP_STARTED (R44): Verup finishes its start: it reads the life-memory header and the calendar, runs its self-test and enters CONFIGURE. -/
  | verupStarted (findings : List LifeFinding) (ver : Word)
  /-- PWR_FAIL_N_FALL (R49): PWR_FAIL_N falls: the part enters SAFESTOP with the cause POWER_FAIL and flushes the life counters. -/
  | pwrFailNFall
  /-- SYS_RESET_WRITE (R47): A write of the key 0xA5C3 to SYS_RESET starts a warm reset. -/
  | sysResetWrite (p : Port) (v : Word)
  /-- SYS_SAFESTOP_WRITE (R414): A write of the key 0x3C5A to SYS_SAFESTOP removes the fire permit and enters SAFESTOP with the cause HOST_REGISTER. -/
  | sysSafestopWrite (p : Port) (v : Word)
  /-- MBX_RING (R70): A RING write to MBX_CTLn moves an IDLE mailbox to PENDING, or sets DB_REJECT or FOREIGN. -/
  | mbxRing (p : Port) (n : Fin 8)
  /-- MBX_ACK (R70): An ACK write to MBX_CTLn releases a mailbox in DONE to IDLE. -/
  | mbxAck (p : Port) (n : Fin 8)
  /-- MBX_PORT_WRITE (R73): A write to MBX_PORT rebinds each mailbox that is IDLE to the host link or to the SPI port. -/
  | mbxPortWrite (p : Port) (v : Word)
  /-- MBX_EVR_RD_WRITE (R79): A write to MBX_EVR_RD consumes ring entries, or is ignored and sets RD_BAD. -/
  | mbxEvrRdWrite (p : Port) (v : Word)
  /-- TIM_NOW_LO_READ (R66): A read of TIM_NOW_LO latches the upper timebase bits for the reading port. -/
  | timNowLoRead (p : Port)
  /-- TIM_NOW_HI_READ (R66): A read of TIM_NOW_HI returns the held upper bits, or the live bits when none are held. -/
  | timNowHiRead (p : Port)
  /-- REGISTER_WRITE (R10): A write to any other register of the window acts on its fields by their access codes, W1C included. -/
  | registerWrite (p : Port) (o : BitVec 16) (v : Word)
  /-- SPI_READ_FRAME (R61): A management SPI read frame returns STATUS and window words. -/
  | spiReadFrame (mosi : List Byte)
  /-- SPI_WRITE_FRAME (R61): A management SPI write frame writes each complete word into the window. -/
  | spiWriteFrame (mosi : List Byte)
  /-- SPI_PORT_STATUS (R62): A port-status frame returns WINDOW_READY, LAST_ERR and INT_MGT, and clears LAST_ERR. -/
  | spiPortStatus
  /-- MAILBOX_ACCEPT (R72): Verup takes the oldest pending command, checks its sequence, and executes it, replays the stored response, or refuses it. -/
  | mailboxAccept (err : Option WordErr)
  /-- MBX_STALL (R76): A mailbox stays in EXEC past MBX_WDOG.LIMIT: TIMEOUT is set and the fault MBX_STALL is raised. -/
  | mbxStall
  /-- CORE_WDOG (R54): A control-core watchdog expires and the fault CORE_WDOG is raised. -/
  | coreWdog
  /-- EVR_AGE_THRESHOLD (R80): The oldest unread entry reaches its age limit, and EVR_THRESH is set. -/
  | evrAgeThreshold
  /-- RING_OVERFLOW_WRITEOUT (R530): Once the ring has room, ev.ring_overflow and the held events are written out. -/
  | ringOverflowWriteout
  /-- SUPPRESSED_EVENT_REPORT (R531): When the period P has passed after suppressed occurrences, one entry with SUPPRESSED reports the latest of them. -/
  | suppressedEventReport (code instNo : Nat)
  /-- COUNTERS_REPORT (R533): Each second in which a counter of a group changed, ev.counters reports the group. -/
  | countersReport
  /-- SYS_RESET (R47): Command sys.reset starts a warm reset after its response. -/
  | sysReset
  /-- SYS_SAFESTOP (R40): Command sys.safestop enters SAFESTOP with the cause HOST_COMMAND. -/
  | sysSafestop
  /-- SYS_CONFIGURE (R40): Command sys.configure enters CONFIGURE from IDLE or SAFESTOP. -/
  | sysConfigure (tries : List (List BusTry))
  /-- SYS_SECVER (R59): Command sys.secver raises the fused security version. -/
  | sysSecver
  /-- CFG_BAR (R511): Command cfg.bar sets the profile, the legacy bit, the weights, the guard and the substitution settings. -/
  | cfgBar
  /-- CFG_HEAD (R166): Command cfg.head sets the mounting and port parameters of one port. -/
  | cfgHead
  /-- CFG_COMMIT (R40): Command cfg.commit checks and commits the configuration and enters IDLE or FOLLOW. -/
  | cfgCommit
  /-- JOB_OPEN (R32): Command job.open opens a job after the capacity and pacing checks. -/
  | jobOpen
  /-- JOB_START (R46): Command job.start enters PRINT after the checks. -/
  | jobStart
  /-- JOB_HOLD (R303): Command job.hold moves PRINT to HOLD and stops the tokens. -/
  | jobHold
  /-- JOB_RESUME (R303): Command job.resume returns HOLD to PRINT after the checks. -/
  | jobResume
  /-- JOB_ABORT (R410): Command job.abort discards the job's work and returns to IDLE. -/
  | jobAbort
  /-- JOB_CLOSE (R513): Command job.close ends the job and releases its posted slices. -/
  | jobClose (tries : List (List BusTry))
  /-- SLICE_POST (R133): Command slice.post checks a slice and adds it to the posted queue. -/
  | slicePost
  /-- CODEC_INFLATE (R149): Command codec.inflate starts a memory-to-memory inflate. -/
  | codecInflate
  /-- CODEC_DEFLATE (R154): Command codec.deflate starts a memory-to-memory deflate. -/
  | codecDeflate
  /-- CODEC_CONFIG (R157): Command codec.config sets the compressor settings. -/
  | codecConfig
  /-- GREY_LOAD (R186): Command grey.load starts the build of a port's greyscale map. -/
  | greyLoad
  /-- SUBST_LOAD (R186): Command subst.load starts the build of the substitution map. -/
  | substLoad
  /-- TABLE_SWAP (R188): Command table.swap requests a swap of a greyscale map or of the substitution map. -/
  | tableSwap
  /-- WAVE_LOAD (R202): Command wave.load starts a waveform bank build into a port's shadow. -/
  | waveLoad
  /-- WAVE_SWAP (R204): Command wave.swap requests a waveform bank swap on a port. -/
  | waveSwap
  /-- WAVE_CONFIG (R196): Command wave.config sets AMP_LATENCY and the default rest level. -/
  | waveConfig
  /-- WAVE_TEST (R214): Command wave.test starts or stops TEST frames on a port in SERVICE. -/
  | waveTest
  /-- HEAD_READ (R248): Command head.read reads one block of the head memory. -/
  | headRead (tries : List BusTry) (data : List Byte)
  /-- HEAD_WRITE (R248): Command head.write writes one block of the head memory and reads it back. -/
  | headWrite (tries : List BusTry) (back : List Byte)
  /-- FBK_CONFIG (R264): Command fbk.config sets the parameters of a feedback channel. -/
  | fbkConfig
  /-- FBK_SET (R273): Command fbk.set writes a channel position. -/
  | fbkSet
  /-- FBK_CAPTURE (R274): Command fbk.capture arms or disarms the capture of a channel on FB_C. -/
  | fbkCapture
  /-- FBK_READ (R281): Command fbk.read returns a snapshot of a channel. -/
  | fbkRead
  /-- FBK_OUT (R282): Command fbk.out sets, enables or disables a divided output. -/
  | fbkOut
  /-- PACE_CONFIG (R289): Command pace.config amends the pacing parameters of the open job. -/
  | paceConfig
  /-- PACE_ORIGIN (R290): Command pace.origin posts a swath origin entry. -/
  | paceOrigin
  /-- PACE_READ (R298): Command pace.read returns the pacing counters of the job. -/
  | paceRead
  /-- MAINT_START (R517): Command maint.start enters MAINTAIN with a maintenance sequence. -/
  | maintStart
  /-- MAINT_STOP (R517): Command maint.stop ends the maintenance sequence after the cycle in progress. -/
  | maintStop
  /-- AUDIT_CONFIG (R316): Command audit.config sets the camera and the audit parameters. -/
  | auditConfig
  /-- AUDIT_START (R325): Command audit.start checks an audit pass and enters AUDIT. -/
  | auditStart
  /-- AUDIT_STOP (R327): Command audit.stop ends the pass at once with a partial result. -/
  | auditStop
  /-- AXIS_CONFIG (R336): Command axis.config sets the configuration of an axis. -/
  | axisConfig
  /-- AXIS_LIMITS (R346): Command axis.limits sets the limits of an axis, at once or deferred. -/
  | axisLimits
  /-- AXIS_MOVE (R341): Command axis.move starts an absolute, relative or velocity move after the limit check. -/
  | axisMove
  /-- AXIS_STOP (R350): Command axis.stop holds or aborts an axis. -/
  | axisStop
  /-- AXIS_RESUME (R349): Command axis.resume clears the HOST hold of an axis. -/
  | axisResume
  /-- AXIS_HOME (R363): Command axis.home enters HOME and starts referencing the named axes. -/
  | axisHome
  /-- MEM_CONFIG (R371): Command mem.config sets the DRAM arrangement and the correctable-error settings. -/
  | memConfig
  /-- MEM_SWEEP (R374): Command mem.sweep trains the channels if due and starts extending the initialised range. -/
  | memSweep
  /-- MEM_STATUS (R519): Command mem.status returns the error counts, the log and the scrubber state. -/
  | memStatus
  /-- MEM_SCRUB (R387): Command mem.scrub starts or stops the scrubber. -/
  | memScrub
  /-- MEM_REPAIR (R391): Command mem.repair adds an SRAM row or column repair to the map. -/
  | memRepair
  /-- MEM_PPR (R392): Command mem.ppr starts hPPR of a DRAM row. -/
  | memPpr (support : Bool)
  /-- MEM_ECCTEST (R393): Command mem.ecctest writes raw, reads raw or injects check-bit errors. -/
  | memEcctest
  /-- CVU_CONFIG (R394): Command cvu.config arms or stops a check-value unit. -/
  | cvuConfig
  /-- CVU_READ (R395): Command cvu.read returns the context of a unit. -/
  | cvuRead
  /-- CVU_WRITE (R395): Command cvu.write sets STATE and COUNT of an idle unit. -/
  | cvuWrite
  /-- FAULT_READ (R398): Command fault.read returns the fault record of an instance. -/
  | faultRead
  /-- FAULT_ACK (R417): Command fault.ack releases a latch of an ACK class once its condition holds. -/
  | faultAck
  /-- FAULT_CLEAR (R416): Command fault.clear releases the chip latch and leaves SAFESTOP. -/
  | faultClear (ball : Bool)
  /-- FN_REINIT (R418): Command fn.reinit reinitialises a block or region and releases its latches. -/
  | fnReinit (fails : List Nat) (pass : BitVec 9)
  /-- TWIN_CONFIG (R423): Command twin.config sets the twin parameters. -/
  | twinConfig
  /-- TWIN_UNPAIR (R425): Command twin.unpair sends DEPART and leaves the pair. -/
  | twinUnpair
  /-- TWIN_SWAP (R441): Command twin.swap makes a handover due. -/
  | twinSwap
  /-- TWIN_RESOLVE (R440): Command twin.resolve releases XCHECK_MISMATCH with KEEP or SWAP. -/
  | twinResolve
  /-- TWIN_TAKEOVER (R446): Command twin.takeover takes the bar when the release or claim conditions hold. -/
  | twinTakeover
  /-- TIME_CONFIG (R456): Command time.config sets the time parameters. -/
  | timeConfig
  /-- TIME_SET (R458): Command time.set writes TB. -/
  | timeSet
  /-- TIME_ADJUST (R458): Command time.adjust steps TB, slews it or sets its rate. -/
  | timeAdjust
  /-- TIME_SCHED (R468): Command time.sched arms a scheduler slot, runs it late, or refuses it. -/
  | timeSched
  /-- TIME_CANCEL (R470): Command time.cancel frees a scheduler slot. -/
  | timeCancel
  /-- TIME_READ (R470): Command time.read returns the scheduler slot records. -/
  | timeRead
  /-- ETH_CONFIG (R460): Command eth.config sets the MAC, the speed, the VLAN, the multicast groups and the receive ring. -/
  | ethConfig
  /-- ETH_MDIO (R460): Command eth.mdio reads or writes a PHY register. -/
  | ethMdio (answer : BitVec 16)
  /-- ETH_SEND (R472): Command eth.send posts a frame to the launch-time queue. -/
  | ethSend
  /-- ETH_RXACK (R462): Command eth.rxack returns consumed receive-ring slots. -/
  | ethRxack
  /-- ETH_TSREAD (R474): Command eth.tsread removes entries from the transmit-timestamp queue. -/
  | ethTsread
  /-- LINK_CONFIG (R92): Command link.config sets the equalisation, minimum width and spare settings of a link. -/
  | linkConfig
  /-- LINK_RETRAIN (R104): Command link.retrain starts a recovery retrain. -/
  | linkRetrain
  /-- LINK_SPARE (R118): Command link.spare asks for the spare lane. -/
  | linkSpare
  /-- LINK_TEST (R523): Command link.test runs patterns, loopback, injection or margining on a lane. -/
  | linkTest (rx : List Bool)
  /-- LINK_STATUS (R522): Command link.status returns the state of a link. -/
  | linkStatus
  /-- LIFE_CONFIG (R488): Command life.config sets the write-back period. -/
  | lifeConfig
  /-- LIFE_READ (R497): Command life.read returns bytes of the life memory. -/
  | lifeRead
  /-- LIFE_COUNTERS (R497): Command life.counters returns the live fire totals. -/
  | lifeCounters
  /-- LIFE_WRITE (R497): Command life.write writes the host area. -/
  | lifeWrite
  /-- LIFE_FLUSH (R488): Command life.flush starts a flush. -/
  | lifeFlush
  /-- LIFE_CLEAR (R497): Command life.clear clears a port's counters and history, or a repair-map entry. -/
  | lifeClear
  /-- LIFE_EXPORT (R497): Command life.export flushes and writes the life-memory image to DRAM. -/
  | lifeExport
  /-- LIFE_FORMAT (R498): Command life.format rewrites the header and zeroes the life memory. -/
  | lifeFormat
  /-- RTC_SET (R500): Command rtc.set sets the RTC and its VALID latch. -/
  | rtcSet
  /-- RTC_TRIM (R501): Command rtc.trim sets the RTC compensation. -/
  | rtcTrim
  /-- RTC_ALARM (R502): Command rtc.alarm sets the wake alarm. -/
  | rtcAlarm
  /-- SVC_ENTER (R40): Command svc.enter enters SERVICE. -/
  | svcEnter
  /-- SVC_EXIT (R40): Command svc.exit leaves SERVICE for CONFIGURE and restores the test words. -/
  | svcExit
  /-- LINK_DETECT (R98): Signal above squelch is found in DETECT, and bring-up moves to LOCK. -/
  | linkDetect (l : Fin 2)
  /-- LINK_LOCK_DONE (R98): Block lock and the TRAIN exchange complete, and bring-up moves to ALIGN. -/
  | linkLockDone (l : Fin 2) (locked : BitVec 9)
  /-- LINK_ALIGN_DONE (R100): The width and the lane mapping are chosen and the lanes deskewed, and bring-up moves to EQUALISE. -/
  | linkAlignDone (l : Fin 2)
  /-- LINK_EQUALISE_DONE (R99): Verification at a rate ends: the rate is accepted, or EQUALISE repeats at a lower rate. -/
  | linkEqualiseDone (l : Fin 2)
  /-- LINK_ACTIVE_DONE (R98): The credits are exchanged and the link is up. -/
  | linkActiveDone (l : Fin 2)
  /-- LINK_STAGE_TIMEOUT (R98): A bring-up stage times out, with the outcome of Table 4.6. -/
  | linkStageTimeout (l : Fin 2) (locked : BitVec 9)
  /-- LINK_START_RETRY (R103): After the 100 ms wait, bring-up begins again at stage 1. -/
  | linkStartRetry (l : Fin 2)
  /-- RECOVERY_RETRAIN_DONE (R104): A recovery retrain ends, possibly at a narrower width, or fails into a link reset. -/
  | recoveryRetrainDone (l : Fin 2) (locked : BitVec 9)
  /-- TRAIN1_RECEIVED (R98): A TRAIN1 block is received during bring-up. -/
  | train1Received (l : Fin 3) (lane : Fin 9) (b : List Byte)
  /-- TRAIN2_RECEIVED (R98): A TRAIN2 block with capabilities and equalisation requests is received. -/
  | train2Received (l : Fin 3) (lane : Fin 9) (b : List Byte)
  /-- ALIGN_RECEIVED (R97): An ALIGN block resets the scrambler and is checked against LANE_CHECK. -/
  | alignReceived (l : Fin 3) (lane : Fin 9) (b data : List Byte)
  /-- SKIP_RECEIVED (R96): A SKIP block is deleted or inserted for clock compensation. -/
  | skipReceived (l : Fin 3) (lane : Fin 9) (b : List Byte)
  /-- EIDLE_RECEIVED (R105): The partner's EIDLE causes a link reset. -/
  | eidleReceived (l : Fin 2)
  /-- INVALID_BLOCK_RECEIVED (R95): A block with bad sync bits or a bad control block is ignored and counted. -/
  | invalidBlockReceived (l : Fin 3) (lane : Fin 9) (sync : BitVec 2) (b : List Byte)
  /-- ALIGN_SKIP_INTERVAL (R96): After 4096 data blocks each transmitter sends ALIGN and SKIP. -/
  | alignSkipInterval (l : Fin 2) (gaps : List Nat)
  /-- LANE_LOCK_LOST (R118): An active lane loses block lock, leading to a spare switch or a recovery retrain. -/
  | laneLockLost (l : Fin 2) (lane : Fin 9)
  /-- SPARE_REQ (R119): A SPARE REQ block is received and answered with ACK or REFUSE. -/
  | spareReq (l : Fin 2) (lane : Fin 9)
  /-- SPARE_ACK (R119): A SPARE ACK is received, and the requester sends SWITCH. -/
  | spareAck (l : Fin 2)
  /-- SPARE_REFUSE (R119): A SPARE REFUSE is received, and the failure is handled by a recovery retrain. -/
  | spareRefuse (l : Fin 2)
  /-- SPARE_SWITCH (R119): A SPARE SWITCH moves the failed logical lane onto the spare. -/
  | spareSwitch (l : Fin 2)
  /-- MWR_RECEIVED (R113): A memory-write frame is checked, accepted and committed to the DRAM. -/
  | mwrReceived (f : List Byte) (alert : Bool)
  /-- MRD_RECEIVED (R113): A memory-read frame is served after earlier writes, with a CPLM completion. -/
  | mrdReceived (f : List Byte)
  /-- RWR_RECEIVED (R109): A register-write frame writes the window, or is discarded. -/
  | rwrReceived (f : List Byte)
  /-- RRD_RECEIVED (R109): A register-read frame is answered with a CPLR completion. -/
  | rrdReceived (f : List Byte)
  /-- COMPLETION_SEND (R112): A held completion or interrupt message is sent once the host's credit admits it. -/
  | completionSend (l : Fin 2)
  /-- ACK_RECEIVED (R115): A link ACK frees frames from the replay buffer. -/
  | ackReceived (l : Fin 2) (f : List Byte)
  /-- NAK_RECEIVED (R115): A link NAK causes a replay of the unacknowledged frames. -/
  | nakReceived (l : Fin 2) (f : List Byte)
  /-- CREDIT_RECEIVED (R111): A CREDIT frame updates the transmit limits of a virtual channel. -/
  | creditReceived (l : Fin 2) (f : List Byte)
  /-- REPLAY_TIMEOUT (R115): 8 µs pass without ACK progress, so a replay starts, or a retrain after four replays. -/
  | replayTimeout (l : Fin 2)
  /-- CREDIT_UPDATE_TIMER (R111): A CREDIT frame is sent every 4 µs, or when a quarter of a buffer is freed. -/
  | creditUpdateTimer (l : Fin 2)
  /-- SLICE_OPEN (R139): The decoder group opens the next posted slice and assigns its streams. -/
  | sliceOpen (err : Option WordErr)
  /-- SLICE_RECORD (R438): A SLICE mirror record from the active is matched against the slices held. -/
  | sliceRecord (f : List Byte)
  /-- STREAM_SWITCH (R141): A decoder leaves its stream and takes up the runnable stream of the head with the fewest staged lines. -/
  | streamSwitch (d : Fin 9) (n : Fin 4097)
  /-- DYNAMIC_TABLE_BUILT (R142): A dynamic Huffman table build ends, and its stream becomes runnable. -/
  | dynamicTableBuilt (sliceNo : Nat) (k : Fin 32)
  /-- STREAM_END (R144): A stream ends and is checked, possibly releasing or aborting its slice. -/
  | streamEnd (d : Fin 9)
  /-- DECODER_TEST_DONE (R145): The test stream ends: the decoder leaves service or HOST_CHECK is counted. -/
  | decoderTestDone (d : Fin 9) (pass : Bool)
  /-- DECODER_LEAVES_SERVICE (R146): A decoder with DEC_ECC or DEC_LOGIC leaves service and its streams are reassigned. -/
  | decoderLeavesService (d : Fin 9) (e : DecErr)
  /-- STANDBY_TEST (R148): Every 100 ms the standby decoder runs the test stream, pre-empting inflate work. -/
  | standbyTest
  /-- CODEC_REQUEST_END (R150): An inflate or deflate request ends, and its context is written. -/
  | codecRequestEnd (unit used : Nat) (made : List Byte) (pend next : List Bool)
  /-- SWATH_START_PERMISSION (R171): Once all its conditions hold, permission for the next swath is granted and the swaps due are made. -/
  | swathStartPermission (p : Fin 16) (err : PrepErr)
  /-- LINE_TOKEN (R298): Pacing issues a port's token, and the swath engine prepares the next firing line. -/
  | lineToken (p : Fin 16) (err : PrepErr)
  /-- FRAME_SHIFT_START (R232): Frame shifting begins once the head line is complete and 10 ns after the previous latch. -/
  | frameShiftStart (p : Fin 16)
  /-- FRAME_SHIFT_DONE (R228): A frame has been shifted completely into the head. -/
  | frameShiftDone (p : Fin 16)
  /-- CYCLE_START (R195): At the sample boundary after the token, a fire cycle starts on the active bank. -/
  | cycleStart (p : Fin 16)
  /-- LATCH_ISSUE (R233): T_lat after sample 0, the latch of the line is issued when its conditions hold. -/
  | latchIssue (p : Fin 16) (checkOk : Bool)
  /-- FIRE_WINDOW_OPEN (R234): At its sample count a pulse window opens and HS_FIRE rises. -/
  | fireWindowOpen (p : Fin 16) (w : Fin 7)
  /-- FIRE_WINDOW_CLOSE (R234): At its END a pulse window closes and HS_FIRE falls. -/
  | fireWindowClose (p : Fin 16) (w : Fin 7)
  /-- MAINT_SEQUENCE_COMPLETE (R517): The last maintenance cycle ends, and the mode returns to IDLE or HOLD. -/
  | maintSequenceComplete
  /-- WAVE_FRAME (R211): Every 2.56 µs a waveform-stream frame is sent with its control words and check value. -/
  | waveFrame (p : Fin 16) (err : Option WaveErr)
  /-- REST_LEVEL_MOVE (R210): After the last windows on the old bank close, the stream moves to the new rest level. -/
  | restLevelMove (p : Fin 16)
  /-- FIRE_PERMIT_FALL (R239): The fire permit falls at a port: open windows finish and no further latch or window occurs. -/
  | firePermitFall (p : Fin 16)
  /-- TABLE_BUILD_DONE (R186): A greyscale or substitution build ends READY or FAILED. -/
  | tableBuildDone (table : Nat)
  /-- WAVE_BUILD_DONE (R200): A waveform bank build ends READY or FAILED. -/
  | waveBuildDone (p : Fin 16)
  /-- HEAD_PRESENT (R249): HP_PRES_N has been low for 50 ms: the head becomes present and its record read starts. -/
  | headPresent (p : Fin 16)
  /-- HEAD_RECORD_READ_DONE (R247): A head-record read ends, is checked and is compared with the committed record. -/
  | headRecordReadDone (p : Fin 16) (tries : List BusTry) (data : List Byte)
  /-- HEAD_ABSENT (R249): HP_PRES_N has been high for 10 µs and the head becomes absent. -/
  | headAbsent (p : Fin 16)
  /-- HEAD_FAULT_ASSERT (R249): HP_FLT_N has been low for the filter time and the head fault is asserted. -/
  | headFaultAssert (p : Fin 16)
  /-- HEAD_FAULT_CLEAR (R249): HP_FLT_N has been high for the filter time and the head fault clears. -/
  | headFaultClear (p : Fin 16)
  /-- HEAD_USAGE_WRITE (R246): Every 15 minutes of firing the usage block is written to the head memory. -/
  | headUsageWrite (p : Fin 16) (tries : List BusTry)
  /-- OWN_READBACK (R254): The BAR_OWN ball has differed from its driven level for 200 ns: the permit is removed and OWN_READBACK is raised. -/
  | ownReadback
  /-- BAR_CONTENTION (R255): BAR_OWN and BAR_PEER have both been high for 200 ns: the permit is removed and BAR_CONTENTION is raised. -/
  | barContention
  /-- FEEDBACK_COUNT (R266): A filtered input change is decoded into a count, and pacing re-evaluates the position. FB_A and FB_B are sampled at the
  levels a and b for n samples (R262). -/
  | feedbackCount (c : Fin 8) (a b : Bool) (n : Nat)
  /-- HALL_EVALUATE (R270): Every 1 µs a Hall channel evaluates its code and counts sectors. -/
  | hallEvaluate (c : Fin 8)
  /-- FBK_CAPTURE_EDGE (R274): An armed FB_C edge copies the position into CAPT_POS. FB_C is sampled at the level h for n samples (R262). -/
  | fbkCaptureEdge (c : Fin 8) (h : Bool) (n : Nat)
  /-- SPEED_WINDOW_END (R275): A speed window ends and its report is made available. -/
  | speedWindowEnd (c : Fin 8)
  /-- FBO_STEP (R284): A divided output sends one step of its backlog after SPACING. -/
  | fboStep (k : Fin 2)
  /-- MAINTAIN_TIMER_LINE (R287): Under the TIMER source a maintenance line falls due every PERIOD. -/
  | maintainTimerLine
  /-- CAMERA_LANE_UP (R309): A camera lane passes verification and comes up. -/
  | cameraLaneUp (lane : Fin 2)
  /-- CAMERA_LINK_LOST (R309): A camera lane loses lock or shows 4 check mismatches, and the link is lost. -/
  | cameraLinkLost (lock : Option (Fin 2))
  /-- CAMERA_RESTART (R309): 1 ms after a loss, camera bring-up restarts. -/
  | cameraRestart
  /-- CAMERA_FRAME (R312): A camera frame is checked and accepted, and its dashes are measured. -/
  | cameraFrame (f : List Byte) (err : Option AuditErr)
  /-- AUDIT_TIMEOUT (R326): TIMEOUT passes after the last token, and the unmeasured dashes become UNSEEN. -/
  | auditTimeout
  /-- AUDIT_COMPRESS_TIMEOUT (R330): No compressor is free within 100 ms, so the raw body is copied. -/
  | auditCompressTimeout
  /-- INLINE_WINDOW_CLOSE (R331): An in-line window closes after 1 s, or on a later frame, and its columns are judged. -/
  | inlineWindowClose
  /-- SERVO_PERIOD (R339): At each servo boundary the profile advances and a set-point frame or microstep target is produced. -/
  | servoPeriod (u : Fin 4) (n0 n1 n2 : ServoNext)
  /-- DRIVE_REPLY (R354): A drive's reply is received and checked for READY, FAULT, WARNING and REF_DONE. -/
  | driveReply (dl : Fin 2) (slot : Fin 3) (rx : List Bool)
  /-- DRIVE_REPLY_MISSED (R357): No valid reply arrives in the slot window, and the miss is counted. -/
  | driveReplyMissed (dl : Fin 2) (slot : Fin 3)
  /-- HOME_TIMEOUT (R364): A DRIVE referencing waits longer than HOME_TIME, and HOME_FAIL is raised. -/
  | homeTimeout (a : Fin 8)
  /-- MICROSTEP_UPDATE (R360): Every 250 ns the microstep index and current are updated and strobed. -/
  | microstepUpdate (k : Fin 2)
  /-- CURRENT_REDUCTION (R362): After REDUCE_DELAY at standstill the current falls to HOLD_LEVEL. -/
  | currentReduction (a : Fin 8)
  /-- MEM_SWEEP_DONE (R374): A DRAM sweep reaches its target and ev.mem_sweep_done is raised. -/
  | memSweepDone
  /-- SCRUB_LINE (R388): The scrubber reads one line at its rate, correcting or poisoning it. -/
  | scrubLine (word : Nat) (synd : BitVec 8) (last : Bool)
  /-- CE_LEAK_TICK (R382): Every CE_LEAK ms one is taken from each bucket. -/
  | ceLeakTick
  /-- DRAM_REFRESH (R370): Every tREFI an all-bank refresh is issued. -/
  | dramRefresh (ch : Fin 2) (alert : DramAlert) (upsets : List Upset)
  /-- ZQ_CALIBRATION (R370): Every 128 ms a ZQCS calibration is issued. -/
  | zqCalibration
  /-- PPR_DONE (R392): An hPPR ends; the row is rewritten, or DRC_PPR is raised. -/
  | pprDone (ok : Bool)
  /-- CVU_STOP (R395): A check-value unit reaches its stop condition and ev.cvu_done is raised. -/
  | cvuStop (u : Fin 8)
  /-- DISCARD_END (R411): A discard ends and ev.discard reports it. -/
  | discardEnd
  /-- TEMP_UPDATE (R566): Every 1 ms SYS_TEMP is updated, and 4 readings at or above 115 °C raise OVERTEMP. -/
  | tempUpdate (tj : BitVec 12)
  /-- RENEW_TIMER (R429): Every 250 µs the holder sends RENEW on both paths, or a NONE unit with nothing to answer sends HELLO. -/
  | renewTimer
  /-- HELLO_RECEIVED (R429): A HELLO lease message is received and keeps its path up. -/
  | helloReceived (m : LeaseIn)
  /-- RENEW_RECEIVED (R429): A RENEW is answered with GRANT, updates V, and may push the receiver to NONE under R431. -/
  | renewReceived (m : LeaseIn)
  /-- GRANT_RECEIVED (R429): A GRANT extends the holder's expiry E. -/
  | grantReceived (m : LeaseIn)
  /-- PASS_RECEIVED (R443): A PASS is received; the receiver waits for BAR_PEER low. -/
  | passReceived (m : LeaseIn)
  /-- RELEASE_RECEIVED (R446): A RELEASE is received and may lead to a takeover. -/
  | releaseReceived (m : LeaseIn)
  /-- DEPART_RECEIVED (R449): A DEPART makes a holder SOLO, or a standby unfit. -/
  | departReceived (m : LeaseIn)
  /-- LEASE_EXPIRY (R430): The holder reaches E: the permit is removed, BAR_OWN goes low, it enters NONE and LEASE_EXPIRED is raised. -/
  | leaseExpiry
  /-- LEASE_PATH_DOWN (R448): A lease path has been silent for 750 µs and goes down. -/
  | leasePathDown (wire : Bool)
  /-- LEASE_CLAIM (R446): After V and the 1 ms guard with BAR_PEER low, a fit standby claims the bar. -/
  | leaseClaim
  /-- TAKEOVER_RELEASE (R446): After a RELEASE over the twin link and 1 µs of BAR_PEER low, the standby takes the bar. -/
  | takeoverRelease
  /-- LEASE_TAKE_AT_COMMIT (R424): The primary takes the lease with EPOCH 1 once BAR_PEER has been low for 1 ms after commit. -/
  | leaseTakeAtCommit
  /-- PAIR_INFO_RECEIVED (R424): The peer's PAIR_INFO is received and compared. -/
  | pairInfoReceived (f : List Byte)
  /-- HANDOVER_START (R442): A due handover begins once its conditions hold: permission is withheld and HANDOVER is sent. -/
  | handoverStart
  /-- HANDOVER_RECEIVED (R443): The standby checks the snapshot, leaves FOLLOW and answers READY. -/
  | handoverReceived (f : List Byte)
  /-- HANDOVER_READY_RECEIVED (R443): On READY the giver enters FOLLOW, drives BAR_OWN low and sends PASS. -/
  | handoverReadyReceived (f : List Byte)
  /-- HANDOVER_TIMEOUT (R443): No READY within 1 ms: the giver abandons the handover and keeps the lease. -/
  | handoverTimeout
  /-- HANDOVER_TAKE_BAR (R443): After PASS and 1 µs of BAR_PEER low, the receiver becomes HOLDER and drives the bar. -/
  | handoverTakeBar
  /-- XCHECK_RECEIVED (R439): The active receives XCHECK and raises XCHECK_MISMATCH. -/
  | xcheckReceived (f : List Byte)
  /-- RESOLVE_RECEIVED (R440): The standby receives RESOLVE and releases XCHECK_MISMATCH. -/
  | resolveReceived (f : List Byte)
  /-- LINE_RECORD (R437): A LINE mirror record acts as a shadow token on the standby and is compared. -/
  | lineRecord (f : List Byte) (err : PrepErr)
  /-- SWAP_RECORD (R437): A SWAP mirror record makes the standby's swap from the named line. -/
  | swapRecord (f : List Byte)
  /-- STATE_RECORD (R437): A STATE mirror record updates the standby's view and its position offset. -/
  | stateRecord (f : List Byte)
  /-- AXIS_RECORD (R436): An AXIS mirror record updates the standby's copy of an axis. -/
  | axisRecord (f : List Byte)
  /-- MIRROR_STATE_TIMER (R436): At each multiple of 100 µs the active sends a STATE record. -/
  | mirrorStateTimer
  /-- REVERT_HOLD_EXPIRY (R445): The primary has been a fit standby for REVERT_HOLD, and a revertive return falls due. -/
  | revertHoldExpiry
  /-- CONTENTION_RESOLVE (R450): BAR_PEER has been low for 1 ms after contention, and the primary or an unpaired unit resumes or enters NONE. -/
  | contentionResolve
  /-- TIME_PING_TIMER (R475): Every 10 ms the standby sends TIME_PING. -/
  | timePingTimer
  /-- TIME_PING_RECEIVED (R475): The active answers a TIME_PING with TIME_ECHO. -/
  | timePingReceived (f : List Byte)
  /-- TIME_ECHO_RECEIVED (R476): The standby forms θ and slews or steps its timebase. -/
  | timeEchoReceived (f : List Byte)
  /-- SCHEDULED_OCCURRENCE (R467): A scheduler slot falls due and runs its action. -/
  | scheduledOccurrence
  /-- OUTPUT_PULSE_END (R466): After WIDTH the pulse of an OUTPUT PULSE ends on TM_OUT. -/
  | outputPulseEnd (n : Fin 4)
  /-- PPS_PULSE (R459): At each whole second of TB, TM_PPS rises. -/
  | ppsPulse
  /-- PPS_PULSE_END (R459): 100 ms after its rise, TM_PPS falls. -/
  | ppsPulseEnd
  /-- PTP_ANNOUNCE_RECEIVED (R463): An Announce message feeds the best-master comparison. -/
  | ptpAnnounceReceived
  /-- PTP_SYNC_RECEIVED (R464): A Sync gives t₁ and t₂, and the servo updates its offset. -/
  | ptpSyncReceived (jitter : Int)
  /-- PTP_FOLLOW_UP_RECEIVED (R464): A Follow_Up gives the origin time of a two-step master. -/
  | ptpFollowUpReceived
  /-- PTP_DELAY_RESP_RECEIVED (R464): A Delay_Resp gives t₄. -/
  | ptpDelayRespReceived
  /-- PTP_DELAY_REQ_TIMER (R463): At the randomised interval Verup queues a Delay_Req. -/
  | ptpDelayReqTimer
  /-- ANNOUNCE_TIMEOUT (R465): No Announce for ANN_TIMEOUT intervals, and the part enters HOLDOVER. -/
  | announceTimeout
  /-- ETH_FRAME_RECEIVED (R461): A received Ethernet frame is filtered and given to PTP or to the host ring. -/
  | ethFrameReceived (f : List Byte) (fcsOk : Bool)
  /-- ETH_LAUNCH (R473): The queue-head frame launches at its T, or is dropped as EXPIRED or NO_LINK. -/
  | ethLaunch
  /-- ETH_LINK_CHANGE (R460): The in-band status or a PHY poll changes the link or speed, and ev.eth_link is raised. -/
  | ethLinkChange (up full : Bool) (speed : Fin 3)
  /-- PHY_LINK_POLL (R460): At a fixed speed, Verup polls PHY register 1 every 100 ms. -/
  | phyLinkPoll (answer : BitVec 16)
  /-- WRITEBACK_TIMER (R488): Every WB_PERIOD a life-memory flush starts. -/
  | writebackTimer
  /-- FLUSH_END (R489): A flush ends after the logs, counters, histories and calendar are written. -/
  | flushEnd (findings : List LifeFinding)
  /-- LIFE_EXPORT_DONE (R497): A life export ends and ev.life_export reports its length and CRC. -/
  | lifeExportDone (used : Nat) (made : List Byte) (pend next : List Bool)
  /-- RTC_COMPENSATION (R501): Over each 32 s interval the RTC adds or removes ticks. -/
  | rtcCompensation
  /-- FAWN_TEMP_SAMPLE (R501): Every 60 s the Fawn temperature is sampled for compensation. -/
  | fawnTempSample (t : BitVec 16)
  /-- RTC_SYNC (R500): Every 60 s under PTP LOCKED or TWIN, the RTC is set from TB when they differ by more than 1 ms. -/
  | rtcSync
  /-- RTC_ALARM_MATCH (R502): The RTC reaches the alarm, and WAKE_N goes low with the cause ALARM. -/
  | rtcAlarmMatch
  /-- WAKE_REQUEST (R502): WAKE_REQ_N has been low for 10 ms, and WAKE_N goes low with the cause REQUEST. -/
  | wakeRequest
  /-- VBAT_LOW (R499): VBAT falls below 1.5 V, and VALID is cleared. -/
  | vbatLow
  /-- XTAL_STOP (R499): The 32 kHz oscillator stops for more than 1 ms, and VALID is cleared. -/
  | xtalStop
  /-- PWR_FAIL_N_RISE (R49): PWR_FAIL_N returns high while the supplies stay valid; the part stays in SAFESTOP, and the CLEAR condition of POWER_FAIL is now met. -/
  | pwrFailNRise
  /-- BAR_PEER_CHANGE (R252): The level sampled on BAR_PEER changes, updating TWIN_STATUS.BAR_PEER and starting or stopping the low-time counts that takeover, commit and contention rules wait on. -/
  | barPeerChange (level : Bool)
  /-- FLASH_DISCOVERY_DONE (R56): SFDP discovery ends: it fails with NO_FLASH or SFDP_UNSUPPORTED and the ROM stops, or the slot candidates are chosen and the first load begins. -/
  | flashDiscoveryDone (found : Flash)
  /-- DRAM_TRAINING_DONE (R371): Training of the DRAM channels at the first mem.sweep ends: DRC_TRAIN is raised, or the sweep starts, or ev.mem_sweep_done is raised for a target already swept. -/
  | dramTrainingDone (ok0 ok1 : Bool)
  /-- SWEEP_MIB_COMPLETE (R374): A sweep finishes one more MiB: INIT_MIB rises by 1 and any write held for that MiB is applied. -/
  | sweepMibComplete (ch : Fin 2)
  /-- MODE_TRANSITION_END (R41): A mode transition in progress, such as the checks after cfg.commit, ends: SYS_MODE.TRANSITION clears and ev.mode is raised. -/
  | modeTransitionEnd
  /-- TIME_SLEW_END (R457): A slew has removed its offset, and the added rate is withdrawn from r. -/
  | timeSlewEnd
  /-- LEASE_VIEW_EXPIRY (R429): A unit in NONE reaches V without a newer RENEW: LEASE_VALID falls and the claim guard begins to count. -/
  | leaseViewExpiry
  /-- TRIGGER_OUTPUT_ENABLE (R313): The part enables the audit trigger output once 100 µs have passed since it was last disabled. -/
  | triggerOutputEnable (k : Fin 2)
deriving DecidableEq, Repr

end Sys2Proof
end

