-- ==== Sys2Proof/Config.lean ====
section
/-! DEFINITION. What the silicon fixes, and the values the manual leaves open: constants with no body, so that nothing can
be proved of them (assumption log 3). -/
namespace Sys2Proof.Config

/-- The family members of Table 0.1. -/
inductive Part where
  | aql1600 | aql1610 | aql0800
deriving DecidableEq, Repr

/-- The modelled member (R1: behaviour stated without qualification is that of the AQL-1600). -/
def part : Part := .aql1600

/-- SYS_IDENT.PART (Table 0.1). -/
def partCode : Nat := match part with | .aql1600 => 0x1600 | .aql1610 => 0x1610 | .aql0800 => 0x0800

/-- Head ports of the part (Table 0.1). -/
def ports : Nat := match part with | .aql0800 => 8 | _ => 16

/-- Swath datapath cells of the part (Table 0.1). -/
def cells : Nat := match part with | .aql0800 => 256 | _ => 512

/-- The part has the nozzle audit and the camera lanes (Table 0.1). -/
def hasAudit : Bool := match part with | .aql1600 => true | _ => false

/-- SYS_IDENT.STEP of stepping B0 (R3). -/
def stepCode : Nat := 1

/-- A free byte for the n-th open value of the run. -/
opaque freeByte : Nat → BitVec 8

/-- A free natural number for the n-th open value of the run; a use that the manual bounds reduces it into the bound. -/
opaque freeNat : Nat → Nat

/-- A free integer for the n-th open value of the run. -/
opaque freeInt : Nat → Int

/-- The boot ROM knows a method of the quad-enable requirement field (Table 3.1, which does not list them). -/
opaque romKnowsQuadEnable : Nat → Bool

end Sys2Proof.Config
end

