-- ==== Sys2Proof/Machine/State.lean ====
section
/-! DEFINITION. The state of the AQL-1600: every register, queue, counter, mode and ball level the manual gives the part, as
plain data, with its value at reset as each field's default. The stop reasons stand at the end, and `State.reset`. -/
namespace Sys2Proof.Machine

/-! ## Shared shapes -/

/-- A sparse table of values by number in one canonical form: keys strictly rising, no entry equal to what an unlisted key
reads as (that default is named where the table is read). -/
abbrev SMap (α : Type) := List (Nat × α)

/-- A byte store by address in canonical form; an unlisted address reads as zero (R374, R379: swept to zero). -/
abbrev Mem := List Host.Cell

/-- One item of a parameter set that has been set: the parameter's ID, its INDEX and its VALUE (R510). -/
structure PItem where
  id : Nat
  index : Nat
  value : Int
deriving DecidableEq, Repr

/-- The items of a parameter set that host software has set, by rising (ID, INDEX); a parameter that is not listed holds its
default (R511). -/
abbrev ParamSet := List PItem

/-- Where something the part sends goes. -/
inductive Chan where
  | linkBlock (link : Fin 2)      -- a control block, on the lane it names or on every lane of a link
  | linkFrame (link : Fin 2)      -- a frame on a link
  | linkPattern (link : Fin 2) (lane : Fin 9)   -- the bits of a lane under test (R122)
  | leaseWire                     -- a lease message on the lease wires (R433)
  | spi                           -- bytes on MGT_MISO
  | shift (port : Fin 16)         -- a head-line frame (R225)
  | wave (port : Fin 16)          -- a waveform-stream frame (R211)
  | drive (dl : Fin 2)            -- a set-point frame (R353)
  | i2c (port : Fin 16) (slow : Bool)   -- bytes that a head port's controller sends between START and STOP, at 400 kHz or 100 kHz (R241)
  | i2cFree (port : Fin 16)       -- nine clocks and a STOP that free a head memory's bus (R241)
  | eth                           -- an Ethernet frame (R473)
  | mdio                          -- an MDIO access (R460)
deriving DecidableEq, Repr

/-- One thing the part has sent. -/
structure Sent where
  chan : Chan
  data : List Byte
deriving DecidableEq, Repr

/-! ## Chapter 2: modes and start-up -/

/-- The twelve modes of Table 2.1. -/
inductive Mode where
  | keepalive | boot | configure | idle | home | maintain | print | hold | audit | follow | safestop | service
deriving DecidableEq, Repr

/-- The profiles of R19. -/
inductive Profile where
  | impala | markhor
deriving DecidableEq, Repr

/-- Where the start-up sequence of R44 stands. -/
inductive BootPhase where
  | inReset       -- RESET_N low, or not yet risen
  | locking       -- step 1: waiting for the PLLs
  | sweeping      -- step 2: repair load and SRAM sweep
  | discovering   -- step 3: SFDP discovery (R56)
  | loading       -- step 3: an image slot is being loaded (R58)
  | stopped       -- the boot ROM has stopped (R42)
  | starting      -- step 4: Verup is starting
  | running       -- Verup has entered CONFIGURE
deriving DecidableEq, Repr

/-- The sampled straps (R43). -/
structure Straps where
  lgcySel : Bool := false
  unitId : Bool := false
  bootHold : Bool := false
  bootSlot1 : Bool := false
deriving DecidableEq, Repr

/-- The command Verup is executing: its mailbox, header fields and payload (R74: one at a time). -/
structure Command where
  mb : Fin 8
  opcode : Nat
  noIrq : Bool := false
  seq : Word
  payload : List Byte
deriving DecidableEq, Repr

/-- A mode transition in progress (R41): the mode it leads to and the cause of its `ev.mode`. -/
structure Transition where
  target : Mode
  cause : Nat
  /-- the command whose response waits for the end, if one does, and the payload it will answer. -/
  waiting : Option Command := none
  reply : List Byte := []
deriving DecidableEq, Repr

/-- The read modes of Table 3.1 that the boot ROM uses. -/
inductive ReadMode where
  | quad144 | quad114 | dual112
deriving DecidableEq, Repr

/-- The key hash of a part whose fuses are not blown: 48 zero bytes. -/
def zeroHash : List Byte := List.replicate 48 0

/-- The instructions of the test access port (R550). -/
inductive TapInstr where
  | bypass | samplePreload | idcode | extest | clamp | highz
deriving DecidableEq, Repr

/-- System registers, boot status and balls of chapters 2 and 3. -/
structure Sys where
  /-- SYS_MODE.MODE, Table 3.11; reset 0x1. -/
  mode : Mode := .boot
  /-- the committed profile, SYS_MODE.PROFILE; reset Impala. -/
  profile : Profile := .impala
  /-- the committed legacy bit, SYS_MODE.LEGACY; reset LGCY_SEL (R50). -/
  legacy : Bool := false
  /-- SYS_MODE.TRANSITION and what it leads to (R41). -/
  transition : Option Transition := none
  /-- the mode MAINTAIN came from (Table 2.3). -/
  maintFrom : Mode := .idle
  /-- the last mode other than BOOT and KEEPALIVE (R36, from the mode history). -/
  prior : Option Mode := none
  phase : BootPhase := .inReset
  straps : Straps := {}
  /-- SYS_BOOT_STATUS (Table 3.3). -/
  stage : Nat := 0
  result : Nat := 0
  slot : Nat := 0
  fallback : Bool := false
  /-- SYS_BOOT_DETAIL. -/
  bootDetail : Word := 0
  /-- the slots still to be tried by R58, the one being loaded first. -/
  candidates : List Nat := []
  firstCandidate : Nat := 0
  /-- the read mode that discovery chose (Table 3.1), and the first 256 bytes of the two slots (Table 3.2). -/
  readMode : Option ReadMode := none
  slotHead0 : List Byte := []
  slotHead1 : List Byte := []
  /-- the key hash fused at manufacture (R57), 48 bytes. -/
  keyHash : List Byte := zeroHash
  /-- SYS_VERUP_VER. -/
  verupVer : Word := 0
  /-- SYS_SCRATCH. -/
  scratch : Word := 0
  /-- SYS_TEMP.TJ and VALID; the readings at or above 115 °C in a row (Table 14.4, OVERTEMP). -/
  tj : BitVec 12 := 0
  tempValid : Bool := false
  hotReadings : Nat := 0
  /-- SYS_IRQ_STATUS and the two enables (Table 3.12). -/
  irqStatus : BitVec 15 := 0
  /-- the CTRL clock of the last status bits that a hardware event set, and those bits: a write in that clock does not clear them (R12). -/
  irqFresh : Nat × BitVec 15 := (0, 0)
  irqEnHost : BitVec 15 := 0x1C00
  irqEnMgt : BitVec 15 := 0x1C00
  /-- ball levels the part samples. -/
  resetN : Bool := false
  pwrFailN : Bool := true
  /-- SRM_STATUS (Table 3.14). -/
  sweepDone : Bool := false
  repairLoaded : Bool := false
  /-- the flush that a warm reset waits for (R47); the trigger's DETAIL (Table 17.6: 0 RESET_N, 1 `sys.reset`, 2 SYS_RESET), and the
  timebase at the trigger. -/
  resetPending : Bool := false
  resetKind : Nat := 0
  resetTb : BitVec 64 := 0
  /-- the next start follows a power-on and not a warm reset (Table 17.5, COLD_STARTS). -/
  coldStart : Bool := true
  /-- the main supplies are valid. -/
  supplies : Bool := true
  /-- the current instruction of the test access port: IDCODE in Test-Logic-Reset (R550, IEEE 1149.1). -/
  tap : TapInstr := .idcode
  /-- the fused security version (R59), 0 to 63. -/
  secVer : Nat := 0
deriving DecidableEq, Repr

/-! ## Chapter 3: window ports, mailboxes, event ring -/

/-- The mailbox states of Table 3.7. -/
inductive MbxState where
  | idle | pending | exec | done
deriving DecidableEq, Repr

/-- A mailbox: MBX_STATn, MBX_SEQn and what R72 remembers. -/
structure Mailbox where
  state : MbxState := .idle
  dbReject : Bool := false
  foreign : Bool := false
  lockedWrite : Bool := false
  timeout : Bool := false
  /-- the CTRL clock in which TIMEOUT was last set (R12); the clock at which EXEC was entered, and whether that stay in EXEC has
  passed MBX_WDOG.LIMIT (R76). -/
  timeoutAt : Option Nat := none
  execAt : Nat := 0
  stalled : Bool := false
  /-- MBX_SEQn, the last executed sequence (R72). -/
  seq : Word := 0xFFFFFFFF
  /-- whether a command has executed since IDLE was entered from BOOT, or since R51 set the sequence. -/
  executed : Bool := false
  /-- the stored response of the last executed command (R72). -/
  stored : List Byte := []
  /-- the CTRL clock, 2.5 ns, of the RING that made the command pending (R74). -/
  rungAt : Nat := 0
deriving DecidableEq, Repr

/-- The lasting operations a command can start (R69 BARRIER, R75). -/
inductive BgKind where
  | sweep | grey (p : Nat) | subst | wave (p : Nat) | codec (unit : Nat) | axisMove (a : Nat) | homing | maint | audit
  | scrub | ppr | flush | lifeExport | transition | discard | cvu (u : Nat) | reset | retrain (l : Nat) | handover
deriving DecidableEq, Repr

/-- The mailbox machinery of 3.5. -/
structure Mbx where
  box : Vector Mailbox 8 := Vector.replicate 8 {}
  /-- the mailbox areas, by window offset 0x4000 to 0x7FFF. -/
  area : Mem := []
  /-- mailboxes in PENDING, in the order their doorbells rang (R74). -/
  order : List (Fin 8) := []
  current : Option Command := none
  /-- executing commands that have passed MBX_WDOG.LIMIT: each holds its own mailbox only (R76, Table 14.5). -/
  stuck : List Command := []
  /-- MBX_PORT. -/
  port : BitVec 8 := 0x80
  /-- MBX_WDOG.LIMIT in ms. -/
  wdog : BitVec 8 := 10
  /-- MBX_FMT.VERSION is 1 (legacy format). -/
  fmt1 : Bool := false
  /-- background operations under way, each with its number, and the next number. -/
  bg : List (Nat × BgKind) := []
  bgNext : Nat := 0
deriving DecidableEq, Repr

/-- An event before it is written to the ring (Table 19.1): its payload may need continuation entries (R527). -/
structure Event where
  code : Nat
  source : Nat := 0
  flags : Nat := 0
  status : Nat := 0
  time : BitVec 64 := 0
  payload : List Byte := []
  /-- a K event of 19.5, held when the ring is full (R530). -/
  keep : Bool := false
deriving DecidableEq, Repr

/-- A 32-byte ring entry (Table 19.1). -/
structure Entry where
  code : Nat
  source : Nat
  flags : Nat
  status : Nat
  cont : Nat
  gap : Nat
  time : BitVec 64
  payload : List Byte
  /-- the clock at which it was written (R80). -/
  at_ : Nat := 0
deriving DecidableEq, Repr

/-- What R531 remembers of one rate-limited instance: the clock of the last written entry and the latest suppressed one. -/
structure LimitRec where
  code : Nat
  inst : Nat
  written : Nat
  suppressed : Option Event
deriving DecidableEq, Repr

/-- The event ring and its registers (3.6, 19.3). -/
structure Evr where
  wr : BitVec 16 := 0
  rd : BitVec 16 := 0
  /-- the entries last written, newest first, at most 1024 (entry k stands in slot k mod 1024, R77). -/
  ring : List Entry := []
  thresh : Nat := 1
  age : Nat := 0
  rdBad : Bool := false
  /-- MBX_EVR_LOST. -/
  lost : Nat := 0
  /-- entries dropped since the previous entry written (GAP). -/
  gap : Nat := 0
  /-- the hold queue of R530. -/
  held : List Event := []
  /-- an overflow episode is open, with its counts. -/
  episode : Bool := false
  /-- ev.ring_overflow of the episode has been written. -/
  overflowWritten : Bool := false
  epDropped : Nat := 0
  epHeld : Nat := 0
  epKeptLost : Nat := 0
  limits : List LimitRec := []
  /-- ev.counters groups with a change since their last report (R533). -/
  dirtyGroups : List Nat := []
deriving DecidableEq, Repr

/-- What the window ports hold (R62, R66). -/
structure Win where
  holdHost : Option Word := none
  holdSpi : Option Word := none
  /-- the word the last TIM_NOW read returned on each port (model's own record). -/
  readHost : Word := 0
  readSpi : Word := 0
  spiLastErr : Bool := false
deriving DecidableEq, Repr

/-! ## Chapter 14: fault records -/

/-- The four levels of R22. -/
inductive Level where
  | cell | block | region | chip
deriving DecidableEq, Repr

/-- The fault classes of Table 14.4. -/
inductive FClass where
  | blockStop | laneFail | linkDown | decEcc | decLogic | decCheck | codQueueEcc | sliceAbort | codecCapacity
  | drcTrain | drcCrc | drcParity | drcPpr
  | underrun | dutyLimit | pairMismatch | sweEcc | wavEcc | headFault | headLost | shiftLate | lineCheck
  | overspeed | startLate | paceSource | audEcc
  | fbkIllegal | axisFollow | axisDrive | driveSilent | homeFail
  | ownReadback | barContention | leaseExpired | xcheckMismatch | twinLinkDown
  | coreWdog | mbxStall | ctlEcc | lifFail
  | overtemp | powerFail | hostRegister | hostCommand
deriving DecidableEq, Repr

/-- A level instance: its level, its number of Table 14.1 and, for a cell, its index within the block (0xFFFF for none). -/
structure Inst where
  level : Level
  source : Nat
  cell : Nat := 0xFFFF
deriving DecidableEq, Repr

/-- An overrun-list entry (Table 14.2). -/
structure Overrun where
  cls : FClass
  source : Nat
  cell : Nat
  time : Word
deriving DecidableEq, Repr

/-- The fault record of one instance (R398) with what R402, R408 and R416 ask of it. -/
structure FaultRec where
  inst : Inst
  latch : Option FClass := none
  source : Nat := 0
  repeatN : Nat := 0
  overruns : List Overrun := []
  olost : Nat := 0
  /-- sources that have reported the latched class (R402). -/
  seen : List Nat := []
  /-- the latched class was passed to the chip (R416). -/
  toChip : Bool := false
  /-- the action taken included a discard (R408, ACK). -/
  discards : Bool := false
  /-- the action taken removed the fire permit until release (Table 14.3, Net region). -/
  permit : Bool := false
deriving DecidableEq, Repr

/-- A release that R420 may match: the class, the SOURCE and the clock. -/
structure Released where
  cls : FClass
  source : Nat
  at_ : Nat
deriving DecidableEq, Repr

/-- A discard of work in flight (R411, R412). -/
structure Discard where
  byCommand : Bool
  cause : Nat
  joined : Nat := 0
  first : Nat := 0xFFFFFFFF
  slices : Nat := 0
  actions : Nat := 0
deriving DecidableEq, Repr

/-- What the faults of the line path name besides their source: DUTY_LIMIT its head, nozzle, pass and firing line (R185); LINE_CHECK and SHIFT_LATE
their port and LINE_ID (R231, R235); OVERSPEED and START_LATE their port, line and lag in ns (R299); DRC_CRC the line's address (Table 13.7). -/
structure Named where
  cls : FClass
  port : Nat := 0
  line : Nat := 0
  nozzle : Nat := 0
  pass : Nat := 0
  lag : Nat := 0
  addr : Nat := 0
deriving DecidableEq, Repr

/-- The fault manager. -/
structure Faults where
  /-- records of the instances that have one; an instance not listed has an empty record. -/
  recs : List FaultRec := []
  /-- blocks stopped under R405. -/
  stopped : List Nat := []
  released : List Released := []
  discard : Option Discard := none
  /-- what the last fault of the line path named (assumption log 50). -/
  named : Option Named := none
deriving DecidableEq, Repr

/-! ## Chapter 4: the host link and the twin link -/

/-- What a physical lane is doing (R87, R100, R117, R119, R124). -/
inductive LaneUse where
  | off | failed | unused | active | standby | spareBad | test
deriving DecidableEq, Repr

/-- The checker of a pattern (R122): its shift register, the newest bit at place 0; the matching bits in a row while it seeds itself; bits compared,
48 bits, and bit errors, 32 bits, both saturating. -/
structure Checker where
  reg : BitVec 31 := 0
  run : Nat := 0
  locked : Bool := false
  bits : Nat := 0
  errors : Nat := 0
deriving DecidableEq, Repr

/-- A pattern test, loopback or margining on a lane (R122 to R125). -/
structure LaneTest where
  pattern : Nat := 0
  framed : Bool := false
  running : Bool := false
  loopNear : Bool := false
  loopFar : Bool := false
  /-- the generator's shift register, and the bits it has sent since the test began. -/
  gen : BitVec 31 := 0
  sent : Nat := 0
  /-- a framed pattern as sent: the place of the next block in the interval of R96 (0 ALIGN, 1 SKIP, then the data blocks), the bits of a block under
  way not yet sent, the scrambler, and LANE_CHECK of the data blocks since the ALIGN. -/
  txPos : Nat := 0
  txBits : List Bool := []
  txScram : BitVec 23 := 0
  txCheck : BitVec 16 := 0xFFFF
  /-- a framed pattern as received: the bits of a block not yet whole, whether an ALIGN has come, the scrambler, and LANE_CHECK since that ALIGN. -/
  rxBits : List Bool := []
  rxSeen : Bool := false
  rxScram : BitVec 23 := 0
  rxCheck : BitVec 16 := 0xFFFF
  /-- the next bit is inverted; one bit in every 2^k is (R123). -/
  injectOne : Bool := false
  injectRate : Option Nat := none
  chk : Checker := {}
  /-- margining, and its point in 1/64 UI and threshold steps. -/
  margin : Bool := false
  phase : Int := 0
  thresh : Int := 0
deriving DecidableEq, Repr

/-- A physical lane of a link. -/
structure Lane where
  use : LaneUse := .off
  /-- logical lane carried (Table 4.4): 0xF on the spare, 0xE unassigned. -/
  logical : Nat := 0xE
  /-- block lock, and polarity inverted (Table 4.6, LOCK). -/
  lock : Bool := false
  inverted : Bool := false
  /-- consecutive TRAIN1 then TRAIN2 blocks received (Table 4.6). -/
  train1 : Nat := 0
  train2 : Nat := 0
  /-- the lane passed in the partner's receive direction (LANE_STATE [4], R100). -/
  peerPassed : Bool := false
  /-- ALIGN blocks received since LOCK ended; an invalid block or a LANE_CHECK mismatch since verification began, and the clock at which it began. -/
  aligns : Nat := 0
  dirty : Bool := false
  verifyAt : Nat := 0
  /-- the partner's LINK_ID differs (R101). -/
  wrongId : Bool := false
  /-- transmitter coefficients a and b in use (R90). -/
  txA : Nat := 4
  txB : Nat := 4
  reject : Bool := false
  /-- trials of partner coefficients made at this rate, and the preset the part asks of the partner (Tables 4.5 and 4.6, R91). -/
  trials : Nat := 0
  asked : Nat := 7
  /-- the TRAIN2 blocks that follow the first one received in LOCK have been sent (Table 4.6). -/
  answered : Bool := false
  /-- a standby spare that became unusable until the next bring-up (R117). -/
  unusable : Bool := false
  /-- the receiver's equaliser peaking, frozen when EQUALISE ends, in dB, and whether its feedback taps are in use (R92). -/
  peaking : Nat := 0
  dfe : Bool := true
  /-- the receive scrambler (R94). -/
  scram : BitVec 23 := 0
  /-- PRBS31 on the standby spare: the sender's register and the checker, and the errors of the last second with their clocks (R117). -/
  gen : BitVec 31 := 0x7FFFFFFF
  chk : Checker := {}
  spareErrs : List (Nat × Nat) := []
  /-- an ALIGN has been received since bring-up or retrain, so the next is checked (R97). -/
  alignSeen : Bool := false
  /-- interval errors of the present 1 ms window, and the clock at which it began (R118). -/
  intervalErr : Nat := 0
  windowAt : Nat := 0
  /-- invalid blocks counted (R95). -/
  invalid : Nat := 0
  test : LaneTest := {}
deriving DecidableEq, Repr

/-- Where a link stands: the stages of Table 4.6, the wait of R103, up, and recovery retrain (R104). -/
inductive LinkStage where
  | down | detect | lock | align | equalise | active | up | wait | retrain
deriving DecidableEq, Repr

/-- The spare-lane handshake of R119. -/
structure SpareSwitch where
  lane : Nat
  /-- 0 this part asked, 1 the partner, 2 `link.spare` (ev.lane_spare BY). -/
  byWhom : Nat
  sentSwitch : Bool := false
  gotSwitch : Bool := false
deriving DecidableEq, Repr

/-- A transaction frame the part has to send: completion or interrupt message (Table 4.7). -/
structure TxMsg where
  ftype : Nat
  vc : Nat
  tag : Nat := 0
  /-- completion code for CPLR and CPLM. -/
  code : Nat := 0
  data : List Byte := []
deriving DecidableEq, Repr

/-- Credit counts of one virtual channel: what this part may send, and what it has advertised and received (R110, R111). -/
structure Vc where
  txHdrLimit : BitVec 8 := 0
  txDataLimit : BitVec 16 := 0
  txHdrUsed : BitVec 8 := 0
  txDataUsed : BitVec 16 := 0
  rxHdrLimit : BitVec 8 := 0
  rxDataLimit : BitVec 16 := 0
  rxHdrUsed : BitVec 8 := 0
  rxDataUsed : BitVec 16 := 0
  /-- a CREDIT frame has been received since ACTIVE began. -/
  gotCredit : Bool := false
deriving DecidableEq, Repr

/-- A link: bring-up, lanes, frames, replay, credits, counters. -/
structure Link where
  stage : LinkStage := .down
  linkUp : Bool := false
  width : Nat := 0
  rate : Nat := 0
  /-- the rate EQUALISE is trying, and the rates the partner advertises. -/
  target : Nat := 0
  peerRates : Nat := 0
  peerMinW : Nat := 0
  /-- link-start attempts, and failures since reset or since the link was last up (R103). -/
  attempts : Nat := 0
  failures : Nat := 0
  lanes : Vector Lane 9 := Vector.replicate 9 {}
  /-- HLNK_STATUS.SPARE_FOR (Table 3.14). -/
  spareFor : Nat := 0xF
  spare : Option SpareSwitch := none
  /-- link frames and a replay that fell due during a spare switch, to be sent after SWITCH (R119). -/
  ackDue : Bool := false
  nakDue : Bool := false
  creditDue : Bool := false
  replayDue : Bool := false
  /-- frames sent since the last ALIGN, oldest first, after the rest of the frame that was under way then (R96, R107). -/
  txRest : List Byte := []
  txFrames : List (List Byte) := []
  /-- after a framing error, data is discarded up to the next ALIGN set; the lanes whose ALIGN of that set has come (R107). -/
  rxDiscard : Bool := false
  rxAligned : Nat := 0
  /-- payloads of accepted twin-link frames not yet acted on: TMB messages with the TB of their arrival, MIRROR records, LEASE messages (R435, R475). -/
  rxTmb : List (Nat × List Byte) := []
  rxMirror : List (List Byte) := []
  rxLease : List (List Byte) := []
  /-- trigger of a recovery retrain in progress (STATUS of ev.link_retrain). -/
  retrainCause : Nat := 0
  /-- the ALIGN count of the transmitters (Table 4.4), the clock at which the present interval of data blocks began, and that at which the transmitter
  changed to the spare in it (R96, R119). -/
  alignCount : BitVec 8 := 0
  alignAt : Nat := 0
  txSwitchAt : Option Nat := none
  /-- SEQ32 of the next frame sent; frames sent and not yet acknowledged, oldest first (R114, R115). -/
  txSeq : Nat := 0
  unacked : List (Nat × TxMsg) := []
  /-- replays started in a row without ACK progress. -/
  replaysInRow : Nat := 0
  /-- E of R114, and whether a NAK is outstanding. -/
  expect : Nat := 0
  nakOut : Bool := false
  vc : Vector Vc 3 := Vector.replicate 3 {}
  /-- completions and interrupt messages held for credit (R112). -/
  held : List TxMsg := []
  /-- transaction frames still to be sent with a corrupted CRC (R123). -/
  corrupt : Nat := 0
  /-- settings of link.config, and those in force since the last bring-up or retrain (R92). -/
  params : ParamSet := []
  inForce : ParamSet := []
  /-- counters of Table 19.10. -/
  retrains : Nat := 0
  resets : Nat := 0
  replays : Nat := 0
  linkCrc : Nat := 0
  accessDiscard : Nat := 0
  nakSent : Nat := 0
  nakReceived : Nat := 0
deriving DecidableEq, Repr

/-! ## Chapters 1 and 18: the configuration -/

/-- One configuration image (R512): the parameter sets of `cfg.bar`, `cfg.head`, `wave.config`, `axis.config`, `twin.config`
and `mem.config`. -/
structure CfgImage where
  bar : ParamSet := []
  heads : Vector ParamSet 16 := Vector.replicate 16 []
  waves : Vector ParamSet 16 := Vector.replicate 16 []
  axes : Vector ParamSet 8 := Vector.replicate 8 []
  twin : ParamSet := []
  mem : ParamSet := []
deriving DecidableEq, Repr

/-- The image being edited in CONFIGURE, the committed one, and its CONFIG_CV (R424). -/
structure Cfg where
  staged : CfgImage := {}
  live : CfgImage := {}
  cv : Word := 0
deriving DecidableEq, Repr

/-! ## Chapter 5: slices and the codec -/

/-- A stream of a posted slice (Table 5.2), with its progress. -/
structure Strm where
  head : Nat
  raw : Bool
  firstNoz : Nat
  nozzles : Nat
  offset : Nat
  compLen : Nat
  decLen : Nat
  decCv : Nat
  compCv : Nat
  /-- the decoder it is assigned to. -/
  dec : Option Nat := none
  /-- it has been taken up at least once on its present decoder. -/
  begun : Bool := false
  /-- bytes written to staging, and bytes produced on the present decoder, skipped ones included (R146). -/
  written : Nat := 0
  produced : Nat := 0
  /-- compressed bytes fetched without an error, and the cause (Table 5.6) of the first bad one, once it has been met (R144). -/
  good : Nat := 0
  bad : Nat := 0
  /-- those bytes, as their reads gave them (R138, R384). -/
  input : List Byte := []
  /-- compressed bytes decoded, which leave the input buffer; the stream waits for input from the DRAM (R138, R141). -/
  used : Nat := 0
  waits : Bool := false
  /-- tables built on the present decoder; it waits for a build (R142). -/
  built : Nat := 0
  building : Bool := false
  ended : Bool := false
deriving DecidableEq, Repr

/-- A posted slice (Table 5.1). -/
structure Slice where
  addr : Nat
  len : Nat
  flags : Nat
  bits : Nat
  job : Nat
  no : Nat
  first : Nat
  lines : Nat
  hdrCv : Nat
  streams : List Strm
  isOpen : Bool := false
  /-- a stream has failed, so that the decoders have stopped on it (R144). -/
  aborted : Bool := false
deriving DecidableEq, Repr

/-- What a decoder is (R138, R147, R148). -/
inductive DecUse where
  | inService | standby | out
deriving DecidableEq, Repr

/-- A decoder: its use, and the stream it works on, as (SLICE_NO, stream index). -/
structure Decoder where
  use : DecUse := .inService
  work : Option (Nat × Nat) := none
  /-- the built-in test runs, for R145 (true) or for R148. -/
  testing : Bool := false
deriving DecidableEq, Repr

/-- Decoded bytes of a strip in swath staging (R168, R169): line k of the run stands at k × NOZZLES × BITS / 8. -/
structure StageRun where
  sliceNo : Nat
  stream : Nat
  head : Nat
  firstNoz : Nat
  nozzles : Nat
  bits : Nat
  firstLine : Nat
  lines : Nat
  data : List Byte
  /-- counted as staged for the swath engine: in Markhor only after every stream of the slice has passed (R140). -/
  released : Bool
deriving DecidableEq, Repr

/-- A canonical Huffman code: how many codes each length from 1 on has, and the symbols in code order. -/
structure Huff where
  counts : List Nat
  syms : List Nat
deriving DecidableEq, Repr

/-- Where the inflater stands: before a block's three bits, before LEN of a stored block, in its bytes, before the counts of a dynamic header,
in its code-length code lengths or its code lengths, before a symbol, in a match, or past the final block. -/
inductive IPhase where
  | hdr | storedLen | stored (left : Nat) | counts | clens (hlit hdist n : Nat) (got : List Nat) | lens (hlit hdist : Nat) (cl : Huff) (got : List Nat)
  | block (lit dist : Huff) | copy (left dist : Nat) (lit dist_ : Huff) | done
deriving DecidableEq, Repr

/-- The inflater: bits not yet taken, bits taken, the bytes made (newest first), its phase, BFINAL and BTYPE of the block, dynamic tables built,
the block types met as a mask, and the largest distance used. -/
structure Inf where
  bits : List Bool := []
  pos : Nat := 0
  out : List Byte := []
  made : Nat := 0
  phase : IPhase := .hdr
  final : Bool := false
  btype : Nat := 0
  dyn : Nat := 0
  types : Nat := 0
  far : Nat := 0
deriving DecidableEq, Repr

/-- What a saved context stands for (R150): the inflater, or the compressor's input and output since START with its pending bits and the settings of
Table 5.8 it began with (R157); and the running CRC-32C register of Table 5.7. -/
structure CodecSave where
  inf : Inf := {}
  ins : List Byte := []
  outs : List Byte := []
  pend : List Bool := []
  /-- the whole code that its output space could not hold (R154). -/
  next : List Bool := []
  level : Nat := 2
  depth : Nat := 16
  lazy_ : Nat := 1
  nice : Nat := 128
  window : Nat := 32
  blockSyms : Nat := 16384
  run : Word := 0xFFFFFFFF
deriving DecidableEq, Repr

/-- Who a memory-to-memory request serves: `codec.inflate` and `codec.deflate`, the audit's result (R330), a life export (R497). -/
inductive CodecOwner where
  | host | audit | lifeExport
deriving DecidableEq, Repr

/-- A memory-to-memory request (5.8). -/
structure CodecReq where
  owner : CodecOwner := .host
  unit : Nat
  deflate : Bool
  ctx : Nat
  inAddr : Nat
  inLen : Nat
  outAddr : Nat
  outCap : Nat
  limit : Nat
  entry : Nat
  start : Bool
  final : Bool
  tag : Nat
  /-- what the request goes on from. -/
  save : CodecSave := {}
deriving DecidableEq, Repr

/-- The decoder group, the slice queue, staging and the compressors. -/
structure Codec where
  posted : List Slice := []
  /-- R134: what the next slice shall carry; `anyNo` and `needStart` after `job.open` or a discard. -/
  nextNo : Nat := 0
  nextLine : Nat := 0
  anyNo : Bool := false
  /-- after a CLAIM takeover the first slice may begin at or above PAC_LINE (R447). -/
  anyLine : Bool := false
  needStart : Bool := true
  /-- the slice accepted last had SWATH_END set (R135). -/
  prevEnd : Bool := false
  lastAccepted : Bool := false
  lastReleased : Nat := 0xFFFFFFFF
  decoders : Vector Decoder 9 := Vector.replicate 9 { use := .out }
  staging : List StageRun := []
  requests : List CodecReq := []
  /-- what the contexts this part has written stand for, by their CTX_CV, the latest first (model's own record, assumption log 29). -/
  saves : List (Nat × CodecSave) := []
  /-- `codec.config` (Table 5.8). -/
  params : ParamSet := []
  hostCheck : Nat := 0
  restarted : Nat := 0
  released : Nat := 0
  discarded : Nat := 0
deriving DecidableEq, Repr

/-! ## Chapter 6: tables and the swath engine -/

/-- The states of a shadow table (Table 6.7). -/
inductive Shadow where
  | empty | building | ready | failed
deriving DecidableEq, Repr

/-- A requested swap: REQUIRED and LINK (R188). -/
structure SwapReq where
  required : Bool
  link : Bool
deriving DecidableEq, Repr

/-- A greyscale map (Table 6.5). -/
structure GreyMap where
  codes : List Nat
  energy : List Nat
  cv : Nat
deriving DecidableEq, Repr

/-- A port's greyscale pair. -/
structure GreyPair where
  active : Option GreyMap := none
  shadow : Shadow := .empty
  /-- the table built, and the DRAM address being read. -/
  built : Option GreyMap := none
  addr : Nat := 0
  pending : Option SwapReq := none
  /-- which of the two copies in the table stores is active. -/
  side : Nat := 0
deriving DecidableEq, Repr

/-- A substitution map: the codes of each port's nozzles (an empty list is all NORMAL) and its CV. -/
structure SubstMap where
  codes : Vector (List Nat) 16 := Vector.replicate 16 []
  cv : Nat := 0
deriving DecidableEq, Repr

/-- The substitution pair of the bar. -/
structure SubstPair where
  active : SubstMap := {}
  shadow : Shadow := .empty
  built : Option SubstMap := none
  /-- image addresses of the load under way, by port. -/
  addrs : List Nat := []
  byAudit : Bool := false
  pending : Option SwapReq := none
  /-- maps that ports still prepare lines with, oldest first, each with the job line below which it is used (R189). -/
  olds : List (SubstMap × Nat) := []
  /-- which of the two copies in the table stores is active. -/
  side : Nat := 0
deriving DecidableEq, Repr

/-- A row of levels waiting in the delay lines: job line i of the swath on a port, after step A4 (R173). -/
structure HeldLine where
  port : Nat
  line : Nat
  levels : List Nat
deriving DecidableEq, Repr

/-- A head line (step B5): the codes of each row, the identity and the check value. -/
structure HeadLine where
  f : Nat
  lineId : Nat
  rows : List (List Nat)
  hlcv : Word
  first : Bool
  last : Bool
  /-- the SKIP count of the token that prepared it. -/
  skip : Nat := 0
  /-- the waveform bank its cycle plays: the one active when it was prepared (R189, R205). -/
  bank : Nat := 0
deriving DecidableEq, Repr

/-- A swath of the open job as its accepted slices give it: its first job line, its length once SWATH_END is accepted, and the
flags LAYER_END and LAST of its last slice. -/
structure SwathPlan where
  first : Nat
  ls : Option Nat := none
  layerEnd : Bool := false
  last : Bool := false
deriving DecidableEq, Repr

/-- What kind of swath runs. -/
inductive SwathKind where
  | job | maint | audit
deriving DecidableEq, Repr

/-- Per-port state of the swath engine and of the port's line path (chapters 6 and 8). -/
structure PortLine where
  /-- the next firing line to be prepared. -/
  prep : Nat := 0
  /-- the next job line step A1 reads on this head. -/
  readLine : Nat := 0
  /-- the head line complete in the port and not yet shifted; the one being shifted, with its start; the one in the head's
  shift register, with the clock at which its shift ended; the one in the fire register. -/
  ready : Option HeadLine := none
  shifting : Option (HeadLine × Nat) := none
  shifted : Option (HeadLine × Nat) := none
  /-- the frame being shifted is never latched: the mode has left the firing ones, or the swath has ended, since it began (R37, R239). -/
  dead : Bool := false
  latched : Option HeadLine := none
  /-- the clock at which the last latch fell. -/
  latchFall : Nat := 0
  /-- firing lines of the swath that count as fired. -/
  fired : Nat := 0
  /-- LINE_ID of the last prepared line (f_job of R184). -/
  fJob : Nat := 0
  /-- the guard history: the fires and the energy of the earlier lines, newest first (R184). -/
  hist : List (List Bool × Nat) := []
  clipReported : Bool := false
  /-- marks F of R175 by row, being recorded and in force. -/
  rowFired : Vector (Option Nat) 8 := Vector.replicate 8 none
  marks : Vector (Option Nat) 8 := Vector.replicate 8 none
  /-- counters of Table 19.10. -/
  subst : Nat := 0
  lost : Nat := 0
  clipNozzle : Nat := 0
  clipEnergy : Nat := 0
deriving DecidableEq, Repr

/-- The swath engine. -/
structure Swath where
  active : Bool := false
  kind : SwathKind := .job
  no : Nat := 0
  /-- the swath's first job line, its length in job lines once known, and whether it ends a layer. -/
  first : Nat := 0
  ls : Option Nat := none
  layerEnd : Bool := false
  last : Bool := false
  /-- swaths of the job that have accepted slices, oldest first; the running one is the first. -/
  plans : List SwathPlan := []
  dBar : Nat := 0
  /-- every head line not yet fired is withheld (R172, R192). -/
  withheld : Bool := false
  /-- a discard has happened since the last swath began, so that the next is a restart (R175). -/
  marksPending : Bool := false
  marksInForce : Bool := false
  lateReported : Bool := false
  held : List HeldLine := []
  line : Vector PortLine 16 := Vector.replicate 16 {}
  grey : Vector GreyPair 16 := Vector.replicate 16 {}
  subst : SubstPair := {}
  /-- stitch patterns read at commit: V words for each port (R176). -/
  patterns : Vector (List Nat) 16 := Vector.replicate 16 []
deriving DecidableEq, Repr

/-! ## Chapter 7: waveform engines -/

/-- A built waveform bank (R199). -/
structure Bank where
  length : Nat
  rest : Nat
  maxStep : Nat
  nwin : Nat
  wins : List (Nat × Nat)
  masks : List Nat
  samples : List Nat
  g : Nat
  rankScale : Nat
  cv : Nat
  /-- it has shown an uncorrectable error and is never played again (R218). -/
  bad : Bool := false
  /-- it was built before the last error of the port's bank store (Table 14.4, WAV_ECC). -/
  old : Bool := false
deriving DecidableEq, Repr

/-- A fire cycle in progress (R195, R196). -/
structure Cycle where
  line : HeadLine
  bank : Nat
  /-- the clock of sample 0. -/
  startAt : Nat
  /-- windows opened (a mask), the next window to open, and the one open now. -/
  opened : Nat := 0
  next : Nat := 0
  open_ : Option Nat := none
  /-- no later window opens and no latch is issued (R239, R218). -/
  cut : Bool := false
  latched : Bool := false
  counted : Bool := false
deriving DecidableEq, Repr

/-- A rest-level move (R210). -/
structure RestMove where
  origin : Nat
  target : Nat
  /-- the equal steps of the move, those made, and whether levels between are rounded up. -/
  steps : Nat
  made : Nat := 0
  up : Bool := false
  started : Bool := false
deriving DecidableEq, Repr

/-- A cycle whose samples the stream sends: the clock of sample 0, the bank, and the first sample read with an uncorrectable error
(R218). -/
structure Played where
  startAt : Nat
  bank : Nat
  err : Option Nat := none
  /-- the line back to REST is rounded up (free). -/
  errUp : Bool := false
deriving DecidableEq, Repr

/-- A waveform engine. -/
structure WavePort where
  banks : Vector (Option Bank) 2 := Vector.replicate 2 none
  active : Nat := 0
  shadow : Shadow := .empty
  addr : Nat := 0
  trim : Nat := 0
  /-- a swap requested, with REQUIRED (R204). -/
  pending : Option Bool := none
  /-- the firing line whose token has come and whose cycle has not started. -/
  token : Option HeadLine := none
  /-- the cycles whose windows have not all closed, oldest first. -/
  cycles : List Cycle := []
  /-- the last two cycles started, newest first, for the samples still to be sent. -/
  played : List Played := []
  /-- TYPE, BANK and REST as they stood at the start of the frame being sent (Table 7.4). -/
  frType : Nat := 0
  frBank : Nat := 0
  frRest : Nat := 0
  /-- the stream: on, ending with the frame being sent (R215), its FRAME_NO, frames sent since it started, DRIVE frames sent in a row, whether the
  lead of R215 has been sent since the job or sequence began, its level and a move (R210). -/
  on : Bool := false
  ending : Bool := false
  frameNo : BitVec 16 := 0
  lead : Nat := 0
  drive : Nat := 0
  led : Bool := false
  level : Nat := 0
  move : Option RestMove := none
  /-- `wave.test`: the pattern asked for (0 off) and its constant, whether no frame of it has begun yet, and the pattern, the constant and the
  generator of the TEST frame being sent (R214). -/
  test : Nat := 0
  testValue : Nat := 0
  testNew : Bool := false
  frTest : Nat := 0
  frValue : Nat := 0
  prbs : BitVec 15 := 0x7FFF
  /-- `ev.wave_stale` has been raised and the condition still holds (Table 19.3). -/
  stale : Bool := false
deriving DecidableEq, Repr

/-! ## Chapter 8: head ports -/

/-- What the part keeps of a head record (Tables 8.8 and 8.9). -/
structure HeadRecord where
  serial : Nat
  typeId : Nat
  nozzles : Nat
  rows : Nat
  order : Nat
  framing : Nat
  minDiv : Nat
  rankScale : Nat
  minPeriod : Nat
deriving DecidableEq, Repr

/-- A head port. -/
structure Head where
  /-- HPT_PRESENT after filtering (R249). -/
  present : Bool := false
  fault : Bool := false
  /-- a read of the record is under way. -/
  reading : Bool := false
  /-- the record last read breaks the geometry that the engine serves (R164). -/
  geomBad : Bool := false
  /-- the record now read, when valid; and the one committed (R577). -/
  record : Option HeadRecord := none
  committed : Option HeadRecord := none
  /-- the mismatch state of R251. -/
  mismatch : Bool := false
  serial : Nat := 0
  /-- current usage copy (R246): whether the present head's usage block has been read, whether a copy is valid, its SEQ and counts; fires and firing time since. -/
  usageRead : Bool := false
  usageOk : Bool := false
  usageCopy : Nat := 0
  usageSeq : Nat := 0
  usageFires : Nat := 0
  usageMin : Nat := 0
  fires : Nat := 0
  firingTicks : Nat := 0
  /-- what stood in `firingTicks` after the last write, from which 15 minutes of firing count (R246). -/
  usageRest : Nat := 0
  /-- T_port raised by a head taken in under R251 since the last commit, in ns (R297). -/
  tPort : Nat := 0
deriving DecidableEq, Repr

/-- The bar-ownership pair (8.9) and the terms of the fire permit that are latched there. -/
structure Bar where
  /-- BAR_PEER as sampled, and the clock of its last change. -/
  peer : Bool := false
  peerSince : Nat := 0
  /-- BAR_OWN as it stood at the last clock, and since when (R255). -/
  own : Bool := false
  ownSince : Nat := 0
  contention : Bool := false
  /-- the clock at which the last contention was found: BAR_PEER must have fallen since for another (R255). -/
  contAt : Nat := 0
  /-- OWN_READBACK has removed the permit until `fault.clear` (R254). -/
  readbackCut : Bool := false
  /-- a `cfg.commit` has been made since reset (R253, R430). -/
  committed : Bool := false
deriving DecidableEq, Repr

/-! ## Chapter 9: feedback -/

/-- A window report (Table 9.5). -/
structure WinReport where
  net : Int := 0
  counts : Nat := 0
  illWin : Nat := 0
  seq : Nat := 0
  standstill : Bool := false
  settling : Bool := false
  reversed : Bool := false
deriving DecidableEq, Repr

/-- The filter of one feedback input (R262): the last sampled level, and the samples it has held. -/
structure InFilter where
  sample : Bool := false
  run : Nat := 0
deriving DecidableEq, Repr

/-- A feedback channel. -/
structure Fbk where
  params : ParamSet := []
  /-- the filters of FB_A, FB_B and FB_C (R262). -/
  fa : InFilter := {}
  fb : InFilter := {}
  fc : InFilter := {}
  /-- the filtered levels. -/
  a : Bool := false
  b : Bool := false
  c : Bool := false
  pos : BitVec 48 := 0
  /-- HALL: the last legal sector, and whether the previous evaluation was 0b000 or 0b111. -/
  sector : Option Nat := none
  badBefore : Bool := false
  illegal : Nat := 0
  glitch : Nat := 0
  chFault : Bool := false
  /-- capture (R274): armed with (falling, every). -/
  capt : Option (Bool × Bool) := none
  captPos : BitVec 48 := 0
  captSeq : Nat := 0
  /-- the window in progress, and the clock at which it began (R275). -/
  winAt : Nat := 0
  net : Int := 0
  counts : Nat := 0
  illWin : Nat := 0
  winSeq : Nat := 0
  hadReversal : Bool := false
  /-- a window has reported since the settings took effect (R277). -/
  reported : Bool := false
  /-- the sign of the most recent count (R278), whether a count has been made since the settings, and whether the window holds
  the first such count (R277). -/
  lastSign : Int := 0
  counted : Bool := false
  firstHere : Bool := false
  report : WinReport := {}
  /-- an illegal transition has been seen since the settings took effect (R279), and ILLEGAL in the last event that the ring or its queue took. -/
  illSeen : Bool := false
  illAtEvent : Nat := 0
deriving DecidableEq, Repr

/-- A divided output (R282 to R285). -/
structure Fbo where
  params : ParamSet := []
  acc : Int := 0
  o : Int := 0
  backlog : Int := 0
  a : Bool := false
  b : Bool := false
  /-- the clock of the last step, and of the last disable. -/
  stepAt : Nat := 0
  disabledAt : Nat := 0
  lost : Nat := 0
  dropped : Bool := false
  /-- enabled by the part for the audit (R313), or waiting to be. -/
  byAudit : Bool := false
deriving DecidableEq, Repr

/-! ## Chapter 10: jobs and print pacing -/

/-- The open job (R514), its counters and its committed line count. -/
structure Job where
  isOpen : Bool := false
  started : Bool := false
  id : Nat := 0
  /-- the JOB last opened since reset (R514). -/
  lastId : Nat := 0
  fMax : Nat := 0
  axes : Nat := 0
  inspect : Bool := false
  trigOut : Nat := 0
  camDist : Nat := 0
  /-- the pacing parameters (Table 10.2). -/
  params : ParamSet := []
  /-- PAC_LINE (R174). -/
  pacLine : Word := 0
  late : Nat := 0
  maxLag : Nat := 0
  skipped : Nat := 0
  reversals : Nat := 0
deriving DecidableEq, Repr

/-- Pacing state of one port. -/
structure PacePort where
  /-- the next firing line to be issued, the clock of the last token, and the clock at which the line fell due. -/
  next : Nat := 0
  lastAt : Option Nat := none
  dueAt : Option Nat := none
  /-- lines skipped while it waits (R300). -/
  skip : Nat := 0
deriving DecidableEq, Repr

/-- The source of the tokens at the moment (Table 10.1). -/
inductive PaceSource where
  | none_ | channel | timer | sched
deriving DecidableEq, Repr

/-- Print pacing. -/
structure Pace where
  source : PaceSource := .none_
  /-- parameters of the pass, when the source is an audit's (Table 11.4), else the job's are used. -/
  params : ParamSet := []
  armed : Bool := false
  /-- the origin of the armed swath in sub-counts, and its direction. -/
  origin : Int := 0
  dirRev : Bool := false
  /-- the position has been seen since arming, U (R294), and the reversed state (R295). -/
  hi : Int := 0
  u : Int := 0
  reversed : Bool := false
  revAt : Nat := 0
  /-- the first swath of the job has been armed; origin and firing lines of the previous swath (Table 10.3). -/
  begun : Bool := false
  prevOrigin : Int := 0
  prevLines : Nat := 0
  /-- `pace.origin` entries (R290) and the entry owed after a discard (R304). -/
  queue : List (Int × Bool) := []
  owed : Bool := false
  /-- CAPTURE: waiting for the next capture. -/
  waitCapture : Bool := false
  /-- tokens are stopped by `job.hold` (R303), since this clock. -/
  held : Bool := false
  heldAt : Nat := 0
  /-- the SWATH_NO that the armed swath has or will have. -/
  armedNo : Nat := 0
  port : Vector PacePort 16 := Vector.replicate 16 {}
  gateHeld : Bool := false
  gateDone : Bool := false
  /-- all ports have issued their last token of the swath. -/
  ended : Bool := false
  /-- MAINTAIN: PORTS, POLICY, PERIOD, LINES, LEVEL, STRIDE (R517), lines fallen due, and `maint.stop` (R517). -/
  mPorts : Nat := 0
  mSkip : Bool := false
  mPeriod : Nat := 0
  /-- t₀ of Table 10.1, the clock at which line 0 could first be issued. -/
  mT0 : Option Nat := none
  mLines : Nat := 0
  mLevel : Nat := 0
  mStride : Nat := 1
  mDue : Nat := 0
  mStop : Bool := false
  mSkipReported : Bool := false
deriving DecidableEq, Repr

/-! ## Chapter 11: nozzle audit -/

/-- The result of a pass that has ended, while it is being written: the status of `ev.audit_done`, PARTIAL, TIMESTAMP and LINES of its
header (Table 11.6), the head entries, the heads that have one, the raw body (R329), and the edits of R323 as (port × 8192 + nozzle, code). -/
structure AuditResult where
  status : Nat
  incomplete : Bool
  stamp : Nat
  lines : Nat
  entries : List Byte
  heads : List Nat
  raw : List Byte
  edits : List (Nat × Nat)
deriving DecidableEq, Repr

/-- A running audit pass. -/
structure AuditPass where
  params : ParamSet
  /-- the clock of the last token, once all are issued (R326). -/
  lastToken : Option Nat := none
  /-- accepted frames as (medium line, pixels), newest first. -/
  frames : List (Nat × List Byte) := []
  framesLost : Nat := 0
  /-- the axis that the pass's gate holds (R302). -/
  gateAxis : Option Nat := none
  /-- the pass has ended, and its body is being compressed or waits for a compressor since this clock (R330). -/
  result : Option AuditResult := none
  waiting : Option Nat := none
deriving DecidableEq, Repr

/-- An in-line window (R331): its first job line and length, E by pixel column, S of every column, the clock at which its last line was committed,
and whether it has closed and waits to be judged. -/
structure InlineWin where
  first : Nat
  len : Nat
  fires : SMap Nat := []
  dark : List Nat := []
  lastCommit : Option Nat := none
  closed : Bool := false
deriving DecidableEq, Repr

/-- The audit block. -/
structure Audit where
  params : ParamSet := []
  /-- AUD_STATUS.LANE_UP. -/
  laneUp : Nat := 0
  /-- camera bring-up has been started by `audit.config`; it waits 1 ms after a loss, since this clock (R309). -/
  configured : Bool := false
  lostAt : Option Nat := none
  /-- the two camera lanes (R308, R309); after a framing error, data is discarded up to the next ALIGN set (R312). -/
  lanes : Vector Lane 2 := Vector.replicate 2 {}
  rxDiscard : Bool := false
  rxAligned : Nat := 0
  trigLast : BitVec 32 := 0
  /-- O₀ of R314 with the first job line of its swath, the newest first, and those of the open job while a pass has its own. -/
  origins : List (Int × Nat) := []
  jobOrigins : List (Int × Nat) := []
  pass : Option AuditPass := none
  /-- PASS_NO: passes since entry into CONFIGURE. -/
  passNo : Nat := 0
  /-- in-line windows that are open or wait to be judged, oldest first; the job line below which windows have closed; the streaks of the window judged
  last (R331, R332). -/
  windows : List InlineWin := []
  winDone : Nat := 0
  streaks : Nat := 0
  /-- inspection stopped by AUD_ECC until `fn.reinit` (R333). -/
  stopped : Bool := false
  /-- nozzles whose codes the audit set, as port × 8192 + nozzle (11.7), and edits waiting for the rebuild, with the code of each (R324). -/
  record : List Nat := []
  edits : List (Nat × Nat) := []
  /-- counters of Table 19.10. -/
  framing : Nat := 0
  crc : Nat := 0
  format : Nat := 0
  dup : Nat := 0
  lost : Nat := 0
  accepted : Nat := 0
deriving DecidableEq, Repr

/-! ## Chapter 12: motion -/

/-- A move of an axis (R341). -/
inductive Move where
  | target (pos : Int) (speed : Nat)
  | velocity (v : Int)
deriving DecidableEq, Repr

/-- The hold sources of Table 12.4. -/
inductive HoldSrc where
  | host | job | gate | safestop | fault | abort
deriving DecidableEq, Repr

/-- The limits of Table 12.2. -/
structure Limits where
  v : Nat := 10000
  a : Nat := 100000
  d : Nat := 100000
  j : Nat := 10000000
  stopD : Nat := 0
  stopJ : Nat := 0
  lo : Int := -(2 ^ 47 - 1)
  hi : Int := 2 ^ 47 - 1
deriving DecidableEq, Repr

/-- Where the referencing of an axis stands (R363). -/
inductive Homing where
  | none_ | search | park | drive | done
deriving DecidableEq, Repr

/-- What the profile of an axis heads for, with the limits it is under: the move or the stop, the limits, the deceleration and jerk in force, and whether
virtual limits are. -/
structure Goal where
  move : Option Move
  stopping : Bool
  lim : Limits
  dec : Nat
  jerk : Nat
  bounded : Bool
deriving DecidableEq, Repr

/-- An axis. -/
structure Axis where
  /-- the limits set in CONFIGURE, those in force, and a deferred D and J (R346). -/
  staged : Limits := {}
  lim : Limits := {}
  deferred : Option (Nat × Nat) := none
  /-- raw position in units of 2⁻³² AU, a signed value of 48 + 32 bits, velocity in 2⁻³² AU/s, acceleration in 2⁻¹⁶ AU/s² (R335). -/
  p : Int := 0
  v : Int := 0
  a : Int := 0
  refOffset : Int := 0
  referenced : Bool := false
  standstill : Bool := true
  /-- the move in progress, the held move, and the hold set in the order the bits were set (R348). -/
  move : Option Move := none
  heldMove : Option Move := none
  holds : List HoldSrc := []
  /-- a command waits for the next boundary. -/
  pending : Option Move := none
  stopping : Bool := false
  /-- the reason the move in progress will end with when it is being stopped (R350, R344). -/
  endReason : Nat := 0
  /-- the goal for which the time of the profile was last reckoned, and what is left of that time, in 2⁻³² s (R339). -/
  plan : Option (Goal × Int) := none
  axisFault : Bool := false
  /-- `axis.config` as committed is in Cfg; measured position offset Q0 and whether it has been set (R366), last ACT_POS and whether a reply came. -/
  q0 : Int := 0
  q0Set : Bool := false
  actPos : Int := 0
  gotReply : Bool := false
  warning : Bool := false
  driveStatus : Nat := 0
  missRun : Nat := 0
  missed : Nat := 0
  followRun : Nat := 0
  /-- standstill since this clock; current reduced (R362). -/
  stillAt : Nat := 0
  reduced : Bool := false
  homing : Homing := .none_
  homeAt : Nat := 0
  /-- the raw position at the last servo boundary and its clock (R356, R360); the current returned in this period (R362). -/
  p0 : Int := 0
  boundaryAt : Nat := 0
  curBack : Bool := false
  /-- microstep outputs (R360, R361). -/
  msIdx : BitVec 10 := 0
  msCur : BitVec 4 := 0
  msEn : Bool := false
deriving DecidableEq, Repr

/-- A drive link (R352 to R358). -/
structure DriveLink where
  cycle : BitVec 16 := 0
  running : Bool := false
  /-- cycles sent since frames started, up to 8 (R358). -/
  startup : Nat := 0
  skipStartup : Bool := false
deriving DecidableEq, Repr

/-! ## Chapter 13: memory -/

/-- A logged correctable error (R381). -/
structure CeLog where
  addr : Nat
  syndrome : Nat
  cls : Nat
  time : Word
deriving DecidableEq, Repr

/-- The error counts of one memory source (R380 to R382): DRC0, DRC1, the four SRAM partitions, the block stores, the MRAM. -/
structure MemSource where
  ce : Nat := 0
  ue : Nat := 0
  bucket : Nat := 0
  /-- the 16 most recent correctable errors, newest first. -/
  log : List CeLog := []
deriving DecidableEq, Repr

/-- A line write held while the sweep passes its MiB (R374): the line's address and its bytes, each with its enable. -/
structure HeldWrite where
  line : Nat
  bytes : List (Byte × Bool)
deriving DecidableEq, Repr

/-- The scrubber (R387 to R389). -/
structure Scrub where
  running : Bool := false
  paused : Bool := false
  sram : Bool := false
  base : Nat := 0
  limit : Nat := 0
  rate : Nat := 200
  passes : Nat := 1
  pass : Nat := 0
  pos : Nat := 0
  lines : Nat := 0
  corrected : Nat := 0
  newPoison : Nat := 0
  found : Nat := 0
  /-- the clock from which RATE is averaged, the start or the end of the last pause, and the lines, or the on-die words, read since then (Table 13.5). -/
  rateAt : Nat := 0
  rateLines : Nat := 0
  /-- the clock at which the present pause began, and the clocks spent paused in the pass. -/
  pauseAt : Nat := 0
  pausedTicks : Nat := 0
deriving DecidableEq, Repr

/-- An hPPR in progress (R392). -/
structure Ppr where
  ch : Nat
  rank : Nat
  bg : Nat
  bank : Nat
  row : Nat
deriving DecidableEq, Repr

/-- An armed INJECT of `mem.ecctest` (R393): the space (0 DRAM, 1 on-die), the word, and the masks. -/
structure Inject where
  space : Nat
  addr : Nat
  check : BitVec 8
  data : BitVec 64
deriving DecidableEq, Repr

/-- A check-value unit (R394, R395). -/
structure Cvu where
  point : Nat := 0
  start : Nat := 0
  stop : Nat := 0
  sel : Nat := 0
  firstNoz : Nat := 0
  base : Nat := 0
  limit : Nat := 0
  bytes : Nat := 0
  armed : Bool := false
  running : Bool := false
  /-- its stop condition has been reached; CVU_STOP then ends it. -/
  reached : Bool := false
  state : BitVec 32 := 0xFFFFFFFF
  count : Nat := 0
deriving DecidableEq, Repr

/-- An SRAM repair in use: the bank, the kind (1 row, 2 column) and the row or bit-column (R390). -/
structure SramRepair where
  bank : Nat
  kind : Nat
  index : Nat
deriving DecidableEq, Repr

/-- The DRAM, the on-die stores' error marks, the scrubber, the SRAM repairs and the check-value units. -/
structure Memory where
  /-- the channels have been trained since entry from BOOT (R371). -/
  trained : Bool := false
  /-- a `mem.sweep` has completed since entry from BOOT. -/
  swept : Bool := false
  /-- a `mem.sweep` has been accepted since entry from BOOT, so that `mem.config` is over (R371). -/
  sweepSeen : Bool := false
  training : Bool := false
  /-- DRC_INITn.INIT_MIB and SWEEP_BUSY. -/
  init : Vector Nat 2 := Vector.replicate 2 0
  sweepBusy : Bool := false
  /-- the target of the sweep in MiB for each channel. -/
  target : Nat := 0
  /-- DRAM bytes by DRAM byte address (R372). -/
  dram : Mem := []
  /-- the syndrome of each DRAM beat, by byte address / 8: stored check bits XOR those of R376; 0xFF on every beat is poison. -/
  synd : SMap (BitVec 8) := []
  heldWrites : List HeldWrite := []
  /-- the syndrome of on-die words, by b × 8192 + w for the SRAM banks (R376) and above 448 × 8192 for the block stores. -/
  ondie : SMap (BitVec 8) := []
  /-- the data of on-die words that `mem.ecctest` has written raw or that are poisoned or were restored as zero, by the same number (R383, R393). -/
  ondieData : SMap Nat := []
  /-- the SRAM banks that their owners have written since the reset sweep: what their other words hold is not kept (R379). -/
  ondieUsed : BitVec 448 := 0
  sources : Vector MemSource 8 := Vector.replicate 8 {}
  scrub : Scrub := {}
  ppr : Option Ppr := none
  /-- DRAM bank groups whose repair resource has been used: ch*8 + rank*4 + bg. -/
  pprUsed : List Nat := []
  /-- the clock of the last leak of the buckets (R382). -/
  leakAt : Nat := 0
  /-- words a test has written or armed, as (space, address), and armed injections (R393). -/
  testWords : List (Nat × Nat) := []
  injects : List Inject := []
  /-- correctable errors per DRAM row since reset, by row number (R392), and on-die ones as (bank, row, bit-column) (R391). -/
  rowCe : SMap Nat := []
  bankCe : List (Nat × Nat × Nat) := []
  /-- the repairs blown into the eFuses at manufacture, and those loaded at step 2 of R44 (R390). -/
  fuses : List SramRepair := []
  repairs : List SramRepair := []
  /-- map entries skipped at that step, to be reported in CONFIGURE. -/
  skipped : List Nat := []
  cvu : Vector Cvu 8 := Vector.replicate 8 {}
deriving DecidableEq, Repr

/-! ## Chapter 15: twin operation -/

/-- The lease states of R428. -/
inductive LeaseState where
  | holder | solo | none_
deriving DecidableEq, Repr

/-- The peer's last STATE record (Table 15.5). -/
structure PeerState where
  jobOpen : Bool := false
  swathActive : Bool := false
  held : Bool := false
  print : Bool := false
  layers : Nat := 0
  job : Nat := 0
  pacLine : Nat := 0
  swathFirst : Nat := 0
  x : Int := 0
  u : Int := 0
  origin : Int := 0
  time : Nat := 0
deriving DecidableEq, Repr

/-- An axis record of the mirror. -/
structure PeerAxis where
  raw : Int := 0
  refOffset : Int := 0
  target : Int := 0
  speed : Int := 0
  referenced : Bool := false
  held : Bool := false
deriving DecidableEq, Repr

/-- A handover due or under way (R441 to R443): the trigger and where it stands. -/
inductive HandStep where
  | due | offered | passed | received
deriving DecidableEq, Repr

structure Handover where
  trigger : Nat
  step : HandStep
  at_ : Nat := 0
  epoch : Nat := 0
  print : Bool := false
  hold : Bool := false
  layer : Bool := false
deriving DecidableEq, Repr

/-- The lease block and the mirror. -/
structure Twin where
  paired : Bool := false
  lease : LeaseState := .none_
  epoch : BitVec 16 := 0
  /-- SEQ of RENEW and of other messages; send times of the RENEWs not yet granted, by SEQ (the last 16). -/
  seq : BitVec 16 := 0
  msgSeq : BitVec 16 := 0
  sentAt : List (Nat × Nat) := []
  /-- E and V as clocks (R429). -/
  e : Nat := 0
  v : Nat := 0
  vValid : Bool := false
  /-- the clocks of the last valid message on the link path and on the wire path, while the path is up. -/
  linkAt : Option Nat := none
  wireAt : Option Nat := none
  /-- fit when the last path went down (R446). -/
  fitAtDown : Bool := false
  /-- a RELEASE received: (over the twin link, the clock, CAUSE). -/
  release : Option (Bool × Nat × Nat) := none
  /-- the clock of the last loss of a path (log 31). -/
  downAt : Nat := 0
  /-- the PASS, RELEASE and DEPART messages acted on, as (EPOCH, SEQ), the last 16 (R434). -/
  acted : List (Nat × Nat) := []
  /-- the newest EPOCH of the messages received (R450). -/
  newest : Option (BitVec 16) := none
  /-- messages to repeat in the next slots (R434), with the slots left. -/
  repeats : List (List Byte × Nat) := []
  heardRenew : Bool := false
  /-- the peer's FIT bit, and its latest PAIR_INFO: fields equal (R424). -/
  peerFit : Bool := false
  peerInfo : Option (List Byte) := none
  /-- this unit's fitness and the cause of unfitness (R438). -/
  fit : Bool := false
  unfitCause : Nat := 0
  peer : PeerState := {}
  peerAxes : Vector PeerAxis 8 := Vector.replicate 8 {}
  /-- last LINE record of each port: (f, LINE_ID). -/
  peerLines : Vector (Option (Nat × Nat)) 16 := Vector.replicate 16 none
  /-- swaps of SWAP records that wait for the firing line they name: of the waveform bank or of the greyscale map, port, line, LINKED (R437). -/
  swaps : List (Bool × Nat × Nat × Bool) := []
  /-- HLCVs formed by this unit's cells in FOLLOW, as (port, LINE_ID, HLCV). -/
  shadow : List (Nat × Nat × Nat) := []
  sliceMatch : Bool := true
  lineMatch : Bool := true
  swapMatch : Bool := true
  deltaOk : Bool := true
  delta : Int := 0
  deltaSeen : Bool := false
  /-- own samples of the pacing position at multiples of 100 µs, as (TB, x), the latest. -/
  samples : List (Nat × Int) := []
  layers : Nat := 0
  hand : Option Handover := none
  handOver : Nat := 0
  /-- the commit waits to take the lease (R424). -/
  takeAtCommit : Bool := false
  /-- the clock at which REVERT_HOLD began to count (R445). -/
  revertAt : Option Nat := none
  /-- TMB0: the sequence of the next request, and the requests that wait for their response: sequence, opcode, payload (R55, R72). -/
  tmbSeq : Nat := 0
  tmbOut : List (Nat × Nat × List Byte) := []
  /-- TMB1: the last executed sequence, whether a command has been executed, and its stored response (R55, R72). -/
  tmb1Seq : Nat := 0xFFFFFFFF
  tmb1Done : Bool := false
  tmb1Reply : List Byte := []
  leaseStale : Nat := 0
  wireRefused : Nat := 0
  msgRefused : Nat := 0
  xcheck : Nat := 0
  /-- UNCERTAIN of the last takeover (R446). -/
  uncertain : Bool := false
deriving DecidableEq, Repr

/-! ## Chapter 16: time, network and scheduling -/

/-- A scheduler slot (Table 16.4, R521). -/
structure Slot where
  armed : Bool := false
  kind : Nat := 0
  notify : Bool := false
  out : Nat := 0
  op : Nat := 0
  /-- the next T, PERIOD, COUNT left (none: without end), LATE_WIN and WIDTH. -/
  t : Nat := 0
  period : Nat := 0
  count : Nat := 0
  left : Option Nat := none
  lateWin : Nat := 0
  width : Nat := 0
  run : Nat := 0
  expired : Nat := 0
  dropped : Nat := 0
  /-- the clock in which the next occurrence fell due, while it waits to run (R467, R469). -/
  due : Option Nat := none
deriving DecidableEq, Repr

/-- The PTP states of R464. -/
inductive PtpState where
  | none_ | acquiring | locked
deriving DecidableEq, Repr

/-- A foreign master: its sourcePortIdentity as a number of 80 bits, its data set as one number (priority1, class, accuracy, variance, priority2, identity of the grandmaster, the
first most significant), stepsRemoved, the clocks of its latest Announces, and logMessageInterval of the last. -/
structure Foreign where
  port : Nat
  dataset : Nat
  steps : Nat
  seen : List Nat
  interval : Int
deriving DecidableEq, Repr

/-- A two-step Sync that awaits its Follow_Up: sequenceId, and t₂ less its correctionField. -/
structure TwoStep where
  seq : Nat
  t2 : Int
deriving DecidableEq, Repr

/-- The PTP slave (R463 to R465). Times are in units of 2⁻¹⁶ ns, as correctionField is. -/
structure Ptp where
  state : PtpState := .none_
  /-- sourcePortIdentity of the selected master, and the clock of its last Announce. -/
  master : Option Nat := none
  foreign : List Foreign := []
  announceAt : Nat := 0
  /-- PTP messages given to Verup and not yet taken, oldest first, each with the TB at its arrival (R461). -/
  inbox : List (Nat × List Byte) := []
  awaiting : Option TwoStep := none
  /-- t₃ of the Delay_Req under way once it has left; t₄ − t₃ of the last Delay_Resp. -/
  t3 : Option Int := none
  back : Option Int := none
  /-- sequenceId of the last Delay_Req, and logMessageInterval of the last Delay_Resp. -/
  dreqSeq : Nat := 0
  dreqLog : Int := 0
  /-- the clock from which the next Delay_Req may be sent (R463). -/
  dreqNext : Nat := 0
  theta : Int := 0
  /-- the slewing of this acquisition has been reported with its offset (R465). -/
  slewSaid : Bool := false
  /-- Syncs since the master was selected; Syncs in a row within LOCK_T; Syncs in a row beyond 4 × LOCK_T. -/
  syncs : Nat := 0
  good : Nat := 0
  bad : Nat := 0
  /-- the integral term of the servo, in the units of r. -/
  integral : Int := 0
  ignored : Nat := 0
deriving DecidableEq, Repr

/-- An entry of the launch-time queue (R472). -/
structure TxEntry where
  frame : List Byte
  t : Nat
  asap : Bool
  lateWin : Nat
  ts : Bool
  tsId : Nat
  notify : Bool
  own : Bool := false
deriving DecidableEq, Repr

/-- The Ethernet port. -/
structure Eth where
  params : ParamSet := []
  link : Bool := false
  speed : Nat := 0
  queue : List TxEntry := []
  /-- the clock at which the MAC has finished its last frame and the gap after it. -/
  macFree : Nat := 0
  /-- the transmit-timestamp queue: (TS_ID, STATUS, TIME). -/
  stamps : List (Nat × Nat × Nat) := []
  /-- the host receive ring: write and read counts. -/
  rxWrite : Nat := 0
  rxRead : Nat := 0
  rxSeq : Nat := 0
  rxFrames : Nat := 0
  txFrames : Nat := 0
  rxFcs : Nat := 0
  rxShort : Nat := 0
  rxLong : Nat := 0
  rxPause : Nat := 0
  rxFiltered : Nat := 0
  rxRingFull : Nat := 0
  txLate : Nat := 0
  txExpired : Nat := 0
  txNoLink : Nat := 0
  tsLost : Nat := 0
deriving DecidableEq, Repr

/-- The timebase (R454), its steering (R457) and the scheduler. -/
structure TimeBase where
  tb : BitVec 64 := 0
  frac : BitVec 32 := 0
  params : ParamSet := []
  /-- the rate correction r in units of 10⁻¹², and a slew: the ns still to remove, in units of 2⁻³² ns. -/
  r : Int := 0
  slew : Int := 0
  /-- a slew's rate is added to r. -/
  slewing : Bool := false
  slots : Vector Slot 64 := Vector.replicate 64 {}
  ptp : Ptp := {}
  /-- TM_PPS, the clock of its last rise, and TM_OUT0 to TM_OUT3, with the clock at which a pulse ends. -/
  pps : Bool := false
  ppsAt : Nat := 0
  outs : Vector Bool 4 := Vector.replicate 4 false
  pulseEnd : Vector (Option Nat) 4 := Vector.replicate 4 none
  /-- the exchange with the twin: θ, the active's PTP_LOCKED, SEQ, and whether the exchange stands. -/
  twinTheta : Int := 0
  activeLocked : Bool := false
  pingSeq : Nat := 0
  exchange : Bool := false
  /-- a TIME_PING has not been answered yet. -/
  pingOut : Bool := false
  /-- PTP removes any offset by slewing, since the unit left TWIN or became the active and until it is LOCKED (R477). -/
  slewOnly : Bool := false
deriving DecidableEq, Repr

/-! ## Chapter 17: life memory and the Fawn domain -/

/-- Head history of a port (Table 17.3), with the clocks not yet counted as whole minutes. -/
structure HeadHist where
  serial : Nat := 0
  prevSerial : Nat := 0
  typeId : Nat := 0
  insertions : Nat := 0
  firstSeen : Nat := 0
  firingMin : Nat := 0
  presentMin : Nat := 0
  headFaults : Nat := 0
  headLosses : Nat := 0
  firingTicks : Nat := 0
  presentTicks : Nat := 0
deriving DecidableEq, Repr

/-- Lane history (Table 17.4). -/
structure LaneHist where
  state : Nat := 5
  lastRate : Nat := 0
  bringups : Nat := 0
  retrains : Nat := 0
  spareEvents : Nat := 0
  intervalErr : Nat := 0
  invalid : Nat := 0
  lastFail : Nat := 0
  marginW : Nat := 0
  marginH : Nat := 0
deriving DecidableEq, Repr

/-- The header's fields (Table 17.2). -/
structure LifeHeader where
  countsLost : Bool := false
  sparesExhausted : Bool := false
  seq : Nat := 0
  boots : Nat := 0
  formatTb : Nat := 0
  /-- REMAP[s]: the logical block that spare s holds, 0xFFFF free, 0xFFFE retired. -/
  remap : Vector Nat 16 := Vector.replicate 16 0xFFFF
deriving DecidableEq, Repr

/-- The calendar record's fields (Table 17.5). -/
structure Calendar where
  seq : Nat := 0
  clean : Bool := false
  lastTb : Nat := 0
  poweredS : Nat := 0
  coldStarts : Nat := 0
  warmResets : Nat := 0
  unclean : Nat := 0
  keepaliveS : Nat := 0
deriving DecidableEq, Repr

/-- A repair-map entry (Table 17.7) as its eight bytes. -/
abbrev RepairEntry := List Byte

/-- A flush in progress (R488): the trigger, by its bullet in R488, whether the calendar record will carry CLEAN, the counter group it comes to next and
the groups it has moved (R489, R490). -/
structure Flush where
  trigger : Nat
  clean : Bool
  startAt : Nat
  next : Nat := 0
  groups : Nat := 0
deriving DecidableEq, Repr

/-- A `life.export` in progress (R497). -/
structure LifeExport where
  addr : Nat
  cap : Nat
  compress : Bool
deriving DecidableEq, Repr

/-- What of the life memory keeps its contents without power (R479). -/
structure LifeNv where
  /-- the MRAM by logical offset, 1 MiB (Table 17.1). -/
  mram : Mem := []
  /-- the syndromes of words that do not agree with their check bits, by logical word index (R377, R479). -/
  synd : SMap (BitVec 8) := []
  /-- logical blocks whose place fails the compare of a write (R492, R494). -/
  weak : List Nat := []
  /-- the partial minutes of FIRING_MIN and PRESENT_MIN as the last flush wrote them, in seconds (R486). -/
  firingSec : Vector Nat 16 := Vector.replicate 16 0
  presentSec : Vector Nat 16 := Vector.replicate 16 0
deriving DecidableEq, Repr

/-- The life memory block: what it holds on die, read from the MRAM at step 4 of R44. -/
structure Life where
  nv : LifeNv := {}
  /-- LIF_STATUS.HEADER_OK. -/
  headerOk : Bool := false
  hdr : LifeHeader := {}
  cal : Calendar := {}
  repairs : List RepairEntry := []
  repairSeq : Nat := 0
  heads : Vector HeadHist 16 := Vector.replicate 16 {}
  lanes : Vector LaneHist 14 := Vector.replicate 14 {}
  /-- the fire accumulators by port × 8192 + nozzle (R484). -/
  acc : SMap Nat := []
  flush : Option Flush := none
  /-- `life.config`, and the clock at which the present WB_PERIOD began (R488). -/
  params : ParamSet := []
  wbAt : Nat := 0
  /-- fault-log and mode-history entries waiting to be written, without their SEQ and CV, oldest first (R489 step 1, R493). -/
  pendingLog : List (List Byte) := []
  pendingModes : List (List Byte) := []
  /-- the SEQ of the newest fault-log entry and of the newest mode-history entry, as found at the start and written since (R487). -/
  logSeq : Nat := 0
  modeSeq : Nat := 0
  /-- blocks to be remapped, since a write to them has failed its compare (R492). -/
  due : List Nat := []
  /-- a remap at the start has found no spare free: LIF_FAIL is raised once CONFIGURE is entered (R493). -/
  noSpare : Bool := false
  /-- the repair map has changed while the MRAM could not be written. -/
  repairsDirty : Bool := false
  /-- clock up to which minutes and POWERED_S have been counted, and the clocks of a second not yet counted. -/
  countedAt : Nat := 0
  poweredTicks : Nat := 0
  export_ : Option LifeExport := none
  /-- correctable errors of each MRAM block since reset (R492). -/
  blockCe : SMap Nat := []
  /-- counters of Table 19.10. -/
  mramCe : Nat := 0
  logCvSkipped : Nat := 0
  logLost : Nat := 0
  accDamaged : Nat := 0
deriving DecidableEq, Repr

/-- The wake causes of R502. -/
inductive WakeCause where
  | supply | alarm | request
deriving DecidableEq, Repr

/-- The Fawn domain (R499 to R502). -/
structure Fawn where
  /-- the RTC: 48 bits, seconds in [47:15]. -/
  rtc : BitVec 48 := 0
  /-- progress towards the next RTC tick, in 1/(4·10⁹) of a tick. -/
  phase : Nat := 0
  valid : Bool := false
  offset : Int := 0
  k : Nat := 0
  t0 : Int := 0
  temp : Int := 0
  /-- alarm in RTC seconds; 0 disabled. -/
  alarm : Nat := 0
  /-- WAKE_N is driven low. -/
  wake : Bool := false
  cause : WakeCause := .supply
  /-- KEEPALIVE_HELD: the main supplies had been off with VBAT present. -/
  held : Bool := false
  /-- RTC seconds at the last entry into KEEPALIVE. -/
  heldSince : Nat := 0
deriving DecidableEq, Repr

/-! ## The whole state -/

/-- The state of the part, and the queue of commands waiting. -/
structure State where
  sys : Sys := {}
  mbx : Mbx := {}
  evr : Evr := {}
  win : Win := {}
  faults : Faults := {}
  host : Link := {}
  twinLink : Link := {}
  cfg : Cfg := {}
  codec : Codec := {}
  swath : Swath := {}
  wave : Vector WavePort 16 := Vector.replicate 16 {}
  heads : Vector Head 16 := Vector.replicate 16 {}
  bar : Bar := {}
  fbk : Vector Fbk 8 := Vector.replicate 8 {}
  fbo : Vector Fbo 2 := Vector.replicate 2 {}
  job : Job := {}
  pace : Pace := {}
  /-- the job's swath and pacing while MAINTAIN entered from HOLD runs (R162, log 27) -/
  parked : Option (Swath × Pace) := none
  audit : Audit := {}
  axes : Vector Axis 8 := Vector.replicate 8 {}
  drive : Vector DriveLink 2 := Vector.replicate 2 {}
  mem : Memory := {}
  twin : Twin := {}
  time : TimeBase := {}
  eth : Eth := {}
  life : Life := {}
  fawn : Fawn := {}
  /-- the model's clock, in CORE clocks of 1.25 ns since the model began (assumption log 2). -/
  clock : Nat := 0
  /-- the number of free values taken so far (assumption log 3). -/
  free : Nat := 0
  /-- what the part has sent, newest first (model's own record, assumption log 5). -/
  sent : List Sent := []
  /-- the commands waiting, first in, first out. -/
  pending : List Instr := []
deriving DecidableEq, Repr

/-- Reasons for a fault. No meaning of this model raises one: the manual gives every happening an effect. -/
inductive Fault where
  /-- raised by nobody; safe. -/
  | none_
deriving DecidableEq, Repr

/-- Reasons for a refusal. -/
inductive Refusal where
  /-- a row of the table that has no meaning yet, by its mnemonic; raised by Dispatch only; safe. -/
  | notModelled (mnemonic : String)
deriving DecidableEq, Repr

/-- The part right after reset: RESET_N has not yet risen, the mode is BOOT, and every field is at its default, which is the
manual's reset value or, where it gives none, the value assumption log 4 names. -/
def State.reset : State := {}

end Sys2Proof.Machine
end

