-- ==== Sys2Proof/Machine/Bits.lean ====
section
/-! DEFINITION. Bytes, bit fields, signed numbers, saturation and the check values of the manual: CRC-16 (R97), CRC-32C (R108), CRC-8 (R259). -/
namespace Sys2Proof.Machine

/-- The k bytes of a number, least significant first (R9). -/
def leBytes : Nat → Nat → List Byte
  | 0, _ => []
  | k + 1, v => BitVec.ofNat 8 v :: leBytes k (v / 256)

/-- The number that bytes hold, least significant first (R9). -/
def leNat : List Byte → Nat
  | [] => 0
  | b :: bs => b.toNat + 256 * leNat bs

/-- The number that bytes hold, most significant first. -/
def beNat (p : List Byte) : Nat := p.foldl (fun v b => v * 256 + b.toNat) 0

/-- The k bytes of a number, most significant first. -/
def beBytes (k v : Nat) : List Byte := (leBytes k v).reverse

/-- The unsigned field of n bytes at an offset; bytes past the end read as zero. -/
def uAt (p : List Byte) (off n : Nat) : Nat := leNat ((p.drop off).take n)

/-- A number of w bits read as two's complement. -/
def toSigned (w v : Nat) : Int := if 2 * (v % 2 ^ w) < 2 ^ w then ((v % 2 ^ w : Nat) : Int) else ((v % 2 ^ w : Nat) : Int) - (2 ^ w : Nat)

/-- The two's-complement number of w bits that an integer wraps to. -/
def ofSigned (w : Nat) (v : Int) : Nat := (v % ((2 ^ w : Nat) : Int)).toNat

/-- An integer wrapped to a signed number of w bits. -/
def wrapTo (w : Nat) (v : Int) : Int := toSigned w (ofSigned w v)

/-- The signed field of n bytes at an offset. -/
def iAt (p : List Byte) (off n : Nat) : Int := toSigned (8 * n) (uAt p off n)

/-- The field [hi:lo] of a number (R8). -/
def bitsOf (v hi lo : Nat) : Nat := v / 2 ^ lo % 2 ^ (hi + 1 - lo)

/-- Bit n of a number. -/
def bitOf (v n : Nat) : Bool := v / 2 ^ n % 2 == 1

/-- A Bool as a bit in place n. -/
def bitAt (b : Bool) (n : Nat) : Nat := if b then 2 ^ n else 0

/-- A saturating sum of w bits (Table 19.10). -/
def satAdd (w a b : Nat) : Nat := min (a + b) (2 ^ w - 1)

/-- A wrapping sum of w bits (Table 19.10). -/
def wrapAdd (w a b : Nat) : Nat := (a + b) % 2 ^ w

/-- n zero bytes. -/
def zeros (n : Nat) : List Byte := List.replicate n 0

/-- A byte list cut or zero-padded to n bytes. -/
def padTo (n : Nat) (p : List Byte) : List Byte := p.take n ++ zeros (n - p.length)

/-- The bits of bytes, bit 0 of each first (R93). -/
def bitsOfBytes (bs : List Byte) : List Bool := bs.flatMap fun b => (List.range 8).map fun i => b.getLsbD i

/-- The XOR of bytes (R95). -/
def xorBytes (p : List Byte) : Byte := p.foldl (· ^^^ ·) 0

/-- ⌈a / b⌉. -/
def ceilDiv (a b : Nat) : Nat := (a + b - 1) / b

/-- The number of ones in the low n bits. -/
def popCount : Nat → Nat → Nat
  | 0, _ => 0
  | n + 1, v => v % 2 + popCount n (v / 2)

/-- One bit of a CRC-16, most significant first, polynomial 0x1021. -/
def crc16Bit (c : BitVec 16) (d : Bool) : BitVec 16 :=
  if c.msb != d then (c <<< 1) ^^^ 0x1021 else c <<< 1

/-- A CRC-16 over one byte, most significant bit first. -/
def crc16Byte (c : BitVec 16) (b : Byte) : BitVec 16 :=
  [7, 6, 5, 4, 3, 2, 1, 0].foldl (fun c i => crc16Bit c (b.getLsbD i)) c

/-- LANE_CHECK of R97. -/
def crc16 (p : List Byte) : BitVec 16 := p.foldl crc16Byte 0xFFFF

/-- One bit of a reflected CRC-32C. -/
def crc32cBit (c : BitVec 32) : BitVec 32 :=
  if c.getLsbD 0 then (c >>> 1) ^^^ 0x82F63B78 else c >>> 1

/-- CRC-32C state after one byte, input reflected. -/
def crc32cByte (c : BitVec 32) (b : Byte) : BitVec 32 :=
  [0, 0, 0, 0, 0, 0, 0, 0].foldl (fun c (_ : Nat) => crc32cBit c) (c ^^^ b.setWidth 32)

/-- CRC-32C state (before the final XOR) after bytes. -/
def crc32cRun (c : BitVec 32) (p : List Byte) : BitVec 32 := p.foldl crc32cByte c

/-- CRC-32C of R108. -/
def crc32c (p : List Byte) : BitVec 32 := ~~~ crc32cRun 0xFFFFFFFF p

/-- One bit of the CRC-8 of R259. -/
def crc8Byte (c b : BitVec 8) : BitVec 8 :=
  [0, 0, 0, 0, 0, 0, 0, 0].foldl (fun c (_ : Nat) => if c.msb then (c <<< 1) ^^^ 0x07 else c <<< 1) (c ^^^ b)

/-- The CRC-8 of R259. -/
def crc8 (bs : List Byte) : Byte := bs.foldl crc8Byte 0

/-- A fixed-size table changed at one place, given as a number; out of range, nothing changes. -/
def updAt {α : Type} {n : Nat} (v : Vector α n) (i : Nat) (f : α → α) : Vector α n :=
  if h : i < n then v.set i (f v[i]) else v

/-- An element of a fixed-size table, given as a number; out of range, the default. -/
def nthOr {α : Type} {n : Nat} (v : Vector α n) (i : Nat) (d : α) : α :=
  if h : i < n then v[i] else d

end Sys2Proof.Machine
end

