-- ==== Sys2Proof/Machine/Crypto.lean ====
section
/-! DEFINITION. The hash and the signature that R57 names: SHA-384 and ECDSA on curve P-384, by the standards that define them (PRESUMED, log 49). -/
namespace Sys2Proof.Machine

/-! ## SHA-384 -/

/-- A 64-bit word rotated right. -/
def rotr64 (n x : Nat) : Nat := x >>> n ||| x <<< (64 - n) % 2 ^ 64

/-- The eighty round constants. -/
def sha512K : List Nat :=
  [0x428A2F98D728AE22, 0x7137449123EF65CD, 0xB5C0FBCFEC4D3B2F, 0xE9B5DBA58189DBBC,
    0x3956C25BF348B538, 0x59F111F1B605D019, 0x923F82A4AF194F9B, 0xAB1C5ED5DA6D8118,
    0xD807AA98A3030242, 0x12835B0145706FBE, 0x243185BE4EE4B28C, 0x550C7DC3D5FFB4E2,
    0x72BE5D74F27B896F, 0x80DEB1FE3B1696B1, 0x9BDC06A725C71235, 0xC19BF174CF692694,
    0xE49B69C19EF14AD2, 0xEFBE4786384F25E3, 0x0FC19DC68B8CD5B5, 0x240CA1CC77AC9C65] ++
  [0x2DE92C6F592B0275, 0x4A7484AA6EA6E483, 0x5CB0A9DCBD41FBD4, 0x76F988DA831153B5,
    0x983E5152EE66DFAB, 0xA831C66D2DB43210, 0xB00327C898FB213F, 0xBF597FC7BEEF0EE4,
    0xC6E00BF33DA88FC2, 0xD5A79147930AA725, 0x06CA6351E003826F, 0x142929670A0E6E70,
    0x27B70A8546D22FFC, 0x2E1B21385C26C926, 0x4D2C6DFC5AC42AED, 0x53380D139D95B3DF,
    0x650A73548BAF63DE, 0x766A0ABB3C77B2A8, 0x81C2C92E47EDAEE6, 0x92722C851482353B] ++
  [0xA2BFE8A14CF10364, 0xA81A664BBC423001, 0xC24B8B70D0F89791, 0xC76C51A30654BE30,
    0xD192E819D6EF5218, 0xD69906245565A910, 0xF40E35855771202A, 0x106AA07032BBD1B8,
    0x19A4C116B8D2D0C8, 0x1E376C085141AB53, 0x2748774CDF8EEB99, 0x34B0BCB5E19B48A8,
    0x391C0CB3C5C95A63, 0x4ED8AA4AE3418ACB, 0x5B9CCA4F7763E373, 0x682E6FF3D6B2B8A3,
    0x748F82EE5DEFB2FC, 0x78A5636F43172F60, 0x84C87814A1F0AB72, 0x8CC702081A6439EC] ++
  [0x90BEFFFA23631E28, 0xA4506CEBDE82BDE9, 0xBEF9A3F7B2C67915, 0xC67178F2E372532B,
    0xCA273ECEEA26619C, 0xD186B8C721C0C207, 0xEADA7DD6CDE0EB1E, 0xF57D4F7FEE6ED178,
    0x06F067AA72176FBA, 0x0A637DC5A2C898A6, 0x113F9804BEF90DAE, 0x1B710B35131C471B,
    0x28DB77F523047D84, 0x32CAAB7B40C72493, 0x3C9EBE0A15C9BEBC, 0x431D67C49C100D4C,
    0x4CC5D4BECB3E42B6, 0x597F299CFC657E2A, 0x5FCB6FAB3AD6FAEC, 0x6C44198C4A475817]

/-- The initial value of SHA-384. -/
def sha384Init : List Nat :=
  [0xCBBB9D5DC1059ED8, 0x629A292A367CD507, 0x9159015A3070DD17, 0x152FECD8F70E5939,
    0x67332667FFC00B31, 0x8EB44A8768581511, 0xDB0C2E0D64F98FA7, 0x47B5481DBEFA4FA4]

/-- One round on the eight working words and the sixteen next words of the message schedule. -/
def sha512Round (k : Nat) : List Nat × List Nat → List Nat × List Nat
  | ([a, b, c, d, e, f, g, h], w) =>
    let at_ (i : Nat) : Nat := w.getD i 0
    let t1 := h + (rotr64 14 e ^^^ rotr64 18 e ^^^ rotr64 41 e) + (e &&& f ^^^ (2 ^ 64 - 1 - e) &&& g) + k + at_ 0
    let t2 := (rotr64 28 a ^^^ rotr64 34 a ^^^ rotr64 39 a) + (a &&& b ^^^ a &&& c ^^^ b &&& c)
    let s0 := rotr64 1 (at_ 1) ^^^ rotr64 8 (at_ 1) ^^^ at_ 1 >>> 7
    let s1 := rotr64 19 (at_ 14) ^^^ rotr64 61 (at_ 14) ^^^ at_ 14 >>> 6
    ([(t1 + t2) % 2 ^ 64, a, b, c, (d + t1) % 2 ^ 64, e, f, g], w.drop 1 ++ [(s1 + at_ 9 + s0 + at_ 0) % 2 ^ 64])
  | r => r

/-- The hash value after one block of 128 bytes. -/
def sha512Block (v : List Nat) (block : List Byte) : List Nat :=
  let w := (List.range 16).map fun i => beNat ((block.drop (8 * i)).take 8)
  List.zipWith (fun x y => (x + y) % 2 ^ 64) v (sha512K.foldl (fun r k => sha512Round k r) (v, w)).1

/-- The hash value after n blocks. -/
def sha512Blocks : Nat → List Nat → List Byte → List Nat
  | 0, v, _ => v
  | n + 1, v, p => sha512Blocks n (sha512Block v (p.take 128)) (p.drop 128)

/-- SHA-384 of bytes, as 48 bytes. -/
def sha384 (p : List Byte) : List Byte :=
  let n := ceilDiv (p.length + 17) 128
  let m := p ++ [0x80] ++ zeros (128 * n - p.length - 17) ++ beBytes 16 (8 * p.length)
  ((sha512Blocks n sha384Init m).flatMap (beBytes 8)).take 48

/-! ## ECDSA on P-384 -/

/-- The prime, the order, the coefficient b and the base point of P-384. -/
def p384P : Nat := 0xFFFFFFFFFFFFFFFFFFFFFFFFFFFFFFFFFFFFFFFFFFFFFFFFFFFFFFFFFFFFFFFEFFFFFFFF0000000000000000FFFFFFFF
def p384N : Nat := 0xFFFFFFFFFFFFFFFFFFFFFFFFFFFFFFFFFFFFFFFFFFFFFFFFC7634D81F4372DDF581A0DB248B0A77AECEC196ACCC52973
def p384B : Nat := 0xB3312FA7E23EE7E4988E056BE3F82D19181D9C6EFE8141120314088F5013875AC656398D8A2ED19D2A85C8EDD3EC2AEF
def p384Gx : Nat := 0xAA87CA22BE8B05378EB1C71EF320AD746E1D3B628BA79B9859F741E082542A385502F25DBF55296C3A545E3872760AB7
def p384Gy : Nat := 0x3617DE4A96262C6F5D9E98BF9292DC29F8F41DBD289A147CE9DA3113B5F0B8C00A60B1CE1D7E819D7A431D7C90EA0E5F

/-- Sums, differences and products modulo the prime. -/
def mulP (a b : Nat) : Nat := a * b % p384P
def subP (a b : Nat) : Nat := (a + (p384P - b % p384P)) % p384P

/-- A point with coordinates X / Z² and Y / Z³; Z is 0 at infinity. -/
structure JPoint where
  x : Nat
  y : Nat
  z : Nat
deriving DecidableEq, Repr

/-- Twice a point. -/
def JPoint.twice (a : JPoint) : JPoint :=
  let yy := mulP a.y a.y
  let zz := mulP a.z a.z
  let xyy := mulP a.x yy
  let m := mulP 3 (mulP (subP a.x zz) (a.x + zz))
  let x := subP (mulP m m) (8 * xyy)
  { x := x, y := subP (mulP m (subP (4 * xyy) x)) (8 * mulP yy yy), z := mulP (2 * a.y) a.z }

/-- A point plus the affine point (x, y). -/
def JPoint.plus (a : JPoint) (x y : Nat) : JPoint :=
  if a.z = 0 then { x := x, y := y, z := 1 }
  else
    let zz := mulP a.z a.z
    let h := subP (mulP x zz) a.x
    let r := subP (mulP y (mulP zz a.z)) a.y
    if h = 0 then (if r = 0 then a.twice else { x := 1, y := 1, z := 0 })
    else
      let hh := mulP h h
      let v := mulP a.x hh
      let hhh := mulP h hh
      let x3 := subP (subP (mulP r r) hhh) (2 * v)
      { x := x3, y := subP (mulP r (subP v x3)) (mulP a.y hhh), z := mulP a.z h }

/-- u × G + w × Q for the n low bits of u and w. -/
def dualMul (u w qx qy : Nat) : Nat → JPoint → JPoint
  | 0, a => a
  | n + 1, a =>
    let a := a.twice
    let a := if bitOf u n then a.plus p384Gx p384Gy else a
    dualMul u w qx qy n (if bitOf w n then a.plus qx qy else a)

/-- b to the power e modulo m, by the n low bits of e. -/
def powMod (b e m : Nat) : Nat → Nat → Nat
  | 0, acc => acc
  | n + 1, acc => powMod b e m n (if bitOf e n then acc * acc % m * b % m else acc * acc % m)

/-- A signature (r, s) of a digest under the public key (x, y) is valid. -/
def ecdsaOk (x y r s : Nat) (digest : List Byte) : Bool :=
  decide (x < p384P) && decide (y < p384P) && mulP y y == (mulP x (mulP x x) + subP p384B (3 * x)) % p384P &&
    decide (0 < r) && decide (r < p384N) && decide (0 < s) && decide (s < p384N) &&
    (let w := powMod s (p384N - 2) p384N 384 1
     let a := dualMul (beNat digest * w % p384N) (r * w % p384N) x y 384 { x := 1, y := 1, z := 0 }
     let zi := powMod a.z (p384P - 2) p384P 384 1
     a.z != 0 && mulP a.x (mulP zi zi) % p384N == r)

end Sys2Proof.Machine
end

