-- ==== Sys2Proof/Machine/Store.lean ====
section
/-! DEFINITION. Sparse tables and byte stores in canonical form: keys strictly rising and no entry equal to the value an
unlisted key reads as. -/
namespace Sys2Proof.Machine

/-- What key k reads as, d where it is not listed. -/
def SMap.get {α : Type} (d : α) : SMap α → Nat → α
  | [], _ => d
  | (k, v) :: m, a => if a = k then v else SMap.get d m a

/-- The table with key a reading as v, in canonical form. -/
def SMap.put {α : Type} [DecidableEq α] (d : α) : SMap α → Nat → α → SMap α
  | [], a, v => if v = d then [] else [(a, v)]
  | (k, x) :: m, a, v =>
    if a < k then (if v = d then (k, x) :: m else (a, v) :: (k, x) :: m)
    else if a = k then (if v = d then m else (a, v) :: m)
    else (k, x) :: SMap.put d m a v

/-- Every key of the table is above b. -/
def SMap.above {α : Type} (b : Nat) (m : SMap α) : Bool := m.all fun e => decide (b < e.1)

/-- The canonical form. -/
def SMap.wf {α : Type} [DecidableEq α] (d : α) : SMap α → Bool
  | [] => true
  | (k, v) :: m => decide (v ≠ d) && SMap.above k m && SMap.wf d m

/-- The table without the keys from lo up to, not including, hi. -/
def SMap.clear {α : Type} (m : SMap α) (lo hi : Nat) : SMap α := m.filter fun e => !(decide (lo ≤ e.1) && decide (e.1 < hi))

/-- The canonical form of a byte store. -/
def Memory.wf (m : Mem) : Bool := SMap.wf 0 m

/-- One byte of a store; zero where nothing is listed. -/
def Mem.read (m : Mem) (a : Nat) : Byte := SMap.get 0 m a

/-- A store with one byte written. -/
def Mem.write (m : Mem) (a : Nat) (v : Byte) : Mem := SMap.put 0 m a v

/-- n bytes from an address. -/
def Mem.readN (m : Mem) (a : Nat) : Nat → List Byte
  | 0 => []
  | n + 1 => Mem.read m a :: Mem.readN m (a + 1) n

/-- A store with bytes written from an address upward. -/
def Mem.writeN (m : Mem) (a : Nat) : List Byte → Mem
  | [] => m
  | b :: bs => Mem.writeN (Mem.write m a b) (a + 1) bs

/-- A store with only the enabled bytes of a run written. -/
def Mem.writeEn (m : Mem) (a : Nat) : List (Byte × Bool) → Mem
  | [] => m
  | (b, e) :: bs => Mem.writeEn (if e then Mem.write m a b else m) (a + 1) bs

/-- A little-endian number of n bytes from a store. -/
def Mem.readLe (m : Mem) (a n : Nat) : Nat := leNat (Mem.readN m a n)

end Sys2Proof.Machine
end

