-- ==== Sys2Proof/Machine/Flags.lean ====
section
/-! DEFINITION. The numeric codes of modes, statuses and fault classes, the interrupt flags of R82 and the level of INT_N. -/
namespace Sys2Proof.Machine

/-- The mode codes of Table 2.1. -/
def Mode.code : Mode → Nat
  | .keepalive => 0x0 | .boot => 0x1 | .configure => 0x2 | .idle => 0x3 | .home => 0x4 | .maintain => 0x5
  | .print => 0x6 | .hold => 0x7 | .audit => 0x8 | .follow => 0x9 | .safestop => 0xA | .service => 0xB

/-- The three modes in which heads may fire (R37). -/
def Mode.firing : Mode → Bool
  | .maintain | .print | .audit => true
  | _ => false

/-- The status codes of Table 18.2. -/
inductive Status where
  | ok | late | accelDeferred | resumable | busy | badOpcode | badSeq | badArg | badState | notPresent | noSpace | uninit
  | poison | expired | badTarget | notReferenced | overCapacity | badSlice | badStream | expandLimit | noLink | reinitFailed
  | aborted | fault | cancelled | dropped
deriving DecidableEq, Repr

/-- Table 18.2. -/
def Status.code : Status → Nat
  | .ok => 0 | .late => 1 | .accelDeferred => 2 | .resumable => 3 | .busy => 0x100 | .badOpcode => 0x101 | .badSeq => 0x102
  | .badArg => 0x103 | .badState => 0x104 | .notPresent => 0x105 | .noSpace => 0x106 | .uninit => 0x107 | .poison => 0x108
  | .expired => 0x109 | .badTarget => 0x10A | .notReferenced => 0x10B | .overCapacity => 0x10C | .badSlice => 0x10D
  | .badStream => 0x10E | .expandLimit => 0x10F | .noLink => 0x110 | .reinitFailed => 0x111
  | .aborted => 0x200 | .fault => 0x201 | .cancelled => 0x202 | .dropped => 0x203

/-- Class codes of Table 14.4. -/
def FClass.code : FClass → Nat
  | .blockStop => 0x08 | .laneFail => 0x10 | .linkDown => 0x11 | .decEcc => 0x12 | .decLogic => 0x13 | .decCheck => 0x14
  | .codQueueEcc => 0x15 | .sliceAbort => 0x16 | .codecCapacity => 0x17 | .drcTrain => 0x18 | .drcCrc => 0x19
  | .drcParity => 0x1A | .drcPpr => 0x1B | .underrun => 0x30 | .dutyLimit => 0x31 | .pairMismatch => 0x32 | .sweEcc => 0x33
  | .wavEcc => 0x34 | .headFault => 0x35 | .headLost => 0x36 | .shiftLate => 0x37 | .lineCheck => 0x38 | .overspeed => 0x39
  | .startLate => 0x3A | .paceSource => 0x3B | .audEcc => 0x3C | .fbkIllegal => 0x50 | .axisFollow => 0x51
  | .axisDrive => 0x52 | .driveSilent => 0x53 | .homeFail => 0x54 | .ownReadback => 0x60 | .barContention => 0x61
  | .leaseExpired => 0x62 | .xcheckMismatch => 0x63 | .twinLinkDown => 0x64 | .coreWdog => 0x70 | .mbxStall => 0x71
  | .ctlEcc => 0x72 | .lifFail => 0x73 | .overtemp => 0xF0 | .powerFail => 0xF8 | .hostRegister => 0xF9 | .hostCommand => 0xFA

/-- The class a code names. -/
def FClass.ofCode (n : Nat) : Option FClass :=
  [FClass.blockStop, .laneFail, .linkDown, .decEcc, .decLogic, .decCheck, .codQueueEcc, .sliceAbort, .codecCapacity,
    .drcTrain, .drcCrc, .drcParity, .drcPpr, .underrun, .dutyLimit, .pairMismatch, .sweEcc, .wavEcc, .headFault, .headLost,
    .shiftLate, .lineCheck, .overspeed, .startLate, .paceSource, .audEcc, .fbkIllegal, .axisFollow, .axisDrive,
    .driveSilent, .homeFail, .ownReadback, .barContention, .leaseExpired, .xcheckMismatch, .twinLinkDown, .coreWdog,
    .mbxStall, .ctlEcc, .lifFail, .overtemp, .powerFail, .hostRegister, .hostCommand].find? (fun c => c.code == n)

/-- The level at which a class enters (Table 14.4). -/
def FClass.entry : FClass → Level
  | .laneFail | .decEcc | .decLogic | .decCheck => .cell
  | .linkDown | .codQueueEcc | .drcTrain | .drcCrc | .drcParity | .drcPpr | .audEcc | .fbkIllegal | .axisFollow
  | .axisDrive | .driveSilent | .twinLinkDown | .lifFail => .block
  | .overtemp | .powerFail | .hostRegister | .hostCommand => .chip
  | _ => .region

/-- How a latch of the class is released (Table 14.4). -/
inductive ReleaseRule where
  | auto_ | ack | reinit | clear | twin
deriving DecidableEq, Repr

/-- The rule codes of `ev.fault_release`. -/
def ReleaseRule.code : ReleaseRule → Nat
  | .auto_ => 1 | .ack => 2 | .reinit => 3 | .clear => 4 | .twin => 5

/-- The "Released by" column of Table 14.4. -/
def FClass.release : FClass → ReleaseRule
  | .laneFail | .linkDown | .twinLinkDown => .auto_
  | .sliceAbort | .codecCapacity | .drcPpr | .underrun | .dutyLimit | .wavEcc | .headFault | .headLost | .shiftLate
  | .overspeed | .startLate | .paceSource | .mbxStall => .ack
  | .homeFail | .ownReadback | .coreWdog | .ctlEcc | .overtemp | .powerFail | .hostRegister | .hostCommand => .clear
  | .barContention | .leaseExpired | .xcheckMismatch => .twin
  | _ => .reinit

/-- What the manual does at the level that latches a class of its own (Table 14.4). -/
inductive FAction where
  | blockStop | discard | withhold | permitDiscard | toChip | safestop | axis | byOwner | regionStop
deriving DecidableEq, Repr

/-- The "Action" column of Table 14.4; byOwner where the owning chapter's own step carries the action out. -/
def FClass.action : FClass → FAction
  | .blockStop => .regionStop
  | .codQueueEcc | .drcCrc | .drcParity => .blockStop
  | .sliceAbort | .codecCapacity | .xcheckMismatch => .discard
  | .underrun | .dutyLimit | .pairMismatch | .sweEcc | .wavEcc | .headFault | .headLost | .shiftLate | .lineCheck
  | .overspeed | .startLate | .paceSource => .withhold
  | .axisFollow | .axisDrive | .driveSilent => .axis
  | .homeFail | .ownReadback | .coreWdog | .ctlEcc => .toChip
  | .barContention | .leaseExpired => .permitDiscard
  | .overtemp | .powerFail | .hostRegister | .hostCommand => .safestop
  | _ => .byOwner

/-- Level codes of `ev.fault` and `fault.read`. -/
def Level.code : Level → Nat
  | .cell => 0 | .block => 1 | .region => 2 | .chip => 3

/-- The region number (Table 14.1) of a block's SOURCE (Table 1.4); 0 for a number that names no block or region. -/
def regionOf (src : Nat) : Nat :=
  if 1 ≤ src ∧ src ≤ 5 then src
  else if 0x10 ≤ src ∧ src ≤ 0x14 then 1
  else if 0x20 ≤ src ∧ src ≤ 0x25 ∨ 0x30 ≤ src ∧ src ≤ 0x3F then 2
  else if 0x40 ≤ src ∧ src ≤ 0x51 then 3
  else if 0x60 ≤ src ∧ src ≤ 0x63 then 4
  else if 0x70 ≤ src ∧ src ≤ 0x74 then 5
  else 0

/-- SOURCE numbers a block of Table 14.1. -/
def isBlock (src : Nat) : Bool := decide (0x10 ≤ src) && decide (regionOf src ≠ 0)

/-- The interrupt bits of Table 3.12. -/
def irqEvrThresh : BitVec 15 := 0x100
def irqEvrLost : BitVec 15 := 0x200
def irqSafestop : BitVec 15 := 0x400
def irqMode : BitVec 15 := 0x800
def irqBoot : BitVec 15 := 0x1000
def irqMbxWdog : BitVec 15 := 0x2000
def irqCoreWdog : BitVec 15 := 0x4000

/-- The masked value that drives INT_N (R82). -/
def irqMasked (s : State) : BitVec 15 := s.sys.irqStatus &&& s.sys.irqEnHost

/-- INT_N is asserted (R82). -/
def intN (s : State) : Bool := irqMasked s != 0

/-- INT_MGT_N is asserted (R82). -/
def intMgt (s : State) : Bool := s.sys.irqStatus &&& s.sys.irqEnMgt != 0

/-- New interrupt status and host enable: a masked bit that rises while the host link is up queues one interrupt message
carrying the masked value (R82, R112). -/
def setIrq (status en : BitVec 15) (s : State) : State :=
  let before := irqMasked s
  let after := status &&& en
  let msg : TxMsg := { ftype := 0x06, vc := 0, data := leBytes 4 after.toNat }
  { s with
    sys := { s.sys with irqStatus := status, irqEnHost := en }
    host := if after &&& ~~~before != 0 && s.host.linkUp then { s.host with held := s.host.held ++ [msg] } else s.host }

/-- The CTRL clock, 2.5 ns, of the present moment. -/
def ctrlClock (s : State) : Nat := s.clock / 2

/-- The status bits that a hardware event has set in the present CTRL clock (R12). -/
def freshIrq (s : State) : BitVec 15 := if s.sys.irqFresh.1 = ctrlClock s then s.sys.irqFresh.2 else 0

/-- Status bits set by a hardware event (R82); a write in this CTRL clock does not clear them (R12). -/
def raiseIrq (bits : BitVec 15) (s : State) : State :=
  setIrq (s.sys.irqStatus ||| bits) s.sys.irqEnHost { s with sys := { s.sys with irqFresh := (ctrlClock s, freshIrq s ||| bits) } }

/-! ## The code (R376, R377) -/

/-- Eight-bit values of a weight, ascending. -/
def ofWeight (w : Nat) : List Nat := (List.range 256).filter fun v => popCount 8 v == w

/-- The column codes of the 64 data bits. -/
def dataColumns : List Nat := ofWeight 3 ++ (ofWeight 5).take 8

/-- The column codes of address bits, bit 0 first. -/
def addrColumns : List Nat := (ofWeight 5).drop 8

/-- The XOR of the column codes of the bits set in a word. -/
def columnXor (cols : List Nat) (v : Nat) : Nat := (cols.zipIdx.filter fun c => bitOf v c.2).foldl (fun x c => x ^^^ c.1) 0

/-- The check bits of a word at a folded address. -/
def checkBits (addr data : Nat) : Nat := columnXor dataColumns data ^^^ columnXor addrColumns addr

/-- What a syndrome means (Table 13.4). -/
inductive Syndrome where
  | clean | checkBit | dataBit (j : Nat) | poison | uncorrectable
deriving DecidableEq, Repr

/-- Table 13.4. -/
def classify (y : BitVec 8) : Syndrome :=
  if y = 0 then .clean
  else if y = 0xFF then .poison
  else if popCount 8 y.toNat = 1 then .checkBit
  else match dataColumns.findIdx? (· == y.toNat) with
    | some j => .dataBit j
    | none => .uncorrectable

end Sys2Proof.Machine
end

