-- ==== Sys2Proof/Machine/Events.lean ====
section
/-! DEFINITION. The event ring: entries and continuations (R526, R527), drops, holding and write-out (R78, R530), thresholds
(R80) and rate limits (R531). -/
namespace Sys2Proof.Machine

/-- Unread entries (R77). -/
def Evr.unread (e : Evr) : Nat := (e.wr - e.rd).toNat

/-- Continuation entries an event needs (R527). -/
def Event.conts (e : Event) : Nat := (e.payload.length - 1) / 16

/-- The ring entries an event takes (R526, R527). -/
def Event.entries (e : Event) (gap : Nat) : List Entry :=
  { code := e.code, source := e.source, flags := e.flags, status := e.status, cont := e.conts, gap := min gap 255,
    time := e.time, payload := padTo 16 e.payload } ::
  (List.range e.conts).map fun i =>
    { code := 0x0001, source := e.source, flags := 0, status := i + 1, cont := 0, gap := 0, time := e.time,
      payload := padTo 16 (e.payload.drop (16 * (i + 1))) }

/-- The 32 bytes of an entry (Table 19.1). -/
def Entry.bytes (e : Entry) : List Byte :=
  leBytes 2 e.code ++ leBytes 1 e.source ++ leBytes 1 e.flags ++ leBytes 2 e.status ++ leBytes 1 e.cont ++ leBytes 1 e.gap ++
    leBytes 8 e.time.toNat ++ e.payload

/-- Whether the ring has room for n more entries. -/
def Evr.room (r : Evr) (n : Nat) : Bool := decide (r.unread + n ≤ 1024)

/-- An event's entries written to the ring; EVR_THRESH is set when the unread count is then at least THRESH (R78, R80). -/
def writeEvent (e : Event) (s : State) : State :=
  let es := e.entries s.evr.gap
  let r : Evr := { s.evr with
    ring := ((es.map fun (x : Entry) => { x with at_ := s.clock }).reverse ++ s.evr.ring).take 1024, wr := s.evr.wr + BitVec.ofNat 16 es.length, gap := 0 }
  let s : State := { s with evr := r }
  if r.thresh ≤ r.unread then raiseIrq irqEvrThresh s else s

/-- An event dropped whole: every entry it would have used is counted (R78, R527, R530). -/
def dropEvent (e : Event) (s : State) : State :=
  let n := e.conts + 1
  raiseIrq irqEvrLost { s with evr := { s.evr with
    lost := satAdd 32 s.evr.lost n, gap := satAdd 8 s.evr.gap n, episode := true
    epDropped := s.evr.epDropped + n, epKeptLost := s.evr.epKeptLost + (if e.keep then n else 0) } }

/-- Entries the hold queue holds. -/
def Evr.heldEntries (r : Evr) : Nat := (r.held.map fun e => e.conts + 1).sum

/-- An event put into the hold queue of 64 entries, or dropped when it does not fit (R530). -/
def holdEvent (e : Event) (s : State) : State :=
  let n := e.conts + 1
  if s.evr.heldEntries + n ≤ 64 then
    { s with evr := { s.evr with held := s.evr.held ++ [e], episode := true, epHeld := s.evr.epHeld + n } }
  else dropEvent e s

/-- The held events that fit are written in order with DEFERRED (R530). -/
def writeHeld : List Event → State → State
  | [], s => { s with evr := { s.evr with held := [] } }
  | e :: es, s =>
    if s.evr.room (e.conts + 1) then
      writeHeld es (writeEvent { e with flags := e.flags + 0x10 } s)
    else { s with evr := { s.evr with held := e :: es } }

/-- The payload of `ev.ring_overflow` (Table 19.2). -/
def overflowPayload (r : Evr) : List Byte :=
  leBytes 4 r.epDropped ++ leBytes 4 r.epHeld ++ leBytes 4 r.epKeptLost ++ leBytes 4 r.lost

/-- `ev.ring_overflow` of the open episode is written once the ring has room for it and for the oldest held event (R530). -/
def writeOverflow (s : State) : State :=
  let first := match s.evr.held with | [] => 0 | e :: _ => e.conts + 1
  if !s.evr.overflowWritten && s.evr.room (1 + first) then
    let t := writeEvent { code := 0x0102, time := s.time.tb, payload := overflowPayload s.evr } s
    { t with evr := { t.evr with overflowWritten := true } }
  else s

/-- The end of an episode: `ev.ring_overflow` written and the hold queue empty (R530). -/
def endEpisode (s : State) : State :=
  if s.evr.overflowWritten && s.evr.held.isEmpty then
    { s with evr := { s.evr with episode := false, overflowWritten := false, epDropped := 0, epHeld := 0, epKeptLost := 0 } }
  else s

/-- Write-out of an overflow episode as far as the ring has room (R530). -/
def writeOut (s : State) : State :=
  if s.evr.episode then
    let s := writeOverflow s
    if s.evr.overflowWritten then endEpisode (writeHeld s.evr.held s) else s
  else s

/-- An event of a given TIME raised by Verup: written, held or dropped (R78, R530). Before Verup starts no event exists;
between its start and CONFIGURE every event is held. -/
def emitAt (e : Event) (s : State) : State :=
  match s.sys.phase with
  | .running =>
    let s := writeOut s
    if s.evr.held ≠ [] then holdEvent e s
    else if s.evr.room (e.conts + 1) then writeEvent e s
    else if e.keep then holdEvent e s
    else dropEvent e s
  | .starting => holdEvent e s
  | _ => s

/-- An event whose condition occurs now (R528). -/
def emit (e : Event) (s : State) : State := emitAt { e with time := s.time.tb } s

/-- The period, in CORE clocks, of a rate-limited event code (the Limit column of 19.5). -/
def limitPeriod (code : Nat) : Nat :=
  if code = 0x0A01 ∨ code = 0x0803 then 8000000 else 80000000

/-- Verup takes an event raised now: it enters the ring or the hold queue and is not dropped (R78, R530). -/
def takesEvent (e : Event) (s : State) : Bool :=
  let fits (r : Evr) : Bool := decide (r.heldEntries + e.conts + 1 ≤ 64)
  match s.sys.phase with
  | .running =>
    let r := (writeOut s).evr
    if r.held ≠ [] then fits r else r.room (e.conts + 1) || (e.keep && fits r)
  | .starting => fits s.evr
  | _ => false

/-- A rate-limited event of form 1/P (R531): the first is written; within P of the last written entry it is suppressed, the
latest suppressed one kept for the report. A dropped event is no entry, so no period runs from it; a held one counts as written when it is held
(log 2). -/
def emitLimited (instNo : Nat) (e : Event) (s : State) : State :=
  let isMe (r : LimitRec) : Bool := r.code == e.code && r.inst == instNo
  let rest := s.evr.limits.filter fun r => !isMe r
  match s.evr.limits.find? isMe with
  | none =>
    emit e { s with evr := { s.evr with limits := if takesEvent e s then ⟨e.code, instNo, s.clock, none⟩ :: rest else rest } }
  | some r =>
    if s.clock < r.written + limitPeriod e.code then
      { s with evr := { s.evr with limits := { r with suppressed := some { e with time := s.time.tb } } :: rest } }
    else
      match r.suppressed with
      | none => emit e { s with evr := { s.evr with limits := (if takesEvent e s then ⟨e.code, instNo, s.clock, none⟩ else r) :: rest } }
      | some q =>
        emitAt { q with flags := q.flags + 0x20 }
          { s with evr := { s.evr with limits :=
            ⟨e.code, instNo, if takesEvent q s then s.clock else r.written, some { e with time := s.time.tb }⟩ :: rest } }

/-- The entry an occurrence of a rate-limited event makes now (R531): its own, the suppressed one that waits for the end of its period, or none. -/
def limitedEntry (instNo : Nat) (e : Event) (s : State) : Option Event :=
  match s.evr.limits.find? fun r => r.code == e.code && r.inst == instNo with
  | none => some e
  | some r => if s.clock < r.written + limitPeriod e.code then none else some (r.suppressed.getD e)

/-- A counter of a group of Table 19.9 has changed since its last report (R533). -/
def touchGroup (g : Nat) (s : State) : State :=
  if g ∈ s.evr.dirtyGroups then s else { s with evr := { s.evr with dirtyGroups := g :: s.evr.dirtyGroups } }

/-! ## Background operations (R69) -/

/-- A lasting operation starts. -/
def bgStart (k : BgKind) (s : State) : State :=
  { s with mbx := { s.mbx with bg := s.mbx.bg ++ [(s.mbx.bgNext, k)], bgNext := s.mbx.bgNext + 1 } }

/-- A lasting operation ends. -/
def bgEnd (k : BgKind) (s : State) : State :=
  { s with mbx := { s.mbx with bg := s.mbx.bg.filter fun e => e.2 ≠ k } }

/-! ## Fault records and what the part sends -/

/-- The record of an instance; an instance without one has an empty record (R398). -/
def recOf (s : State) (x : Inst) : FaultRec :=
  match s.faults.recs.find? fun r => r.inst = x with
  | some r => r
  | none => { inst := x }

/-- A record put in place of the instance's old one. -/
def setRec (r : FaultRec) (s : State) : State :=
  { s with faults := { s.faults with recs := r :: s.faults.recs.filter fun q => q.inst ≠ r.inst } }

/-- The chip, and the region of a source, as instances. -/
def chipInst : Inst := { level := .chip, source := 0 }
def regionInst (src : Nat) : Inst := { level := .region, source := regionOf src }
def blockInst (src : Nat) : Inst := { level := .block, source := src }
def cellInst (src cell : Nat) : Inst := { level := .cell, source := src, cell := cell }

/-- The class latched at an instance. -/
def latchedAt (s : State) (x : Inst) : Option FClass := (recOf s x).latch

/-- Something the part sends. -/
def send (ch : Chan) (data : List Byte) (s : State) : State := { s with sent := ⟨ch, data⟩ :: s.sent }


end Sys2Proof.Machine
end

