-- ==== Sys2Proof/Machine/Params.lean ====
section
/-! DEFINITION. The settings of the configuration by name: the parameter IDs of Table 18.3 with their defaults (R511). -/
namespace Sys2Proof.Machine

/-- The value a set holds for an element that has been set. -/
def pfind (ps : ParamSet) (id index : Nat) : Option Int :=
  (ps.find? fun i => i.id == id && i.index == index).map (·.value)

/-- The present value of a parameter: the one set, else the default given (R511). -/
def pget (ps : ParamSet) (id index : Nat) (dflt : Int) : Int := (pfind ps id index).getD dflt

/-- The present value as a natural number. -/
def pnat (ps : ParamSet) (id index dflt : Nat) : Nat := (pget ps id index dflt).toNat

/-- A parameter that is 1 (or not 0) counts as on. -/
def pon (ps : ParamSet) (id index : Nat) (dflt : Bool) : Bool := pget ps id index (if dflt then 1 else 0) ≠ 0

/-! ## The committed configuration -/

/-- The committed `cfg.head` set of a port. -/
def headCfg (s : State) (p : Nat) : ParamSet := nthOr s.cfg.live.heads p []

/-- A port of the part that is configured: its PORT_EN is 1 (Table 18.3). -/
def portOn (s : State) (p : Nat) : Bool := decide (p < Config.ports) && pon (headCfg s p) 1 0 false

/-- The configured ports, ascending. -/
def portsOn (s : State) : List Nat := (List.range 16).filter (portOn s)

/-- Bits per drop: 3, or 2 in legacy (R35). -/
def bitsPerDrop (s : State) : Nat := if s.sys.legacy then 2 else 3

/-- The record committed for a port (R577). -/
def recordOf (s : State) (p : Nat) : Option HeadRecord := (nthOr s.heads p {}).committed

/-- N_h and R_h of a port. -/
def nozzlesOf (s : State) (p : Nat) : Nat := match recordOf s p with | some r => r.nozzles | none => 0
def rowsOf (s : State) (p : Nat) : Nat := match recordOf s p with | some r => r.rows | none => 1

/-- The mounting and port parameters of a committed port (Tables 6.3 and 8.2). -/
def mirrorOf (s : State) (p : Nat) : Bool := pon (headCfg s p) 2 0 false
def delayOf (s : State) (p r : Nat) : Nat := pnat (headCfg s p) 3 r 0
def upperIn (ps : ParamSet) : Nat := pnat ps 4 0 0xFF
def upperOf (s : State) (p : Nat) : Nat := upperIn (headCfg s p)
def overlapIn (ps : ParamSet) : Nat := pnat ps 5 0 0
def overlapOf (s : State) (p : Nat) : Nat := overlapIn (headCfg s p)
def stitchPattern (ps : ParamSet) : Bool := pon ps 6 0 false
def cutIn (ps : ParamSet) : Nat := pnat ps 7 0 (overlapIn ps / 2)
def eLimitOf (s : State) (p : Nat) : Nat := pnat (headCfg s p) 9 0 0
def shiftDivIn (ps : ParamSet) : Nat := pnat ps 10 0 1
def usageWriteOf (s : State) (p : Nat) : Bool := pon (headCfg s p) 12 0 true

/-- AMP_LATENCY and REST_DEFAULT of a port (Table 18.5). -/
def ampLatencyOf (s : State) (p : Nat) : Nat := pnat (nthOr s.cfg.live.waves p []) 1 0 80
def restDefaultOf (s : State) (p : Nat) : Nat := pnat (nthOr s.cfg.live.waves p []) 2 0 0

/-- GUARD_W, GUARD_N, SUB_COMBINE and RESTART_SUPPRESS of `cfg.bar` (Table 18.5). -/
def guardW (s : State) : Nat := pnat s.cfg.live.bar 4 0 16
def guardN (s : State) : Nat := pnat s.cfg.live.bar 5 0 (guardW s)
def subAdd (s : State) : Bool := pon s.cfg.live.bar 6 0 false
def restartSuppress (s : State) : Bool := pon s.cfg.live.bar 7 0 true

/-- The committed or staged `mem.config` set: the staged one is in force at once in CONFIGURE (R371). -/
def memCfg (s : State) : ParamSet := s.cfg.staged.mem

/-- Capacity of one channel in bytes (Table 13.1); 0 while no arrangement is set. -/
def channelBytes (s : State) : Nat := pnat (memCfg s) 1 0 0 * pnat (memCfg s) 2 0 0 * 2 ^ 30

/-- The DRAM fitted across both channels. -/
def fittedBytes (s : State) : Nat := 2 * channelBytes s

/-- PAIR of the committed `twin.config` (Table 15.1); never 1 on a unit that has never committed. -/
def pairOn (s : State) : Bool := s.twin.paired

/-- An axis that is configured: its ENABLE is 1 (Table 12.1). -/
def axisCfg (s : State) (a : Nat) : ParamSet := nthOr s.cfg.live.axes a []
def axisOn (s : State) (a : Nat) : Bool := pon (axisCfg s a) 1 0 false

/-- An axis of the open job (R514). -/
def jobAxis (s : State) (a : Nat) : Bool := bitOf s.job.axes a

/-- A job is open and the mode is PRINT, HOLD or AUDIT (Table 14.4). -/
def inJobMode (s : State) : Bool := s.sys.mode = .print || s.sys.mode = .hold || s.sys.mode = .audit

end Sys2Proof.Machine
end

