-- ==== Sys2Proof/Machine/LifeMem.lean ====
section
/-! DEFINITION. The life memory's stored records: layouts (17.1 to 17.3, 17.6), two-copy records (R481), the logs (R487), minutes and
seconds counted on die (R486), and the start of a flush (R488, R490). -/
namespace Sys2Proof.Machine

/-! ## Stored bytes -/

/-- Bytes of the logical map. -/
def mramBytes (s : State) (off n : Nat) : List Byte := Mem.readN s.life.nv.mram off n

/-- The check bits that the MRAM holds of a word (R376, R479). -/
def mramCheck (s : State) (w : Nat) : Nat := checkBits w (leNat (mramBytes s (8 * w) 8)) ^^^ (SMap.get 0 s.life.nv.synd w).toNat

/-- A syndrome of a word that cannot be read (R377). -/
def wordLost (y : BitVec 8) : Bool := match classify y with | .poison | .uncorrectable => true | _ => false

/-- No word that holds bytes of a range reads as uncorrectable. -/
def readable (s : State) (off n : Nat) : Bool :=
  s.life.nv.synd.all fun e => !(wordLost e.2 && decide (off < 8 * e.1 + 8) && decide (8 * e.1 < off + n))

/-- The blocks of a range of offsets whose compare fails are to be remapped (R492); block 0 never is (R481). -/
def noteWeak (off n : Nat) (s : State) : List Nat :=
  (s.life.nv.weak.filter fun b => b != 0 && decide (off < 4096 * (b + 1)) && decide (4096 * b < off + n) && !s.life.due.contains b)

/-- Bytes written into the logical map: the words take the check bits of what they now hold, and each write is compared (R479, R494). -/
def mramPut (off : Nat) (bs : List Byte) (s : State) : State :=
  { s with life := { s.life with
    due := s.life.due ++ noteWeak off bs.length s
    nv := { s.life.nv with mram := Mem.writeN s.life.nv.mram off bs, synd := SMap.clear s.life.nv.synd (off / 8) ((off + bs.length + 7) / 8) } } }

/-- Whole words of the logical map, from offset lo up to hi, written as zero. -/
def mramZero (lo hi : Nat) (s : State) : State :=
  { s with life := { s.life with
    due := s.life.due ++ noteWeak lo (hi - lo) s
    nv := { s.life.nv with mram := SMap.clear s.life.nv.mram lo hi, synd := SMap.clear s.life.nv.synd (lo / 8) (hi / 8) } } }

/-- A record followed by its CV (R480). -/
def withCv (bs : List Byte) : List Byte := bs ++ leBytes 4 (crc32c bs).toNat

/-- The CV that stands after n bytes of a record holds. -/
def cvOk (bs : List Byte) (n : Nat) : Bool := (crc32c (bs.take n)).toNat == uAt bs n 4

/-- The signed 32-bit difference a − b of two SEQ values is above zero (R481). -/
def seqAbove (a b : Nat) : Bool := decide (0 < toSigned 32 ((a + 2 ^ 32 - b % 2 ^ 32) % 2 ^ 32))

/-- The current copy of a two-copy record: the valid one with the higher SEQ (R481). -/
def currentCopy (valid : Nat → Bool) (sq : Nat → Nat) : Option Nat :=
  match valid 0, valid 1 with
  | false, false => none
  | true, false => some 0
  | false, true => some 1
  | true, true => some (if seqAbove (sq 1) (sq 0) then 1 else 0)

/-! ## Layouts -/

/-- A header copy (Table 17.2), without its CV. -/
def headerBody (h : LifeHeader) : List Byte :=
  leBytes 4 0x4546494C ++ [1] ++ leBytes 1 (bitAt h.countsLost 0 + bitAt h.sparesExhausted 1) ++ zeros 2 ++ leBytes 4 h.seq ++
    leBytes 4 h.boots ++ leBytes 8 h.formatTb ++ zeros 8 ++ h.remap.toList.flatMap (leBytes 2) ++ zeros 1980

/-- The header fields in the bytes of a copy. -/
def headerOfBytes (b : List Byte) : LifeHeader :=
  { countsLost := bitOf (uAt b 5 1) 0, sparesExhausted := bitOf (uAt b 5 1) 1, seq := uAt b 8 4, boots := uAt b 12 4,
    formatTb := uAt b 16 8, remap := Vector.ofFn fun i => uAt b (32 + 2 * i.val) 2 }

/-- A header copy whose bytes are valid: MAGIC, VERSION and CV (R481, Table 17.2). -/
def headerValid (b : List Byte) : Bool := uAt b 0 4 == 0x4546494C && uAt b 4 1 == 1 && cvOk b 2044

/-- A header copy as stored; it is valid when no word of it reads as uncorrectable (R481). -/
def headerCopy (s : State) (i : Nat) : List Byte := mramBytes s (0x800 * i) 2048
def headerGood (s : State) (i : Nat) : Bool := readable s (0x800 * i) 2048 && headerValid (headerCopy s i)

/-- A calendar copy (Table 17.5), without its CV. -/
def calendarBody (c : Calendar) : List Byte :=
  leBytes 4 c.seq ++ leBytes 4 (bitAt c.clean 0) ++ leBytes 8 c.lastTb ++ leBytes 8 c.poweredS ++ leBytes 4 c.coldStarts ++
    leBytes 4 c.warmResets ++ leBytes 4 c.unclean ++ zeros 4 ++ leBytes 8 c.keepaliveS ++ zeros 12

/-- The calendar fields in the bytes of a copy. -/
def calendarOfBytes (b : List Byte) : Calendar :=
  { seq := uAt b 0 4, clean := bitOf (uAt b 4 4) 0, lastTb := uAt b 8 8, poweredS := uAt b 16 8, coldStarts := uAt b 24 4,
    warmResets := uAt b 28 4, unclean := uAt b 32 4, keepaliveS := uAt b 40 8 }

/-- A calendar copy as stored; it is valid when its CV holds over bytes that are not all zero (log 21). -/
def calendarCopy (s : State) (i : Nat) : List Byte := mramBytes s (0x1000 + 64 * i) 64
def calendarValid (b : List Byte) : Bool := b.any (· ≠ 0) && cvOk b 60
def calendarGood (s : State) (i : Nat) : Bool := readable s (0x1000 + 64 * i) 64 && calendarValid (calendarCopy s i)

/-- A repair-map copy (R496), without its CV. -/
def repairBody (sq : Nat) (es : List RepairEntry) : List Byte :=
  padTo 2044 (leBytes 4 sq ++ leBytes 2 es.length ++ zeros 10 ++ es.flatten)

/-- A repair-map copy as stored. -/
def repairCopy (s : State) (i : Nat) : List Byte := mramBytes s (0x2000 + 0x800 * i) 2048
def repairValid (b : List Byte) : Bool := b.any (· ≠ 0) && cvOk b 2044
def repairGood (s : State) (i : Nat) : Bool := readable s (0x2000 + 0x800 * i) 2048 && repairValid (repairCopy s i)

/-- The entries of a repair-map copy. -/
def repairOfBytes (b : List Byte) : List RepairEntry :=
  (List.range (min (uAt b 4 2) 251)).map fun i => (b.drop (16 + 8 * i)).take 8

/-- A head history (Table 17.3), without its CV. -/
def headHistBody (h : HeadHist) : List Byte :=
  leBytes 8 h.serial ++ leBytes 8 h.prevSerial ++ leBytes 4 h.typeId ++ leBytes 4 h.insertions ++ leBytes 8 h.firstSeen ++
    leBytes 4 h.firingMin ++ leBytes 4 h.presentMin ++ leBytes 4 h.headFaults ++ leBytes 4 h.headLosses ++ zeros 204

/-- A head history in the bytes of its record. -/
def headHistOfBytes (b : List Byte) : HeadHist :=
  { serial := uAt b 0 8, prevSerial := uAt b 8 8, typeId := uAt b 16 4, insertions := uAt b 20 4, firstSeen := uAt b 24 8,
    firingMin := uAt b 32 4, presentMin := uAt b 36 4, headFaults := uAt b 40 4, headLosses := uAt b 44 4 }

/-- A lane history (Table 17.4) of record i, without its CV. -/
def laneHistBody (i : Nat) (h : LaneHist) : List Byte :=
  leBytes 1 i ++ leBytes 1 h.state ++ leBytes 1 h.lastRate ++ [0] ++ leBytes 4 h.bringups ++ leBytes 4 h.retrains ++
    leBytes 4 h.spareEvents ++ leBytes 8 h.intervalErr ++ leBytes 8 h.invalid ++ leBytes 8 h.lastFail ++ leBytes 2 h.marginW ++
    leBytes 2 h.marginH ++ zeros 208

/-- A lane history in the bytes of its record. -/
def laneHistOfBytes (b : List Byte) : LaneHist :=
  { state := uAt b 1 1, lastRate := uAt b 2 1, bringups := uAt b 4 4, retrains := uAt b 8 4, spareEvents := uAt b 12 4,
    intervalErr := uAt b 16 8, invalid := uAt b 24 8, lastFail := uAt b 32 8, marginW := uAt b 40 2, marginH := uAt b 42 2 }

/-- The offset of the counter group of four nozzles that holds nozzle n of port p (R485). -/
def groupOffset (p n : Nat) : Nat := 0x15000 + 0xC000 * p + 24 * (n / 4)

/-- The offset of a nozzle's record (R485). -/
def counterOffset (p n : Nat) : Nat := groupOffset p n + 6 * (n % 4)

/-- The total fires that a record's six bytes represent (R485). -/
def counterTotal (b : List Byte) : Nat := 256 * uAt b 0 5 + uAt b 5 1

/-- A record that represents a total; UNITS saturates with RESIDUE 255 (R485). -/
def counterBytes (total : Nat) : List Byte :=
  let t := min total (2 ^ 48 - 1)
  leBytes 5 (t / 256) ++ leBytes 1 (t % 256)

/-- One port nozzle's key in the fire accumulator store (R484). -/
def accKey (p n : Nat) : Nat := p * 8192 + n

/-- A counted fire of a nozzle (R483, R484). -/
def countFire (p n : Nat) (acc : SMap Nat) : SMap Nat := SMap.put 0 acc (accKey p n) (satAdd 32 (SMap.get 0 acc (accKey p n)) 1)

/-! ## Writing -/

/-- The SOURCE of the life memory block (Table 14.1). -/
def lifeSource : Nat := 0x73

/-- The MRAM may be written: a header copy is valid (R482), the block is not stopped (R405) and LIF_FAIL is not latched, nor to be as soon as CONFIGURE
is entered (R493). -/
def lifeWritable (s : State) : Bool :=
  s.life.headerOk && !s.life.noSpare && !s.faults.stopped.contains lifeSource && latchedAt s (blockInst lifeSource) != some .lifFail

/-- The header written to the copy that is not current, with SEQ one higher (R481). -/
def writeHeader (h : LifeHeader) (s : State) : State :=
  let h := { h with seq := (s.life.hdr.seq + 1) % 2 ^ 32 }
  mramPut (0x800 * (h.seq % 2)) (withCv (headerBody h)) { s with life := { s.life with hdr := h } }

/-- The calendar record written to the copy that is not current (R481). -/
def writeCalendar (c : Calendar) (s : State) : State :=
  let c := { c with seq := (s.life.cal.seq + 1) % 2 ^ 32 }
  mramPut (0x1000 + 64 * (c.seq % 2)) (withCv (calendarBody c)) { s with life := { s.life with cal := c } }

/-- The repair map written to the copy that is not current (R481, R496). -/
def writeRepairs (es : List RepairEntry) (s : State) : State :=
  let sq := (s.life.repairSeq + 1) % 2 ^ 32
  mramPut (0x2000 + 0x800 * (sq % 2)) (withCv (repairBody sq es)) { s with life := { s.life with repairs := es, repairSeq := sq } }

/-- The header is kept on die, and written when the MRAM may be. -/
def setHeader (h : LifeHeader) (s : State) : State :=
  if lifeWritable s then writeHeader h s else { s with life := { s.life with hdr := h } }

/-- The header as the MRAM holds it: the current copy, and whether one is valid (R481, R482). -/
def readHeader (s : State) : State :=
  match currentCopy (headerGood s) (fun i => uAt (headerCopy s i) 8 4) with
  | none => { s with life := { s.life with headerOk := false } }
  | some i => { s with life := { s.life with headerOk := true, hdr := headerOfBytes (headerCopy s i) } }

/-! ## Logs (R487) -/

/-- A fault-log entry's bytes 4 to 27 (Table 17.6). -/
def logBody (kind cls level source : Nat) (time : BitVec 64) (cell flags detail : Nat) (s : State) : List Byte :=
  leBytes 1 kind ++ leBytes 1 cls ++ leBytes 1 level ++ leBytes 1 source ++ leBytes 8 time.toNat ++ leBytes 4 s.job.pacLine.toNat ++
    leBytes 2 cell ++ leBytes 1 s.sys.mode.code ++ leBytes 1 flags ++ leBytes 4 detail

/-- The SEQ after another: 0 is never written, as it marks an empty entry (Table 17.6). -/
def nextSeq (sq : Nat) : Nat := if sq = 2 ^ 32 - 1 then 1 else sq + 1

/-- A fault-log entry written to the slot of its SEQ: a ring of 2048. -/
def writeLog (body : List Byte) (s : State) : State :=
  let sq := nextSeq s.life.logSeq
  let s := mramPut (0x5000 + 32 * ((sq - 1) % 2048)) (withCv (leBytes 4 sq ++ body)) s
  { s with life := { s.life with logSeq := sq } }

/-- A fault-log entry: written while the MRAM may be; else up to 16 wait on die, and later ones are counted and lost (R493). -/
def pushLog (body : List Byte) (s : State) : State :=
  if lifeWritable s then writeLog body s
  else if s.life.pendingLog.length < 16 then { s with life := { s.life with pendingLog := s.life.pendingLog ++ [body] } }
  else touchGroup 9 { s with life := { s.life with logLost := satAdd 32 s.life.logLost 1 } }

/-- A mode-history entry's bytes 4 to 15 (R487). -/
def modeBody (old new : Mode) (cause : Nat) (time : BitVec 64) : List Byte :=
  leBytes 1 old.code ++ leBytes 1 new.code ++ leBytes 2 cause ++ leBytes 8 time.toNat

/-- A mode-history entry written to the slot of its SEQ: a ring of 248 (Table 17.5). -/
def writeModeEntry (body : List Byte) (s : State) : State :=
  let sq := nextSeq s.life.modeSeq
  let s := mramPut (0x1080 + 16 * ((sq - 1) % 248)) (leBytes 4 sq ++ body) s
  { s with life := { s.life with modeSeq := sq } }

/-- A mode-history entry: written while the MRAM may be; else it waits on die, at most 16 of them (log 21). -/
def pushModeEntry (body : List Byte) (s : State) : State :=
  if lifeWritable s then writeModeEntry body s
  else if s.life.pendingModes.length < 16 then { s with life := { s.life with pendingModes := s.life.pendingModes ++ [body] } }
  else s

/-- A latch taken at region or chip level is logged (R398, R487); `flags` are those of its `ev.fault`. -/
def logLatch (x : Inst) (c : FClass) (src cell flags : Nat) (s : State) : State :=
  match x.level with
  | .cell | .block => s
  | _ => pushLog (logBody 1 c.code x.level.code src s.time.tb cell (bitAt (bitOf flags 1) 0 + bitAt (bitOf flags 3) 2) 0 s) s

/-- The release of a latch at region or chip level is logged, with the final REPEAT (R487). -/
def logRelease (r : FaultRec) (c : FClass) (s : State) : State :=
  match r.inst.level with
  | .cell | .block => s
  | _ => pushLog (logBody 2 c.code r.inst.level.code r.source s.time.tb 0xFFFF (bitAt (!r.overruns.isEmpty) 1) r.repeatN s) s

/-- A change of mode is entered in the mode history (R487); those into BOOT and KEEPALIVE are written by the flush of R47 and under
R491. -/
def noteMode (old new : Mode) (cause : Nat) (s : State) : State :=
  match new with
  | .boot | .keepalive => s
  | _ => pushModeEntry (modeBody old new cause s.time.tb) { s with sys := { s.sys with prior := some new } }

/-! ## Time counted on die -/

/-- Whole minutes carried out of a count of clocks (a minute is 48·10⁹ clocks of 1.25 ns). -/
def carryMinutes (minutes ticks dt : Nat) : Nat × Nat := (minutes + (ticks + dt) / 48000000000, (ticks + dt) % 48000000000)

/-- The head minutes of a port counted over dt clocks (Table 17.3). -/
def countHeadTime (s : State) (dt p : Nat) (h : HeadHist) : HeadHist :=
  if (nthOr s.heads p {}).present then
    let pm := carryMinutes h.presentMin h.presentTicks dt
    let fm := if portOn s p && s.sys.mode.firing then carryMinutes h.firingMin h.firingTicks dt else (h.firingMin, h.firingTicks)
    { h with presentMin := pm.1, presentTicks := pm.2, firingMin := fm.1, firingTicks := fm.2 }
  else h

/-- The clocks a head has spent configured in a firing mode since its usage was last written (R246). -/
def countUsage (s : State) (dt p : Nat) (h : Head) : Head :=
  if portOn s p && s.sys.mode.firing && h.present then { h with firingTicks := h.firingTicks + dt } else h

/-- Minutes and powered seconds counted up to now; called before whatever they depend on changes. -/
def countTime (s : State) : State :=
  let dt := s.clock - s.life.countedAt
  match s.sys.mode with
  | .boot | .keepalive => { s with life := { s.life with countedAt := s.clock } }
  | _ =>
    { s with
     heads := Vector.ofFn fun i => countUsage s dt i.val s.heads[i]
     life := { s.life with
      countedAt := s.clock, poweredTicks := (s.life.poweredTicks + dt) % 800000000
      cal := { s.life.cal with poweredS := s.life.cal.poweredS + (s.life.poweredTicks + dt) / 800000000 }
      heads := Vector.ofFn fun i => countHeadTime s dt i.val s.life.heads[i] } }

/-- A port's head history changed, on die and, while the MRAM may be written, in its record (R486). -/
def setHeadHist (p : Nat) (f : HeadHist → HeadHist) (s : State) : State :=
  let s := { s with life := { s.life with heads := updAt s.life.heads p f } }
  if lifeWritable s then mramPut (0x3000 + 256 * p) (withCv (headHistBody (nthOr s.life.heads p {}))) s else s

/-! ## The start of a flush -/

/-- A flush started by a warm reset, by SAFESTOP or by PWR_FAIL_N has begun: 1 µs has passed since the permit was removed (R489). -/
def flushMayEnd (s : State) : Bool :=
  match s.life.flush with
  | some f => decide (f.trigger < 3) || decide (f.startAt + 800 ≤ s.clock)
  | none => true

/-- A flush starts, or a trigger joins the running one (R488, R490); nothing is written while the MRAM may not be (R482, R493).
Triggers are the bullets of R488. -/
def startFlush (trigger : Nat) (s : State) : State :=
  if !lifeWritable s then s
  else match s.life.flush with
    | some f => { s with life := { s.life with flush := some { f with clean := f.clean || trigger == 5 } } }
    | none => bgStart .flush { s with life := { s.life with
        flush := some { trigger := trigger, clean := trigger == 3 || trigger == 5, startAt := s.clock } } }

end Sys2Proof.Machine
end

