-- ==== Sys2Proof/Machine/Phy.lean ====
section
/-! DEFINITION. The block layer and the pattern units of a lane: block validity (R93, R95), the scrambler (R94), the striping of frames over lanes
(R107), and the pattern generator and checker (R122, R123). -/
namespace Sys2Proof.Machine

/-! ## Blocks (R93, R95) -/

/-- Bytes of a control block that its type's layout reserves (Tables 4.3 to 4.5, R119). What bytes 4 to 14 of SPARE and 1 to 14 of EIDLE hold is not
stated: those of SPARE are taken as reserved, and EIDLE may hold anything there (DESIGN CHOICE, log 55). -/
def reservedBytes (type : Nat) : List Nat :=
  if type = 0xE1 ∨ type = 0xE2 then [11, 12, 13, 14]
  else if type = 0xA5 then [8, 9, 10, 11, 12, 13, 14]
  else if type = 0xC3 then [4, 5, 6, 7, 8, 9, 10, 11, 12, 13, 14]
  else []

/-- The types of Table 4.3. -/
def controlTypes : List Nat := [0xE1, 0xE2, 0xA5, 0x99, 0xC3, 0x3C]

/-- A control block is good: 16 bytes, a type of Table 4.3, the XOR check, and zero where the layout is reserved; SKIP holds 0x99 (R95). -/
def controlGood (b : List Byte) : Bool :=
  let t := uAt b 0 1
  b.length == 16 && controlTypes.contains t && xorBytes (b.take 15) == b.getD 15 0 && ((reservedBytes t).all fun i => uAt b i 1 == 0) &&
    (t != 0x99 || ((b.drop 1).take 14).all (· == 0x99))

/-- A good control block of one type. -/
def blockGood (b : List Byte) (type : Nat) : Bool := controlGood b && uAt b 0 1 == type

/-- A block with its two sync bits, the first sent at place 0: 0 then 1 is a data block, 1 then 0 a control block, the others are invalid (R93). -/
def blockValid (sync : BitVec 2) (b : List Byte) : Bool := sync == 0b10 && b.length == 16 || (sync == 0b01 && controlGood b)

/-- A block with its check byte. -/
def withCheck (b : List Byte) : List Byte := b ++ [xorBytes b]

/-! ## The scrambler (R94) -/

/-- The seed of the scrambler of physical lane n. -/
def scramSeed (lane : Nat) : BitVec 23 := BitVec.ofNat 23 (0x7FFFF0 + lane)

/-- One bit of the scrambler. PRESUMED (log 54): the bit that leaves place 22 is the output and is fed back at the places of the polynomial. -/
def scramStep (r : BitVec 23) : BitVec 23 := if r.msb then (r <<< 1) ^^^ 0x210125 else r <<< 1

/-- A byte scrambled, bit 0 first. -/
def scrambleByte (r : BitVec 23) (b : Byte) : BitVec 23 × Byte :=
  [0, 1, 2, 3, 4, 5, 6, 7].foldl (fun x i => (scramStep x.1, if x.1.msb then x.2 ^^^ (1#8 <<< i) else x.2)) (r, b)

/-- The scrambler after bytes. -/
def scramAfter (r : BitVec 23) (bs : List Byte) : BitVec 23 := bs.foldl (fun r b => (scrambleByte r b).1) r

/-- The bytes of data blocks scrambled, or descrambled. -/
def scramble : BitVec 23 → List Byte → List Byte
  | _, [] => []
  | r, b :: bs => let x := scrambleByte r b; x.2 :: scramble x.1 bs

/-! ## Units on lanes (R107) -/

/-- Unit u of a stream of 4-byte units. -/
def unitAt (bs : List Byte) (u : Nat) : List Byte := (bs.drop (4 * u)).take 4

/-- The bytes of logical lane i at width w: units i, i + w, i + 2w and so on. -/
def laneData (w i : Nat) (bs : List Byte) : List Byte :=
  ((List.range (bs.length / 4)).filter fun u => u % w == i).flatMap (unitAt bs)

/-- Frames laid into what is left of an interval, each after its idle units: the bytes sent, the rest of the frame under way at its end, and the
frames that come later (R96, R107). -/
def placeFrames : Nat → List (Nat × List Byte) → List Byte × List Byte × List (List Byte)
  | left, [] => (zeros (4 * left), [], [])
  | left, (gap, f) :: rest =>
    if left ≤ gap then (zeros (4 * left), [], f :: rest.map (·.2))
    else if left - gap < f.length / 4 then
      (zeros (4 * gap) ++ f.take (4 * (left - gap)), f.drop (4 * (left - gap)), rest.map (·.2))
    else
      let r := placeFrames (left - gap - f.length / 4) rest
      (zeros (4 * gap) ++ f ++ r.1, r.2.1, r.2.2)

/-! ## Patterns (R122, R123) -/

/-- The next bit of a pattern after the bits in the register (Table 4.15). -/
def patternBit (pattern : Nat) (r : BitVec 31) : Bool :=
  match pattern with
  | 0 => r.getLsbD 6 != r.getLsbD 5
  | 1 => r.getLsbD 14 != r.getLsbD 13
  | 2 => r.getLsbD 22 != r.getLsbD 17
  | 3 => r.getLsbD 30 != r.getLsbD 27
  | _ => !r.getLsbD 15

/-- A bit shifted into the register. -/
def shiftIn (r : BitVec 31) (b : Bool) : BitVec 31 := (r <<< 1) ||| (if b then 1 else 0)

/-- Where a generator starts: all ones, so that no PRBS stands still; SQUARE16 begins with its ones (DESIGN CHOICE, log 54). -/
def patternStart (pattern : Nat) : BitVec 31 := if pattern = 4 then 0 else 0x7FFFFFFF

/-- n bits of a pattern, and the register after them. -/
def patternBits (pattern : Nat) : Nat → BitVec 31 → List Bool × BitVec 31
  | 0, r => ([], r)
  | n + 1, r =>
    let b := patternBit pattern r
    let x := patternBits pattern n (shiftIn r b)
    (b :: x.1, x.2)

/-- Bits as bytes, bit 0 first. -/
def bytesOfBits : Nat → List Bool → List Byte
  | 0, _ => []
  | n + 1, bs => BitVec.ofNat 8 (((bs.take 8).zipIdx.map fun e => bitAt e.1 e.2).sum) :: bytesOfBits n (bs.drop 8)

/-- A received bit at the checker: it seeds itself until 32 bits in a row match, and then runs free, compares and counts (R122). -/
def Checker.take (pattern : Nat) (c : Checker) (b : Bool) : Checker :=
  let p := patternBit pattern c.reg
  if c.locked then
    { c with reg := shiftIn c.reg p, bits := satAdd 48 c.bits 1, errors := satAdd 32 c.errors (if b == p then 0 else 1) }
  else
    let run := if b == p then c.run + 1 else 0
    { c with reg := shiftIn c.reg b, run := run, locked := decide (32 ≤ run) }

/-- The bits of a Manchester line from the levels of each half of a bit: a rising edge at mid-bit is a 1, a falling edge a 0; none where an edge is
missing (R433). -/
def manchester : List Bool → Option (List Bool)
  | [] => some []
  | [_] => none
  | a :: b :: rest => if a == b then none else (manchester rest).map (b :: ·)

/-- The line's levels for bits. -/
def manchesterLine (bits : List Bool) : List Bool := bits.flatMap fun b => [!b, b]

/-- The bytes that a lease wire carried, bit 0 first; none where an edge is missing (R433). -/
def leaseBytes (half : List Bool) : List Byte := match manchester half with | some bs => bytesOfBits ((bs.length + 7) / 8) bs | none => []

/-- Received bits at the checker. -/
def Checker.run_ (pattern : Nat) (c : Checker) (bs : List Bool) : Checker := bs.foldl (Checker.take pattern) c

/-- What a lane in a test sends: the pattern, with a bit inverted where injection asks for it (R123). -/
def LaneTest.sends (t : LaneTest) : Nat → List Bool × LaneTest
  | 0 => ([], t)
  | n + 1 =>
    let b := patternBit t.pattern t.gen
    let flip := t.injectOne || (match t.injectRate with | some k => (t.sent + 1) % 2 ^ k == 0 | none => false)
    let x := LaneTest.sends { t with gen := shiftIn t.gen b, sent := t.sent + 1, injectOne := false } n
    ((b != flip) :: x.1, x.2)

/-! ## Framed patterns (R96, R122) -/

/-- An ALIGN block without its check byte (Table 4.4). -/
def alignBlock (logical lane count next : Nat) (check : BitVec 16) : List Byte :=
  [0xA5] ++ leBytes 1 logical ++ leBytes 1 lane ++ leBytes 1 count ++ leBytes 2 next ++ leBytes 2 check.toNat ++ zeros 7

/-- A SKIP block without its check byte (Table 4.3). -/
def skipBlock : List Byte := [0x99] ++ List.replicate 14 0x99

/-- The bits of a block, its sync bits first (R93). -/
def blockBits (control : Bool) (b : List Byte) : List Bool := control :: (!control) :: bitsOfBytes b

/-- The next block of a framed pattern: ALIGN, SKIP, and then 4096 data blocks of scrambled pattern bits (R94, R96, R97). -/
def LaneTest.block (lane logical count : Nat) (t : LaneTest) : List Bool × LaneTest :=
  if t.txPos = 0 then
    (blockBits true (withCheck (alignBlock logical lane count 0 t.txCheck)), { t with txPos := 1, txScram := scramSeed lane, txCheck := 0xFFFF })
  else if t.txPos = 1 then (blockBits true (withCheck skipBlock), { t with txPos := 2 })
  else
    let x := t.sends 128
    let p := bytesOfBits 16 x.1
    let d := scramble t.txScram p
    (blockBits false d, { x.2 with
      txPos := if 4097 ≤ t.txPos then 0 else t.txPos + 1, txScram := scramAfter t.txScram p, txCheck := d.foldl crc16Byte t.txCheck })

/-- Blocks of a framed pattern, one after the other. -/
def LaneTest.blocks (lane logical count : Nat) : Nat → LaneTest → List Bool × LaneTest
  | 0, t => ([], t)
  | n + 1, t =>
    let x := t.block lane logical count
    let y := LaneTest.blocks lane logical count n x.2
    (x.1 ++ y.1, y.2)

/-- n bits of the line of a lane in a test: the pattern raw, or framed inside data blocks with ALIGN and SKIP (R122). -/
def LaneTest.line (lane logical count n : Nat) (t : LaneTest) : List Bool × LaneTest :=
  if t.framed then
    let x := t.blocks lane logical count (ceilDiv (n - t.txBits.length) 130)
    let bits := t.txBits ++ x.1
    (bits.take n, { x.2 with txBits := bits.drop n })
  else t.sends n

/-- A block of a framed pattern received, with the invalid blocks and LANE_CHECK mismatches so far: the pattern's bits go to the checker once an ALIGN
has set the scrambler; the first ALIGN is not checked (R94, R95, R97). -/
def LaneTest.takeBlock (lane : Nat) (x : LaneTest × Nat × Nat) (bs : List Bool) : LaneTest × Nat × Nat :=
  let t := x.1
  let b := bytesOfBits 16 (bs.drop 2)
  if bs.take 2 = [false, true] then
    if t.rxSeen then
      let p := scramble t.rxScram b
      ({ t with chk := Checker.run_ t.pattern t.chk (bitsOfBytes p), rxScram := scramAfter t.rxScram b, rxCheck := b.foldl crc16Byte t.rxCheck }, x.2)
    else x
  else if bs.take 2 = [true, false] ∧ controlGood b then
    if uAt b 0 1 = 0xA5 then
      ({ t with rxSeen := true, rxScram := scramSeed lane, rxCheck := 0xFFFF },
       x.2.1, x.2.2 + bitAt (t.rxSeen && t.rxCheck.toNat != uAt b 6 2) 0)
    else x
  else (t, x.2.1 + 1, x.2.2)

/-- The bits that a lane in a test receives taken by its checker, with the invalid blocks and LANE_CHECK mismatches among them. -/
def LaneTest.hears (lane : Nat) (rx : List Bool) (t : LaneTest) : LaneTest × Nat × Nat :=
  if t.framed then
    let bits := t.rxBits ++ rx
    let n := bits.length / 130
    ((List.range n).map fun i => (bits.drop (130 * i)).take 130).foldl (LaneTest.takeBlock lane) ({ t with rxBits := bits.drop (130 * n) }, 0, 0)
  else ({ t with chk := Checker.run_ t.pattern t.chk rx }, 0, 0)

/-! ## The receiver of a drive link (R352) -/

/-- The receiver of DL_RX: the last two samples, whether a byte is being received, the place of the next sample in it, its data bits so far and the
bytes received, latest first. -/
structure Uart where
  s1 : Bool := true
  s2 : Bool := true
  on : Bool := false
  k : Nat := 0
  cur : Nat := 0
  bytes : List Byte := []
deriving DecidableEq, Repr

/-- The majority of three samples. -/
def majority (a b c : Bool) : Bool := (a && b) || (a && c) || (b && c)

/-- One sample of 5 ns: a byte is aligned on the falling edge of its start bit, and each bit of 50 ns is the majority of the three samples at its
centre; the data bits come with bit 0 first (R352). -/
def Uart.sample (u : Uart) (x : Bool) : Uart :=
  let v := { u with s1 := x, s2 := u.s1, k := u.k + 1 }
  if !u.on then { v with on := u.s1 && !x, k := 1, cur := 0 }
  else if u.k % 10 ≠ 6 then v
  else
    let bit := majority u.s2 u.s1 x
    if u.k / 10 = 0 then { v with on := !bit }
    else if u.k / 10 ≤ 8 then { v with cur := u.cur + bitAt bit (u.k / 10 - 1) }
    else { v with on := false, bytes := BitVec.ofNat 8 u.cur :: u.bytes }

/-- The bytes that a drive link's line carries in a run of samples. -/
def uartBytes (rx : List Bool) : List Byte := (rx.foldl Uart.sample {}).bytes.reverse

/-- The samples of bytes on a drive link's line, sent with no idle time (R352). -/
def uartLine (p : List Byte) : List Bool :=
  p.flatMap fun b => (false :: (List.range 8).map (fun i => b.getLsbD i) ++ [true]).flatMap fun x => List.replicate 10 x

end Sys2Proof.Machine
end

