-- ==== Sys2Proof/Machine/LinkCore.lean ====
section
/-! DEFINITION. The two links by number, what a link reset leaves (R105), the blocks and frames that the part sends (R98, R108, R111 to R116), and what
goes to the peer over the twin link (R435, R436). -/
namespace Sys2Proof.Machine

/-! ## One link of the two -/

/-- A link by number: 0 host, 1 twin. -/
def linkOf (l : Fin 2) (s : State) : Link := if l = 0 then s.host else s.twinLink

/-- A link changed. -/
def setLink (l : Fin 2) (f : Link → Link) (s : State) : State :=
  if l = 0 then { s with host := f s.host } else { s with twinLink := f s.twinLink }

/-- SOURCE of a link's block (Table 14.1). -/
def linkSource (l : Fin 2) : Nat := if l = 0 then 0x10 else 0x60

/-- `ev.link_down` (Table 19.2). -/
def evLinkDown (l : Fin 2) (cause tx : Nat) (s : State) : State :=
  emit { code := 0x1504, source := linkSource l, status := cause,
         payload := leBytes 1 l.val ++ zeros 3 ++ leBytes 4 tx ++ leBytes 4 0 ++ zeros 4 } s

/-! ## Lanes, widths and credits -/

/-- Physical lanes of a link, its spare lane and its full width (R85, R88). -/
def laneCount (l : Fin 2) : Nat := if l = 0 then 9 else 3
def spareLane (l : Fin 2) : Nat := if l = 0 then 8 else 2
def fullWidth (l : Fin 2) : Nat := if l = 0 then 8 else 2

/-- The receive credits the part advertises on a channel, headers and data (Tables 4.12 and 15.4). -/
def vcHdr (l : Fin 2) (v : Nat) : Nat := if l = 0 then (if v = 1 then 64 else 32) else if v = 1 then 128 else 16
def vcData (l : Fin 2) (v : Nat) : Nat :=
  if l = 0 then (if v = 0 then 64 else if v = 1 then 8192 else 0) else if v = 0 then 64 else if v = 1 then 4096 else 16

/-- One lane changed. -/
def setLane (n : Nat) (f : Lane → Lane) (k : Link) : Link := { k with lanes := updAt k.lanes n f }

/-- One lane. -/
def laneOf (k : Link) (n : Nat) : Lane := nthOr k.lanes n {}

/-- The transmitter coefficients a bring-up starts with, and each change of rate: P7, or those that `link.config` fixes (R91, R92). -/
def startCoeff (ps : ParamSet) : Nat × Nat := if pon ps 5 0 false then (pnat ps 6 0 4, pnat ps 7 0 4) else (4, 4)

/-- A link at stage 1 with nothing of the previous link left (R105): settings, which take effect (R92), counters, failed attempts, tests and frames
already accepted stay. -/
def clearedLink (k : Link) : Link :=
  { k with
    stage := .detect, linkUp := false, width := 0, target := 0, peerRates := 0, peerMinW := 0
    lanes := k.lanes.map fun n =>
      ({ test := n.test, use := if n.use = .test then .test else .off, invalid := n.invalid, txA := (startCoeff k.params).1
         txB := (startCoeff k.params).2 } : Lane)
    spareFor := 0xF, spare := none, retrainCause := 0, txSeq := 0, unacked := [], replaysInRow := 0, expect := 0
    nakOut := false, vc := Vector.replicate 3 {}, held := [], corrupt := 0, inForce := k.params
    ackDue := false, nakDue := false, creditDue := false, replayDue := false, txRest := [], txFrames := [], rxDiscard := false, rxAligned := 0
    txSwitchAt := none }

/-! ## Blocks that the part sends -/

/-- A control block sent, with its check byte (R95). -/
def sendBlock (l : Fin 2) (b : List Byte) (s : State) : State := send (.linkBlock l) (withCheck b) s

/-- The lane passed in this part's receive direction: it has block lock and LINK_ID agrees. In EQUALISE it has besides shown no invalid block and no
LANE_CHECK mismatch over 2 ms; in a retrain none since the retrain began (R98 to R101). R99's 2 ms are not asked of a retrain, which typically takes
1.5 ms as a whole (DEDUCED from R104, log 55). -/
def lanePassed (k : Link) (clock : Nat) (n : Lane) : Bool :=
  n.lock && !n.wrongId &&
    (if k.stage = .equalise then !n.dirty && decide (n.verifyAt + 1600000 ≤ clock) else if k.stage = .retrain then !n.dirty else true)

/-- A TRAIN1 or TRAIN2 block of a lane, with the preset it asks of the partner and the coefficients in use (Table 4.5). The equalisation phase of EQ_REQ,
which no rule explains, is sent as 0 (DESIGN CHOICE, log 55). -/
def trainBlock (l : Fin 2) (two : Bool) (lane : Nat) (s : State) : List Byte :=
  let k := linkOf l s
  let n := laneOf k lane
  (if two then [0xE2] else [0xE1]) ++ leBytes 1 lane ++ leBytes 1 (n.logical % 16 + bitAt (lanePassed k s.clock n) 4) ++ [0x3F] ++ leBytes 1 k.target ++
    leBytes 1 n.asked ++ leBytes 1 n.txA ++ leBytes 1 n.txB ++
    leBytes 1 (bitAt n.reject 0 + bitAt (s.sys.mode = .service) 1 + bitAt (k.stage = .retrain) 2 + 8) ++ leBytes 1 l.val ++
    leBytes 1 (pnat k.inForce 1 0 (fullWidth l)) ++ zeros 4

/-- A block of the training stream sent on every lane that is in no test. One block stands for the run of equal blocks that a stage sends (DESIGN
CHOICE, log 55). -/
def sendTraining (l : Fin 2) (two : Bool) (s : State) : State :=
  (List.range (laneCount l)).foldl (fun s i =>
    if (laneOf (linkOf l s) i).use = .test then s else sendBlock l (trainBlock l two i s) s) s

/-- EIDLE, twice on every lane, before the transmitters idle (Table 4.3). -/
def sendEidle (l : Fin 2) (s : State) : State :=
  let b : List Byte := 0x3C :: zeros 14
  if (linkOf l s).stage = .down then s else sendBlock l b (sendBlock l b s)

/-- Bring-up begins at stage 1 as one more attempt (R102, R103). -/
def beginBringUp (l : Fin 2) (s : State) : State :=
  sendTraining l false (setLink l (fun k => { clearedLink k with attempts := k.attempts + 1 }) s)

/-! ## Frames that the part sends -/

/-- A frame sent; it stands in the interval up to the next ALIGN (R96, R107). -/
def sendFrame (l : Fin 2) (f : List Byte) (s : State) : State :=
  send (.linkFrame l) f (setLink l (fun k => { k with txFrames := k.txFrames ++ [f] }) s)

/-- Credits a message uses: one header, and one data credit per 16 bytes or part (R110). -/
def dataCredits (m : TxMsg) : Nat := ceilDiv m.data.length 16

/-- The last limit received admits the message (R111): consumption including it does not pass the limit, modulo the width. -/
def creditAdmits (v : Vc) (m : TxMsg) : Bool :=
  decide ((v.txHdrLimit - (v.txHdrUsed + 1)).toNat < 128) &&
    decide ((v.txDataLimit - (v.txDataUsed + BitVec.ofNat 16 (dataCredits m))).toNat < 32768)

/-- The bytes of a transaction frame sent with a sequence count (Table 4.8, R108). -/
def frameBytes (sq : Nat) (m : TxMsg) (corrupt : Bool) : List Byte :=
  let body := leBytes 1 m.ftype ++ [0] ++ leBytes 2 (sq % 4096) ++ leBytes 2 m.data.length ++ leBytes 2 m.tag ++
    leBytes 8 m.code ++ m.data
  let c := crc32c (leBytes 4 sq ++ body)
  body ++ leBytes 4 ((if corrupt then ~~~ c else c).toNat)

/-- The bytes of a link frame (Table 4.10). -/
def linkFrameBytes (body : List Byte) : List Byte := body ++ leBytes 4 (crc32c body).toNat

/-- Mbaud of a rate code (Table 4.1). -/
def mbaud (rate : Nat) : Nat := [2500, 5000, 8000, 10000, 12500, 16000].getD rate 2500

/-- The bytes that the link carries in 8 µs at its rate and width: 126 000 at 16.0 Gbaud and width 8, and in proportion (R116). -/
def replayBound (k : Link) : Nat := k.width * mbaud k.rate * 63 / 64

/-- Bytes of a message's frame, and of the frames not yet acknowledged. -/
def TxMsg.size (m : TxMsg) : Nat := 20 + m.data.length
def unackedBytes (k : Link) : Nat := (k.unacked.map fun e => e.2.size).sum

/-- R116 leaves room for one more frame. A frame beyond the bound by itself goes out alone, since it could never go otherwise (DEDUCED, log 55). -/
def replayRoom (k : Link) (m : TxMsg) : Bool :=
  decide (k.unacked.length < 2047) && (k.unacked.isEmpty || decide (unackedBytes k + m.size ≤ replayBound k))

/-- A PASS or RELEASE on the twin link, which waits until every MIRROR record before it is acknowledged (R435). -/
def TxMsg.waitsForMirror (m : TxMsg) : Bool := m.ftype == 0x21 && (uAt m.data 0 1 % 16 == 4 || uAt m.data 0 1 % 16 == 5)

/-- A MIRROR frame (Table 15.4). -/
def TxMsg.isMirror (m : TxMsg) : Bool := m.ftype == 0x22

/-- The first held message of each channel is a candidate; the first of them, in order, that credit, R116 and R435 admit (R112, R113). -/
def firstAdmitted (k : Link) (mirrors : Bool) : List Nat → List TxMsg → Option TxMsg
  | _, [] => none
  | seen, m :: ms =>
    let after := mirrors || m.isMirror
    if seen.contains m.vc then firstAdmitted k after seen ms
    else if creditAdmits (nthOr k.vc m.vc {}) m && replayRoom k m && !(m.waitsForMirror && mirrors) then some m
    else firstAdmitted k after (m.vc :: seen) ms

/-- The hardware stamps of the time messages as they are sent: T1 of TIME_PING, T3 of TIME_ECHO (R475). -/
def stampSent (tb : Nat) (m : TxMsg) : TxMsg :=
  let put (o : Nat) : TxMsg := { m with data := m.data.take o ++ leBytes 8 tb ++ m.data.drop (o + 8) }
  if m.ftype ≠ 0x20 then m else if uAt m.data 0 2 = 0xF010 then put 20 else if uAt m.data 0 2 = 0xF011 then put 36 else m

/-- A held message is sent: it takes the next sequence count and stays unacknowledged (R112, R114); CRC_CORRUPT spoils it while frames are left to
spoil (R123). -/
def sendHeld (l : Fin 2) (m : TxMsg) (s : State) : State :=
  let k := linkOf l s
  let x := stampSent s.time.tb.toNat m
  let s := sendFrame l (frameBytes k.txSeq x (decide (0 < k.corrupt))) s
  setLink l (fun k => { k with
    held := k.held.erase m, unacked := k.unacked ++ [(k.txSeq, x)], txSeq := (k.txSeq + 1) % 2 ^ 32, corrupt := k.corrupt - 1
    vc := updAt k.vc m.vc fun v => { v with
      txHdrUsed := v.txHdrUsed + 1, txDataUsed := v.txDataUsed + BitVec.ofNat 16 (dataCredits m) } }) s

/-- The link sends transaction frames: it is up and neither retrains nor switches to its spare (R104, R119). -/
def sendsFrames (k : Link) : Bool := k.linkUp && k.stage = .up && k.spare.isNone

/-- The next held message that may go goes out. -/
def sendNext (l : Fin 2) (s : State) : State :=
  let k := linkOf l s
  if sendsFrames k then
    match firstAdmitted k (k.unacked.any fun e => e.2.isMirror) [] k.held with
    | some m => sendHeld l m s
    | none => s
  else s

/-- A message of the twin link queued and, if it may, sent at once; without a link there is none to send it on. -/
def queueTwin (m : TxMsg) (s : State) : State :=
  if s.twinLink.linkUp then sendNext 1 (setLink 1 (fun k => { k with held := k.held ++ [m] }) s) else s

/-- A TMB message, a MIRROR record and a LEASE message on the twin link (Table 15.4, R434). -/
def sendTmb (p : List Byte) (s : State) : State := queueTwin { ftype := 0x20, vc := 0, data := p } s
def sendMirror (p : List Byte) (s : State) : State := queueTwin { ftype := 0x22, vc := 1, data := p } s
def sendLeaseFrame (m : List Byte) (s : State) : State := queueTwin { ftype := 0x21, vc := 2, data := m ++ [0, 0] } s

/-! ## The camera lanes (R308, R309) -/

/-- The audit is there: not on the AQL-1610 and the AQL-0800, nor with legacy behaviour (11.13). -/
def auditPresent (s : State) : Bool := Config.hasAudit && !s.sys.legacy

/-- A camera lane is listened to: the link uses it, and bring-up has begun and does not wait after a loss (R52, R309). -/
def cameraHears (lane : Nat) (s : State) : Bool :=
  auditPresent s && s.audit.configured && s.audit.lostAt.isNone && decide (lane < pnat s.audit.params 2 0 2)

/-- The camera lanes at stage 1 of their bring-up: no lane up, and nothing of the lanes kept but their counters (R309). -/
def clearedCamera (a : Audit) : Audit :=
  { a with laneUp := 0, rxDiscard := false, rxAligned := 0, lanes := a.lanes.map fun n => ({ invalid := n.invalid } : Lane) }

/-! ## Lane history (Table 17.4) -/

/-- The history record of a lane: host lanes from 0, twin lanes from 9 (Table 17.1). -/
def laneRecord (l : Fin 2) (lane : Nat) : Nat := if l = 0 then lane else 9 + lane

/-- A record of the lane history changed on die; a flush writes it (R489). -/
def noteRecord (i : Nat) (f : LaneHist → LaneHist) (s : State) : State := { s with life := { s.life with lanes := updAt s.life.lanes i f } }

/-- A lane's history changed. -/
def noteLane (l : Fin 2) (lane : Nat) (f : LaneHist → LaneHist) (s : State) : State :=
  if lane < (if l = 0 then 9 else 3) then noteRecord (laneRecord l lane) f s else s

/-- STATE of a lane's history for what it is doing: 0 IN_SERVICE, 1 STANDBY_SPARE, 2 SPARE_IN_USE, 3 REPLACED, 4 UNUSABLE, 5 IDLE. -/
def histState (l : Fin 2) (k : Link) (lane : Nat) : Nat :=
  match (nthOr k.lanes lane {}).use with
  | .active => if lane = (if l = 0 then 8 else 2) then 2 else 0
  | .standby => 1
  | .spareBad => 4
  | .failed => if k.spareFor = lane then 3 else 4
  | .off | .unused | .test => 5

/-- The present state of every lane of a link entered in its history; `f` changes the records of the lanes besides. -/
def noteLanes (l : Fin 2) (f : Nat → LaneHist → LaneHist) (s : State) : State :=
  (List.range (if l = 0 then 9 else 3)).foldl (fun s i => noteLane l i (fun h => { f i h with state := histState l (linkOf l s) i }) s) s

/-! ## Twin link traffic -/

/-- This unit is the active one of a pair and the twin link is up (R436). -/
def isActive (s : State) : Bool := pairOn s && s.twin.lease != .none_ && s.twinLink.linkUp

/-- A MIRROR record sent to the peer while this unit is active (R436). -/
def mirror (rec : List Byte) (s : State) : State := if isActive s then sendMirror rec s else s

/-- A LINE record (Table 15.5). -/
def lineRecord (p : Nat) (h : HeadLine) : List Byte :=
  [1] ++ leBytes 1 (p + bitAt h.first 4 + bitAt h.last 5) ++ leBytes 2 h.skip ++ leBytes 4 h.f ++ leBytes 4 h.lineId ++
    leBytes 4 h.hlcv.toNat

/-- A SWAP record (Table 15.5): flags SUBST 4, GREY 5, WAVE 6, LINKED 7. -/
def swapRecord (p flags first cv : Nat) : List Byte :=
  [2] ++ leBytes 1 (p + flags * 16) ++ zeros 2 ++ leBytes 4 first ++ leBytes 4 cv ++ zeros 4

/-- The signed difference of two positions on 48 bits (R272). -/
def diff48 (a b : Int) : Int := wrapTo 48 (a - b)

/-- The position of the pacing channel after DIR_INV, and U and the origin, as the STATE record carries them. -/
def pacingX (s : State) : Int :=
  let c := pnat (if s.pace.params.isEmpty then s.job.params else s.pace.params) 1 0 0
  toSigned 48 ((nthOr s.fbk c {}).pos.toNat)

/-- A STATE record (Table 15.5). -/
def stateRecord (s : State) : List Byte :=
  [4] ++ leBytes 1 (bitAt s.job.isOpen 0 + bitAt s.swath.active 1 + bitAt (s.sys.mode = .hold) 2 + bitAt (s.sys.mode = .print) 3) ++
    leBytes 2 s.twin.layers ++ leBytes 4 s.job.id ++ leBytes 4 s.job.pacLine.toNat ++ leBytes 4 s.swath.first ++
    leBytes 8 (ofSigned 64 (pacingX s)) ++ leBytes 8 (ofSigned 64 s.pace.hi) ++ leBytes 8 (ofSigned 64 s.pace.origin) ++
    leBytes 8 s.time.tb.toNat ++ zeros 16

end Sys2Proof.Machine
end

