-- ==== Sys2Proof/Machine/Work.lean ====
section
/-! DEFINITION. Work in flight and the terms of firing: the fire permit (R37, R430), withheld lines (R192), what a discard clears (R411),
axis holds (R348), stopped blocks (R405), the lease given up on SAFESTOP, and counter reports (R533). -/
namespace Sys2Proof.Machine

/-! ## The fire permit -/

/-- The lease term of crossing C14 (R430). -/
def leaseTerm (s : State) : Bool :=
  if pairOn s then
    match s.twin.lease with
    | .holder => decide (s.clock < s.twin.e)
    | .solo => true
    | .none_ => false
  else s.bar.committed && latchedAt s { level := .region, source := 4 } != some .barContention

/-- A region's latch keeps the permit away until it is released (Table 14.3, Net region). -/
def latchCut (s : State) : Bool := s.faults.recs.any (fun r => r.permit)

/-- The fire permit of crossing C14: the lease term, no SAFESTOP, no contention or readback cut, no reset pending (R37, R47, R254,
R255, R430). -/
def firePermit (s : State) : Bool :=
  s.sys.mode != .safestop && leaseTerm s && !s.bar.contention && !s.bar.readbackCut && !latchCut s && !s.sys.resetPending

/-- A block is stopped (R405). -/
def isStopped (s : State) (src : Nat) : Bool := s.faults.stopped.contains src

/-- A port may fire: a firing mode, the permit, and its block runs (R37, R405). -/
def portFires (s : State) (p : Nat) : Bool := s.sys.mode.firing && firePermit s && !isStopped s (0x30 + p)

/-! ## Withheld lines -/

/-- Lines are withheld (R192). -/
def isWithheld (s : State) : Bool := s.swath.withheld

/-- The windows of the bank a cycle plays. -/
def cycleBank (w : WavePort) (c : Cycle) : Option Bank := (w.banks[c.bank]?).join

/-- A cycle whose line has fired, so that it stands when lines are withheld (R192, R238). -/
def cycleStands (c : Cycle) : Bool := c.opened != 0

/-- Every head line not yet fired is withheld on every port: lines waiting in the port and tokens not yet taken are dropped, and
cycles that have opened no window are given up (R172, R192, R239). -/
def withholdAll (s : State) : State :=
  { s with
    swath := { s.swath with withheld := true, line := s.swath.line.map fun l => { l with ready := none } }
    wave := s.wave.map fun w => { w with token := none, cycles := w.cycles.filter cycleStands } }

/-! ## What a discard clears -/

/-- The kinds of scheduled action that a discard cancels (Table 16.5): LINE and the job actions. -/
def firesOrJob (k : Nat) : Bool := decide (3 ≤ k) && decide (k ≤ 6)

/-- `ev.sched` (Table 19.7). -/
def evSched (i : Nat) (x : Slot) (status detail lateness : Nat) (s : State) : State :=
  emit { code := 0x1303, source := 0x63, status := status, flags := bitAt (decide (4 ≤ x.kind)) 0,
         payload := leBytes 1 i ++ leBytes 1 x.kind ++ leBytes 2 detail ++ leBytes 4 (min lateness (2 ^ 32 - 1)) ++ leBytes 8 x.t } s

/-- Every armed slot that fires lines or acts on the job is freed and reported CANCELLED; the count (R411 step 2). -/
def cancelFiringActions (s : State) : State × Nat :=
  let hit := (List.range 64).filter fun i => let x := nthOr s.time.slots i {}; x.armed && firesOrJob x.kind
  (hit.foldl (fun s i =>
    let x := nthOr s.time.slots i {}
    evSched i x 0x202 0 0 { s with time := { s.time with slots := updAt s.time.slots i fun x => { x with armed := false } } }) s,
   hit.length)

/-- The scrubber pauses while the bytes of posted slices exceed 85 % of the DRAM fitted, and goes on when they do not (R389); called when they have
changed. -/
def scrubPause (s : State) : State :=
  let c := s.mem.scrub
  let crowded := decide (85 * fittedBytes s < 100 * (s.codec.posted.map (·.len)).sum)
  let set (c : Scrub) : State := { s with mem := { s.mem with scrub := c } }
  if !c.running || c.paused == crowded then s
  else if crowded then set { c with paused := true, pauseAt := s.clock }
  else set { c with paused := false, pausedTicks := c.pausedTicks + (s.clock - c.pauseAt), rateAt := s.clock, rateLines := 0 }

/-- `ev.scrub_done` (R389). -/
def evScrubDone (aborted : Bool) (s : State) : State :=
  let c := s.mem.scrub
  let ticks := c.pausedTicks + (if c.paused then s.clock - c.pauseAt else 0)
  emit { code := 0x0E04, source := if c.sram then 0x73 else 0x13, status := if aborted then 0x200 else 0, keep := true
         payload := leBytes 4 c.lines ++ leBytes 4 c.corrected ++ leBytes 2 c.newPoison ++ leBytes 2 c.found ++ leBytes 4 (ticks / 800000) } s

/-- A running scrub ends before its pass does, with ABORTED (R389). -/
def stopScrub (s : State) : State :=
  if s.mem.scrub.running then
    bgEnd .scrub (let s := evScrubDone true s; { s with mem := { s.mem with scrub := { s.mem.scrub with running := false, paused := false } } })
  else s

/-- Every decoder stream stops and every posted slice is released as discarded: the first SLICE_NO and the count (R411 step 3). -/
def releasePosted (s : State) : State × Nat × Nat :=
  let n := s.codec.posted.length
  let first := match s.codec.posted with | [] => 0xFFFFFFFF | q :: _ => q.no
  let s := { s with codec := { s.codec with
    posted := [], discarded := wrapAdd 32 s.codec.discarded n, lastReleased := (s.codec.posted.getLast?.map (·.no)).getD s.codec.lastReleased
    decoders := s.codec.decoders.map fun d => { d with work := none } } }
  (if n = 0 then s else scrubPause (touchGroup 6 s), first, n)

/-- The restart marks of a port: the highest job line each row has fired, none at or below what is committed (R175). -/
def marksOf (pacLine : Nat) (l : PortLine) : Vector (Option Nat) 8 :=
  l.rowFired.map fun m => match m with | some x => if pacLine ≤ x then some x else none | none => none

/-- The swath engine after a discard: staging and delay lines hold nothing of the swath, the swath has ended and the next one counts on, restart marks stand
(R170, R175, R411 step 4). -/
def swathDiscarded (s : State) : Swath :=
  let on := restartSuppress s
  { s.swath with
    active := false, no := if s.swath.active ∧ s.swath.kind = .job then s.swath.no + 1 else s.swath.no
    held := [], plans := [], ls := none, marksPending := on, marksInForce := false
    line := s.swath.line.map fun l => { l with
      prep := 0, readLine := s.job.pacLine.toNat, ready := none, fired := 0, marks := if on then marksOf s.job.pacLine.toNat l else Vector.replicate 8 none } }

/-- Print pacing after a discard: waiting lines dropped, the origin queue empty, the capture disarmed, the swath ended; an origin is
owed, which counts in CONTINUOUS and QUEUED (R304). -/
def paceDiscarded (s : State) : Pace :=
  { s.pace with
    armed := false, reversed := false, queue := [], waitCapture := false, owed := s.job.isOpen
    gateDone := false, ended := false
    source := if s.pace.source = .channel then .channel else .none_
    port := s.pace.port.map fun p => { p with next := 0, dueAt := none, skip := 0 } }

/-- A port's line path of a swath that was set aside, as it goes on: counts and history of the lines fired meanwhile stay, and the line that waits
for its token is to be shifted again (R162, R184). -/
def unparkLine (cur old : PortLine) : PortLine :=
  { old with
    ready := old.ready.or ((old.shifted.map (·.1)).or (if old.dead then none else old.shifting.map (·.1)))
    shifting := cur.shifting, dead := cur.shifting.isSome, shifted := none, latched := cur.latched
    latchFall := cur.latchFall, fJob := cur.fJob, hist := cur.hist, subst := cur.subst, lost := cur.lost, clipNozzle := cur.clipNozzle
    clipEnergy := cur.clipEnergy }

/-- The job's swath and pacing that were set aside for MAINTAIN or AUDIT take their place again (R162, log 27). -/
def unpark (s : State) : State :=
  match s.parked with
  | none => s
  | some (w, q) =>
    { s with
      parked := none
      pace := { q with port := Vector.ofFn fun i => { q.port[i] with lastAt := s.pace.port[i].lastAt } }
      swath := { w with
        grey := s.swath.grey, subst := s.swath.subst, patterns := s.swath.patterns, plans := s.swath.plans, withheld := s.swath.withheld
        line := Vector.ofFn fun i => unparkLine s.swath.line[i] w.line[i] } }

/-- A swath ends, at its last line or by a discard: the check-value units that stop with it reach their stop (R394, R411). -/
def cvuSwathEnd (s : State) : State :=
  { s with mem := { s.mem with cvu := s.mem.cvu.map fun u => if u.running && u.stop == 2 then { u with reached := true } else u } }

/-- The capture that the armed or waiting swath asked for is asked for no more (R304). -/
def disarmCapture (s : State) : State :=
  if s.pace.waitCapture then
    { s with
      fbk := updAt s.fbk (pnat (if s.pace.params.isEmpty then s.job.params else s.pace.params) 1 0 0) fun f => { f with capt := none }
      pace := { s.pace with waitCapture := false } }
  else s

/-- Staging is emptied, the swath ends, pacing acts as R304 states and the next slice may begin at PAC_LINE (R134, R411 step 4). -/
def endSwathDiscard (s : State) : State :=
  let s := if s.swath.active || s.parked.any (·.1.active) then cvuSwathEnd s else s
  let s := disarmCapture (unpark (disarmCapture s))
  { s with
    swath := swathDiscarded s, pace := paceDiscarded s
    codec := { s.codec with
      staging := [], nextLine := s.job.pacLine.toNat, anyNo := true, needStart := true, lastAccepted := false } }

/-! ## Axes -/

/-- The user position of an axis in whole AU, a signed 48-bit value (R335). -/
def userPos (x : Axis) : Int := wrapTo 48 (x.p / 2 ^ 32 + x.refOffset)

/-- The row of a hold source in Table 12.4, from 1. -/
def HoldSrc.row : HoldSrc → Nat
  | .host => 1 | .job => 2 | .gate => 3 | .safestop => 4 | .fault => 5 | .abort => 6

/-- `ev.axis_held` (Table 19.5): the remaining distance is the held target less the user position (R348). -/
def evAxisHeld (a : Nat) (src : HoldSrc) (x : Axis) (s : State) : State :=
  let remain : Int := match x.heldMove with | some (.target t _) => t - userPos x | _ => 0
  emit { code := 0x0D02, source := 0x48 + a,
         payload := leBytes 1 a ++ leBytes 1 src.row ++ leBytes 6 (ofSigned 48 remain) ++ leBytes 6 (ofSigned 48 (userPos x)) ++ zeros 2 } s

/-- One axis changed. -/
def setAxis (a : Nat) (f : Axis → Axis) (s : State) : State := { s with axes := updAt s.axes a f }

/-- A hold bit is set on an axis (R348): the first one stops the axis and keeps its move; at standstill it is reported at once, else
when the axis comes to rest. -/
def holdAxis (a : Nat) (src : HoldSrc) (s : State) : State :=
  let x := nthOr s.axes a {}
  if x.holds.contains src then s
  else if x.holds.isEmpty then
    let y : Axis := { x with
      holds := [src], heldMove := (x.pending.or x.move).or x.heldMove, move := none, pending := none
      stopping := !x.standstill }
    let s := setAxis a (fun _ => y) s
    if x.standstill then
      let s := evAxisHeld a src y s
      if src = .abort then setAxis a (fun y => { y with holds := [.host] }) s else s
    else s
  else setAxis a (fun x => { x with holds := x.holds ++ [src] }) s

/-- The SAFESTOP hold on every configured axis (R414). -/
def holdAxesSafestop (s : State) : State :=
  (List.range 8).foldl (fun s a => if axisOn s a then holdAxis a .safestop s else s) s

/-- The FAULT hold and the fault bit of the axis whose block a source names (R367, R405). -/
def axisFaultHold (src : Nat) (s : State) : State :=
  if 0x48 ≤ src ∧ src ≤ 0x4F then
    holdAxis (src - 0x48) .fault (setAxis (src - 0x48) (fun x => { x with axisFault := true }) s)
  else s

/-- A job in PRINT, HOLD or AUDIT uses the block: its pacing channel, its axes and their drive links (Table 14.4, R405, R418). -/
def jobUsesBlock (src : Nat) (s : State) : Bool :=
  let ps := if s.sys.mode = .audit then s.pace.params else s.job.params
  let uses (a : Nat) : Bool :=
    if s.sys.mode = .audit then pnat (match s.audit.pass with | some q => q.params | none => []) 30 0 0xFF == a else jobAxis s a
  inJobMode s &&
    (src == 0x40 + pnat ps 1 0 0xFF || (decide (0x48 ≤ src) && decide (src ≤ 0x4F) && uses (src - 0x48)) ||
      (src == 0x50 && (uses 0 || uses 1 || uses 2)) || (src == 0x51 && (uses 3 || uses 4 || uses 5)))

/-- The outputs of a block that stops (R405): the host link resets and the twin link stops, the cause of
`ev.link_down` a free value (log 3), an axis holds, a drive link sends no more frames; every other block is told by `isStopped`. -/
def stopBlockOutputs (src : Nat) (s : State) : State :=
  if src = 0x10 ∨ src = 0x60 then
    let l : Fin 2 := if src = 0x10 then 0 else 1
    let k := linkOf l s
    let stop (s : State) : State := if l = 0 then beginBringUp 0 s else setLink 1 (fun k => { clearedLink k with stage := .down }) s
    evLinkDown l (Config.freeNat s.free % 2 ^ 16) (k.unacked.length + k.held.length)
      (stop (setLink l (fun k => { k with resets := wrapAdd 32 k.resets 1 }) { s with free := s.free + 1 }))
  else if src = 0x50 ∨ src = 0x51 then { s with drive := updAt s.drive (src - 0x50) fun d => { d with running := false } }
  else axisFaultHold src s

/-! ## The lease on SAFESTOP -/

/-- The six bytes of a lease message from this unit (Table 15.3). -/
def leaseMsg (type cause epoch sq : Nat) (s : State) : List Byte :=
  leBytes 1 (type + bitAt s.sys.straps.unitId 4 + bitAt (s.twin.fit && s.twin.lease = .none_) 5) ++ leBytes 1 cause ++ leBytes 2 epoch ++
    leBytes 2 sq

/-- A lease message in the frame of a lease wire (R433). -/
def wireFrame (m : List Byte) : List Byte := [0x55, 0xD5] ++ m ++ [crc8 m]

/-- A lease message on one path: the wires, or a LEASE frame of the twin link (R433, R434). -/
def sendPath (wire : Bool) (m : List Byte) (s : State) : State :=
  if wire then send .leaseWire (wireFrame m) s else sendLeaseFrame m s

/-- A lease message on both paths. -/
def sendLease (m : List Byte) (s : State) : State := sendPath true m (sendPath false m s)

/-- PASS, RELEASE or DEPART: sent at once on both paths and in each of the next four slots (R434). -/
def sendRepeated (type cause : Nat) (s : State) : State :=
  let s := { s with twin := { s.twin with msgSeq := s.twin.msgSeq + 1 } }
  let m := leaseMsg type cause s.twin.epoch.toNat s.twin.msgSeq.toNat s
  sendLease m { s with twin := { s.twin with repeats := s.twin.repeats ++ [(m, 4)] } }

/-- The lease given up with RELEASE (R414, Table 15.7): a paired unit that holds it enters NONE and tells the peer. -/
def releaseLease (cause : Nat) (s : State) : State :=
  if pairOn s && s.twin.lease != .none_ then
    sendRepeated 5 cause { s with twin := { s.twin with lease := .none_, vValid := false, hand := none } }
  else s

/-- A handover that waits is given up by a unit whose mode no longer lets it hold the lease (R38). -/
def dropHand (s : State) : State := { s with twin := { s.twin with hand := none } }

/-- The level the part drives on BAR_OWN (R252, R253, R255). -/
def barOwn (s : State) : Bool :=
  let owns := if pairOn s then s.twin.lease != .none_
    else s.bar.committed && s.sys.mode != .configure && s.sys.mode != .service && s.sys.mode != .boot && s.sys.mode != .keepalive
  if s.bar.contention then !s.sys.straps.unitId else owns

/-- Contention: BAR_OWN driven high while BAR_PEER is high, both for 200 ns, which is 160 clocks, without a break (R255). -/
def contending (s : State) : Bool :=
  barOwn s && s.bar.own && s.bar.peer && decide (max s.bar.ownSince s.bar.peerSince + 160 ≤ s.clock)

/-! ## Counter reports -/

/-- Four u32 counters. -/
def four (a b c d : Nat) : List Byte := leBytes 4 a ++ leBytes 4 b ++ leBytes 4 c ++ leBytes 4 d

/-- MISSED of a drive-link slot (R357). -/
def missedOf (s : State) (a : Nat) : Nat := (nthOr s.axes a {}).missed

/-- The SOURCE and payload of a counter group (Table 19.9); group 0x05 stands here for the host link. -/
def groupPayload (g : Nat) (s : State) : Nat × List Byte :=
  let c := s.audit; let e := s.eth; let w := s.twin; let f := s.life
  match g with
  | 1 => (0x20, leBytes 4 s.job.id ++ leBytes 4 s.swath.no ++ leBytes 2 ((portsOn s).map fun p => 2 ^ p).sum ++ zeros 6 ++
      (portsOn s).flatMap fun p => let l := nthOr s.swath.line p {}; four l.subst l.lost l.clipNozzle l.clipEnergy)
  | 2 => (0x25, four c.framing c.crc c.format c.dup ++ four c.lost c.accepted 0 0)
  | 3 => (0x62, four e.rxFrames e.txFrames e.rxFcs e.rxShort ++ four e.rxLong e.rxPause e.rxFiltered e.rxRingFull ++
      four e.txLate e.txExpired e.txNoLink e.tsLost ++ four s.time.ptp.ignored 0 0 0)
  | 4 => (0x50, four (missedOf s 0) (missedOf s 1) (missedOf s 2) 0 ++ four (missedOf s 3) (missedOf s 4) (missedOf s 5) 0)
  | 5 => (0x10, four s.host.linkCrc s.host.accessDiscard s.host.nakSent s.host.nakReceived)
  | 6 => (0x11, four s.codec.hostCheck s.codec.restarted s.codec.released s.codec.discarded)
  | 7 => (0x61, four w.leaseStale w.wireRefused w.msgRefused w.xcheck)
  | 8 => (0x40, four s.fbo[0].lost s.fbo[1].lost 0 0)
  | 9 => (0x73, four f.mramCe f.logCvSkipped f.logLost f.accDamaged)
  | _ => (0x10, [])

/-- `ev.counters` of a group (R533); the LINK group is reported for each link, and the CAMERA group only where the audit is (R4). -/
def reportGroup (g : Nat) (s : State) : State :=
  let one (src : Nat) (p : List Byte) (s : State) : State := emit { code := 0x0F02, source := src, status := g, payload := p } s
  let s := if g = 2 ∧ (!Config.hasAudit || s.sys.legacy) then s else one (groupPayload g s).1 (groupPayload g s).2 s
  let s := if g = 5 then
      one 0x60 (four s.twinLink.linkCrc s.twinLink.accessDiscard s.twinLink.nakSent s.twinLink.nakReceived) s
    else s
  { s with evr := { s.evr with dirtyGroups := s.evr.dirtyGroups.filter (· ≠ g) } }

/-- Every group is reported, at `job.close` and on entry into SAFESTOP (R533). -/
def reportCounters (s : State) : State := [1, 2, 3, 4, 5, 6, 7, 8, 9].foldl (fun s g => reportGroup g s) s

end Sys2Proof.Machine
end

