-- ==== Sys2Proof/Machine/Swaps.lean ====
section
/-! DEFINITION. Swaps of the greyscale, substitution and waveform tables: the moments at which they are made (R189, R205, Table 7.3),
linked pairs (R206) and what a swap changes. -/
namespace Sys2Proof.Machine

/-- One port's line path changed. -/
def setLine (p : Nat) (f : PortLine → PortLine) (s : State) : State := { s with swath := { s.swath with line := updAt s.swath.line p f } }

/-- One waveform engine changed. -/
def setWave (p : Nat) (f : WavePort → WavePort) (s : State) : State := { s with wave := updAt s.wave p f }

/-- When a swap may be made (R189, Table 7.3). -/
inductive Moment where
  | permission | token | atOnce
deriving DecidableEq, Repr

/-- A greyscale or substitution swap is allowed at a moment (R189). -/
def tableMoment (s : State) (m : Moment) : Bool :=
  let impala := s.sys.profile = .impala
  match m with
  | .permission => true
  | .token => impala && s.sys.mode.firing
  | .atOnce => s.sys.mode = .idle || (s.sys.mode = .hold && impala)

/-- The bank in a port's shadow. -/
def shadowBank (w : WavePort) : Option Bank := (w.banks[1 - w.active]?).join

/-- The active bank of a port. -/
def activeBank (w : WavePort) : Option Bank := (w.banks[w.active]?).join

/-- A waveform swap is allowed at a moment (Table 7.3). -/
def waveMoment (s : State) (p : Nat) (m : Moment) : Bool :=
  let w := nthOr s.wave p {}
  let impala := s.sys.profile = .impala
  match m with
  | .permission => true
  | .token => impala && s.sys.mode.firing && (shadowBank w).map (·.rest) == (activeBank w).map (·.rest)
  | .atOnce => s.sys.mode = .idle || s.sys.mode = .home || s.sys.mode = .safestop || s.sys.mode = .service ||
      (s.sys.mode = .hold && impala)

/-- `ev.table_swap` (Table 19.3). -/
def evTableSwap (source table first cv flags : Nat) (s : State) : State :=
  emit { code := 0x0602, source := source, flags := flags, payload := leBytes 1 table ++ zeros 3 ++ leBytes 4 first ++ leBytes 4 cv ++ zeros 4 } s

/-- A port's greyscale pair, and a change of it. -/
def greyPair (s : State) (p : Nat) : GreyPair := nthOr s.swath.grey p {}
def setGrey (p : Nat) (f : GreyPair → GreyPair) (s : State) : State := { s with swath := { s.swath with grey := updAt s.swath.grey p f } }

/-- A port's greyscale swap is made. -/
def swapGrey (p first : Nat) (linked : Bool) (s : State) : State :=
  match (greyPair s p).built with
  | none => s
  | some g =>
    let s := setGrey p (fun q => { q with active := some g, shadow := .empty, built := none, pending := none, side := 1 - q.side }) s
    mirror (swapRecord p (2 + bitAt linked 3) first g.cv) (evTableSwap (0x30 + p) p first g.cv (bitAt linked 0) s)

/-- The rest move that a new active bank asks for (R210): equal steps of at most MAX_STEP, one step when it is 0. Where the steps do not
divide the distance, whether every level between is rounded down or up is a free value of the move (log 3). -/
def restMoveTo (b : Bank) (up : Bool) (w : WavePort) : WavePort :=
  if w.level = b.rest then { w with move := none }
  else
    let d := max w.level b.rest - min w.level b.rest
    { w with move := some { origin := w.level, target := b.rest, steps := if b.maxStep = 0 then 1 else ceilDiv d b.maxStep, up := up } }

/-- The next free value is taken. -/
def freeBool (s : State) : Bool × State := (Config.freeNat s.free % 2 == 1, { s with free := s.free + 1 })

/-- A port's bank becomes active with its rest move (R205, R210). -/
def activateBank (p : Nat) (b : Bank) (s : State) : State :=
  let (up, s) := freeBool s
  setWave p (fun w => restMoveTo b up { w with active := 1 - w.active, shadow := .empty, pending := none }) s

/-- A port's bank swap is made. -/
def swapWave (p first : Nat) (linked : Bool) (s : State) : State :=
  match shadowBank (nthOr s.wave p {}) with
  | none => s
  | some b =>
    let s := activateBank p b s
    mirror (swapRecord p (4 + bitAt linked 3) first b.cv) (evTableSwap (0x30 + p) (0x20 + p) first b.cv (bitAt linked 0) s)

/-- The substitution swap is made: a port that has not reached its job line goes on with the map before (R189). -/
def swapSubst (first : Nat) (s : State) : State :=
  match s.swath.subst.built with
  | none => s
  | some m =>
    let byAudit := s.swath.subst.byAudit
    let q := s.swath.subst
    let read := ((portsOn s).map fun p => (nthOr s.swath.line p {}).readLine).foldl min first
    let olds := if s.swath.active || s.parked.isSome then (q.olds.filter fun e => decide (read < e.2)) ++ [(q.active, first)] else []
    let s := { s with swath := { s.swath with subst := { q with
      active := m, shadow := .empty, built := none, pending := none, byAudit := false, olds := olds, side := 1 - q.side } } }
    mirror (swapRecord 0 1 first m.cv) (evTableSwap 2 0x10 first m.cv (bitAt byAudit 1) s)

/-- A port's greyscale request is linked with its waveform request (R206). -/
def isLinked (s : State) (p : Nat) : Bool := match (greyPair s p).pending with | some q => q.link | none => false

/-- A port's pending swaps that are due at a moment are made, the linked pair together (R189, R205, R206). -/
def swapPort (m : Moment) (first p : Nat) (s : State) : State :=
  let g := greyPair s p; let w := nthOr s.wave p {}
  let gReady := g.pending.isSome && g.shadow == .ready && tableMoment s m
  let wReady := w.pending.isSome && w.shadow == .ready && waveMoment s p m
  if isLinked s p then
    if gReady && wReady then swapWave p first true (swapGrey p first true s)
    else if wReady && !gReady && g.pending.isNone then swapWave p first false s
    else s
  else
    let s := if gReady then swapGrey p first false s else s
    if wReady then swapWave p first false s else s

/-- The first job line that no port has prepared, L_sw, in the job's swath that runs or is set aside; else the first of the next one (R189). -/
def substLine (s : State) : Nat :=
  if s.parked.any (·.1.active) then ((portsOn s).map fun p => (nthOr s.swath.line p {}).readLine).foldl max 0
  else if s.swath.active then ((portsOn s).map fun p => (nthOr s.swath.line p {}).readLine).foldl max s.swath.first
  else (s.swath.plans.head?.map (·.first)).getD s.job.pacLine.toNat

/-- The pending substitution swap is made when due. -/
def swapSubstDue (m : Moment) (s : State) : State :=
  if s.swath.subst.pending.isSome && s.swath.subst.shadow == .ready && tableMoment s m then swapSubst (substLine s) s else s

/-- The first firing line a swap made at once applies to: 0 of the next swath, or the first line not yet prepared (R189). -/
def firstUnprepared (s : State) (p : Nat) : Nat := if s.swath.active then (nthOr s.swath.line p {}).prep else 0

/-- The audit's rebuild of the substitution map starts once the mode is IDLE and no host load is BUILDING or pending; its swap is requested with
it (R190, R324). A host table that is READY with no swap requested gives way to it (log 40). -/
def startRebuild (s : State) : State :=
  let q := s.swath.subst
  if s.audit.edits.isEmpty || s.sys.mode != .idle || q.shadow == .building || q.pending.isSome then s
  else bgStart .subst { s with swath := { s.swath with subst := { q with
    shadow := .building, built := none, byAudit := true, pending := some { required := false, link := false } } } }

/-- Every swap that the mode allows at once is made. -/
def swapsAtOnce (s : State) : State :=
  if s.sys.mode = .follow then s
  else startRebuild (swapSubstDue .atOnce ((List.range 16).foldl (fun s p => swapPort .atOnce (firstUnprepared s p) p s) s))

/-! ## The waveform streams -/

/-- The stream of a port starts with IDLE frames (R215). -/
def startStream (s : State) (p : Nat) (w : WavePort) : WavePort :=
  let level := match activeBank w with | some b => b.rest | none => restDefaultOf s p
  { w with on := true, ending := false, frameNo := 0, lead := 0, drive := 0, led := false, frType := 0, frBank := w.active, frRest := level, level := level
           move := none, played := [], test := 0, testNew := false }

/-- The streams of every port of the part start, or stop once the frame being sent has ended (R215). -/
def startStreams (s : State) : State :=
  { s with wave := Vector.ofFn fun i => if i.val < Config.ports then startStream s i.val s.wave[i] else s.wave[i] }
def stopStreams (s : State) : State := { s with wave := s.wave.map fun w => { w with ending := w.on } }

end Sys2Proof.Machine
end

