-- ==== Sys2Proof/Machine/Ops.lean ====
section
/-! DEFINITION. Shared operations: changes of mode (R36), discards (R411), faults (R401 to R407), SAFESTOP (R414), releases
(R417), and the end of a command (R68, R72). -/
namespace Sys2Proof.Machine

/-! ## Modes -/

/-- The payload of `ev.mode` (Table 19.2). -/
def modePayload (old new : Mode) (slot prior : Nat) (s : State) : List Byte :=
  leBytes 1 old.code ++ leBytes 1 new.code ++ leBytes 1 slot ++ [0] ++ leBytes 4 s.job.pacLine.toNat ++
    leBytes 4 (if s.job.isOpen then s.job.id else 0) ++ leBytes 1 prior ++ zeros 3

/-- The drive links stop and the microstep enables fall in the modes whose outputs are off (R358, R361). -/
def axesOff (new : Mode) (s : State) : State :=
  match new with
  | .keepalive | .boot | .configure | .follow | .service =>
    { s with drive := s.drive.map fun d => { d with running := false }, axes := s.axes.map fun x => { x with msEn := false } }
  | _ => s

/-- `ev.fire_cut` for a cycle that has opened windows and leaves others unopened (R239). -/
def reportCut (p : Nat) (c : Cycle) (s : State) : State :=
  let nwin := (cycleBank (nthOr s.wave p {}) c).elim 0 (·.nwin)
  if c.opened ≠ 0 && !c.cut && decide (c.next < nwin) then
    emit { code := 0x0804, source := 0x30 + p, payload := leBytes 1 p ++ leBytes 1 c.opened ++ zeros 2 ++ leBytes 4 c.line.lineId ++ zeros 8 } s
  else s

/-- A port that may no longer fire: the window that is open runs on to its END, no other opens, no latch is issued, and cycles left with windows
unopened are reported (R239). -/
def cutPort (p : Nat) (s : State) : State :=
  let s := (nthOr s.wave p {}).cycles.foldl (fun s c => reportCut p c s) s
  setWave p (fun w => { w with token := none, cycles := (w.cycles.filter fun c => c.open_.isSome).map fun c => { c with cut := true } }) s

/-- A frame in progress at a change out of the firing modes is finished and never latched (R37); a head line whose token is still to come is shifted
again when firing goes on. -/
def killFrame (active : Bool) (next : Nat) (l : PortLine) : PortLine :=
  match l.shifting with
  | some (h, _) =>
    if l.dead then l else { l with dead := true, ready := if active && l.ready.isNone && decide (next ≤ h.f) then some h else l.ready }
  | none => l

/-- The change out of a firing mode acts on every port as a fall of the fire permit (R37, R239). -/
def leaveFiring (s : State) : State :=
  let s := (List.range 16).foldl (fun s p => cutPort p s) s
  { s with swath := { s.swath with line := Vector.ofFn fun i => killFrame s.swath.active s.pace.port[i].next s.swath.line[i] } }

/-- A change of mode with its cause and the scheduler slot that applied it (0xFF for none): SYS_MODE, SYS_IRQ_STATUS.MODE, the
mode history and, except into BOOT and KEEPALIVE, `ev.mode` (R36). While a warm reset waits for its flush the mode stays: that transition has
precedence over every other (R41). -/
def changeModeBy (slot : Nat) (new : Mode) (cause : Nat) (s : State) : State :=
  if s.sys.resetPending then s else
  let old := s.sys.mode
  let s := countTime (if old.firing && !new.firing then leaveFiring s else s)
  let prior := if old = .boot ∧ new = .configure then (match s.sys.prior with | some m => m.code | none => 0xFF) else 0xFF
  let s := noteMode old new cause (axesOff new { s with sys := { s.sys with mode := new } })
  match new with
  | .boot | .keepalive => s
  | _ =>
    swapsAtOnce <| mirror (stateRecord s)
      (emit { code := 0x0101, status := cause, keep := true, payload := modePayload old new slot prior s } (raiseIrq irqMode s))

/-- A change of mode that no scheduler slot applied. -/
def changeMode (new : Mode) (cause : Nat) (s : State) : State := changeModeBy 0xFF new cause s

/-- The cause code of a command, a fault class, a completion (Table 19.2). -/
def causeFault (c : FClass) : Nat := 0xF000 + c.code
def causeComplete : Nat := 0xE001
def causeHandover : Nat := 0xE002
def causeTakeover : Nat := 0xE003
def causeStart : Nat := 0xE004

/-- The job's last line has fired and the windows of its cycles are closing: the transition into IDLE is under way (R41). -/
def jobEnding (s : State) : Bool := match s.sys.transition with | some tr => tr.waiting.isNone && tr.cause == causeComplete | none => false

/-- A mode transition is in progress: one that leads to another mode, or a warm reset that waits for its flush (R41, R47). -/
def moving (s : State) : Bool := s.sys.transition.isSome || s.sys.resetPending

/-! ## Discard of work in flight -/

/-- A discard of work in flight starts, or a running one is joined (R411 steps 1 to 4, R412). -/
def startDiscard (byCommand : Bool) (cause : Nat) (s : State) : State :=
  match s.faults.discard with
  | some d => { s with faults := { s.faults with discard := some { d with joined := d.joined + 1 } } }
  | none =>
    let s := withholdAll s
    let (s, actions) := cancelFiringActions s
    let (s, first, count) := releasePosted s
    let s := bgStart .discard (endSwathDiscard s)
    { s with faults := { s.faults with
      discard := some { byCommand := byCommand, cause := cause, first := first, slices := count, actions := actions } } }

/-! ## Commands -/

/-- What a command answers: status, detail and response payload. -/
structure Reply where
  status : Status
  detail : Nat := 0
  payload : List Byte := []
deriving DecidableEq, Repr

/-- The window offsets of the areas of MBn (Table 3.5). -/
def cmdArea (n : Nat) : Nat := 0x4000 + 0x800 * n
def respArea (n : Nat) : Nat := cmdArea n + 0x400

/-- The bytes of a response in the format in force (Table 3.6, R84, R525). -/
def responseBytes (c : Command) (r : Reply) (s : State) : List Byte :=
  if s.mbx.fmt1 then
    let p := if r.status = .ok then r.payload else leBytes 2 r.detail
    leBytes 2 r.status.code ++ leBytes 2 c.seq.toNat ++ leBytes 2 p.length ++ zeros 2 ++ p
  else
    leBytes 2 r.status.code ++ leBytes 2 r.detail ++ leBytes 4 c.seq.toNat ++ leBytes 4 r.payload.length ++
      leBytes 4 s.time.tb.toNat ++ r.payload

/-- Bytes put into the response area of a mailbox. -/
def putResponse (n : Fin 8) (bytes : List Byte) (s : State) : State :=
  { s with mbx := { s.mbx with area := Mem.writeN s.mbx.area (respArea n) bytes } }

/-- A mailbox moves to DONE; MB_DONE is set unless NO_IRQ (R69, R70). -/
def markDone (n : Fin 8) (noIrq : Bool) (s : State) : State :=
  let s := { s with mbx := { s.mbx with
    box := s.mbx.box.set n { s.mbx.box[n] with state := .done }
    order := s.mbx.order.filter (· ≠ n) } }
  if noIrq then s else raiseIrq (BitVec.ofNat 15 (2 ^ n.val)) s

/-- The end of an executed command: the whole response is written and stored, MBX_SEQn becomes the command's sequence whatever
the status, and the mailbox reaches DONE (R70, R72). -/
def finishCommand (c : Command) (r : Reply) (s : State) : State :=
  let bytes := responseBytes c r s
  let s := putResponse c.mb bytes s
  let m := s.mbx.box[c.mb]
  let s := { s with mbx := { s.mbx with
    current := none, box := s.mbx.box.set c.mb { m with seq := c.seq, executed := true, stored := bytes } } }
  markDone c.mb c.noIrq s

/-- The end of a command that has waited while Verup went on to others. -/
def answerWaiting (c : Command) (r : Reply) (s : State) : State :=
  let cur := s.mbx.current
  let s := finishCommand c r s
  { s with mbx := { s.mbx with current := cur } }

/-- A refusal: the status and detail, and no effect (R509). -/
def refuse (st : Status) (detail : Nat) (s : State) : Reply × State := ({ status := st, detail := detail }, s)

/-- OK with a response payload. -/
def okWith (payload : List Byte) (s : State) : Reply × State := ({ status := .ok, payload := payload }, s)

/-! ## Fault records -/

/-- The instances a fault climbs through, from the level its class enters at (Table 14.4). -/
def faultPath (c : FClass) (src cell : Nat) : List Inst :=
  match c.entry with
  | .cell => [cellInst src cell, blockInst src, regionInst src, chipInst]
  | .block => [blockInst src, regionInst src, chipInst]
  | .region => [regionInst src, chipInst]
  | .chip => [chipInst]

/-- The status word of a record (Table 3.13). -/
def FaultRec.word (r : FaultRec) : Nat :=
  match r.latch with
  | none => 0
  | some c => c.code + 2 ^ 8 + r.overruns.length * 2 ^ 9 + r.source * 2 ^ 12 + r.repeatN * 2 ^ 20

/-- `ev.fault` (Table 19.6). -/
def evFault (x : Inst) (c : FClass) (frm cell rep flags : Nat) (s : State) : State :=
  emit { code := 0x1001, source := x.source, flags := flags, keep := true,
         payload := leBytes 1 x.level.code ++ leBytes 1 c.code ++ leBytes 1 frm ++ [0] ++ leBytes 2 cell ++ leBytes 2 rep ++
           leBytes 4 s.job.pacLine.toNat ++ zeros 4 } s

/-- A class recurs at the same SOURCE within 10 s of its release (R420). -/
def recurs (c : FClass) (src : Nat) (s : State) : Bool :=
  s.faults.released.any fun r => r.cls = c && r.source = src && decide (s.clock ≤ r.at_ + 8000000000)

/-- What a level does with a class it latches: its own action (Table 14.4), or that of Table 14.3 for an escalated fault. -/
def actionAt (x : Inst) (c : FClass) (escalated : Bool) : FAction :=
  let region : FAction :=
    match x.source with | 1 => .discard | 2 => .withhold | 4 => .permitDiscard | _ => .toChip
  if escalated then
    match x.level with
    | .cell | .block => .blockStop
    | .region => region
    | .chip => .safestop
  else match c.action with
    | .regionStop => region
    | a => a

/-- A stopped block that raises BLOCK_STOP to its region (R405). -/
def stopReports (src : Nat) (s : State) : Bool :=
  regionOf src == 2 || src == 0x11 || src == 0x13 || src == 0x14 ||
    (decide (0x48 ≤ src) && decide (src ≤ 0x51) && jobUsesBlock src s)

/-- A transition that a trigger of higher precedence overtakes (R41): the command that waits for it is refused with BAD_STATE. -/
def dropTransition (s : State) : State :=
  match s.sys.transition with
  | none => s
  | some tr =>
    let s := bgEnd .transition { s with sys := { s.sys with transition := none }, twin := { s.twin with takeAtCommit := false } }
    match tr.waiting with
    | some c => answerWaiting c { status := .badState } s
    | none => s

/-- Entry into SAFESTOP (R414): a discard, the SAFESTOP hold on the axes, the lease released, a flush, the interrupt bit and
`ev.mode`; the fire permit falls with the mode. The streams that FOLLOW had stopped start with IDLE frames (R211), and a unit to which the bar was being
handed takes it no more (R38). BOOT has no way into SAFESTOP (Table 2.3), and a warm reset that waits for its flush has precedence (R41). -/
def enterSafestop (c : FClass) (s : State) : State :=
  if s.sys.mode = .boot ∨ s.sys.resetPending then s else
  let follows := s.sys.mode == .follow
  let s := startDiscard false c.code s
  let s := holdAxesSafestop s
  let s := changeMode .safestop (causeFault c) s
  let s := if follows then startStreams s else s
  let s := dropTransition s
  let s := dropHand (releaseLease c.code s)
  let s := startFlush 4 s
  reportCounters (raiseIrq irqSafestop s)

/-- The block stops (R405). -/
def stopBlock (src : Nat) (s : State) : State :=
  stopBlockOutputs src { s with faults := { s.faults with
    stopped := if src ∈ s.faults.stopped then s.faults.stopped else src :: s.faults.stopped } }

/-- Fault c from source frm reaches the first instance of a path (R401): latch, repeat (R402), or overrun and escalation
(R403, R404). A class that recurs carries RECUR whichever it is (R420), and a latch whose class has been passed to the chip is marked so, also where a
repeat passes it (R416). The first argument bounds the climb. -/
def arrive : Nat → List Inst → FClass → Nat → Nat → Bool → State → State
  | 0, _, _, _, _, _, s => s
  | _ + 1, [], _, _, _, _, s => s
  | n + 1, x :: up, c, frm, cell, esc, s =>
    let r := recOf s x
    let escFlag := (if esc then 2 else 0) + (if recurs c frm s then 8 else 0)
    match r.latch with
    | none =>
      let flags := escFlag
      let a := actionAt x c esc
      let usesChip := a = .toChip || (a = .axis && jobUsesBlock x.source s)
      let s := setRec { r with
        latch := some c, source := frm, repeatN := 0, seen := [frm], toChip := usesChip
        discards := a = .discard || a = .withhold || a = .permitDiscard, permit := a = .permitDiscard } s
      let s := evFault x c frm cell 0 flags s
      let s := logLatch x c frm cell flags s
      match a with
      | .blockStop =>
        let s := stopBlock x.source s
        if stopReports x.source s then arrive n up .blockStop x.source 0xFFFF false s else s
      | .discard => startDiscard false c.code s
      | .withhold => startDiscard false c.code (withholdAll s)
      | .permitDiscard => startDiscard false c.code s
      | .safestop => enterSafestop c s
      | .axis =>
        let s := axisFaultHold x.source s
        if usesChip then arrive n [chipInst] c (regionOf x.source) cell true s else s
      | .toChip => arrive n [chipInst] c (regionOf x.source) cell true s
      | .byOwner | .regionStop => s
    | some l =>
      if l = c then
        let passes := !esc && x.level ≠ .chip && (c.action = .toChip || (c.action = .axis && jobUsesBlock x.source s))
        let s1 := setRec { r with
          repeatN := min (r.repeatN + 1) 4095, seen := if frm ∈ r.seen then r.seen else frm :: r.seen, toChip := r.toChip || passes } s
        let s1 := if frm ∈ r.seen then s1 else evFault x c frm cell (min (r.repeatN + 1) 4095) (escFlag + 4) s1
        if passes then arrive n [chipInst] c (regionOf x.source) cell true s1 else s1
      else
        let e : Overrun := { cls := c, source := frm, cell := cell, time := s.time.tb.setWidth 32 }
        let r1 := if r.overruns.length < 4 then { r with overruns := r.overruns ++ [e] }
          else { r with olost := satAdd 16 r.olost 1 }
        let s1 := evFault x c frm cell 0 (escFlag + 1) (setRec r1 s)
        if x.level = .chip then s1 else arrive n up c x.source cell true s1

/-- Classes that are consequences of withheld lines (R406). -/
def isConsequence (c : FClass) : Bool :=
  c = .underrun || c = .shiftLate || c = .lineCheck || c = .overspeed || c = .startLate

/-- Classes that legacy behaviour never raises (14.3). -/
def notInLegacy (c : FClass) : Bool :=
  c = .dutyLimit || c = .pairMismatch || c = .lineCheck || c = .xcheckMismatch || c = .audEcc

/-- A class can arise in the present mode: in BOOT only CORE_WDOG, from the moment Verup starts (R54); in KEEPALIVE none. -/
def canArise (c : FClass) (s : State) : Bool :=
  match s.sys.mode with
  | .keepalive => false
  | .boot => s.sys.phase == .starting && c == .coreWdog
  | _ => true

/-- A fault class raised by a source (R401), with R406 and the legacy exclusions applied. -/
def raiseFault (c : FClass) (src cell : Nat) (s : State) : State :=
  if !canArise c s then s
  else if isConsequence c && isWithheld s then s
  else if s.sys.legacy && notInLegacy c then s
  else arrive 8 (faultPath c src cell) c (if c.entry = .chip then 0 else src) cell false s

/-- A latch is released by a rule (R417): the record is cleared and `ev.fault_release` raised. -/
def releaseLatch (x : Inst) (rule : ReleaseRule) (s : State) : State :=
  let r := recOf s x
  match r.latch with
  | none => s
  | some c =>
    let s := logRelease r c s
    let s := emit { code := 0x1003, source := x.source, status := rule.code, keep := true,
                    payload := leBytes 1 x.level.code ++ leBytes 1 c.code ++ leBytes 2 x.cell ++ leBytes 2 r.repeatN ++
                      leBytes 1 r.overruns.length ++ [0] ++ leBytes 2 r.olost ++ zeros 6 } s
    { s with faults := { s.faults with
      recs := s.faults.recs.filter fun q => q.inst ≠ x
      released := { cls := c, source := r.source, at_ := s.clock } ::
        s.faults.released.filter fun q => !(q.cls = c && q.source = r.source) } }

/-- Every latch a test picks is released by one rule, in ascending SOURCE order (R529), the older first at one SOURCE. -/
def releaseWhere (pick : FaultRec → Bool) (rule : ReleaseRule) (s : State) : State :=
  let rs := (s.faults.recs.filter pick).reverse
  ((List.range 256).flatMap fun k => rs.filter fun r => r.inst.source == k).foldl (fun s r => releaseLatch r.inst rule s) s

end Sys2Proof.Machine
end

