-- ==== Sys2Proof/Machine/Operands.lean ====
section
/-! DEFINITION. The operand forms of commands: the header and payload layout of every opcode (18.4 to 18.9), parameter lists
(R510, R511), the order of refusals (R507) and the detail field (R508). -/
namespace Sys2Proof.Machine

/-! ## The command table -/

/-- The payload layout of an opcode. -/
inductive Layout where
  /-- exactly n bytes. -/
  | fixed (n : Nat)
  /-- a parameter list whose prefix stands at the given offset. -/
  | list (base : Nat)
  /-- life.write: 8 bytes and the LEN of offset 4, from 1 to 1000. -/
  | lifeWrite
deriving DecidableEq, Repr

/-- One row of Tables 18.6 to 18.13: opcode, modes, layout and reserved payload bytes as (offset, length). -/
structure OpRow where
  op : Nat
  modes : List Mode
  layout : Layout
  reserved : List (Nat × Nat) := []
deriving DecidableEq, Repr

/-- All ten modes of R506. -/
def allModes : List Mode :=
  [.configure, .idle, .home, .maintain, .print, .hold, .audit, .follow, .safestop, .service]

/-- The rows of Tables 18.6 and 18.8. -/
def opRowsA : List OpRow :=
  [ ⟨0x0101, allModes, .fixed 4, [(2, 2)]⟩,
    ⟨0x0102, [.configure, .idle, .home, .maintain, .print, .hold, .audit, .follow, .service], .fixed 0, []⟩,
    ⟨0x0103, [.idle, .safestop], .fixed 0, []⟩,
    ⟨0x0104, [.configure, .service], .fixed 4, [(1, 1)]⟩,
    ⟨0x0201, [.configure], .list 0, []⟩,
    ⟨0x0202, [.configure], .list 0, []⟩,
    ⟨0x0203, [.configure], .fixed 0, []⟩,
    ⟨0x0301, [.idle, .follow], .list 16, [(11, 1)]⟩,
    ⟨0x0302, [.idle], .fixed 0, []⟩,
    ⟨0x0303, [.print], .fixed 0, []⟩,
    ⟨0x0304, [.hold], .fixed 0, []⟩,
    ⟨0x0305, [.print, .hold], .fixed 0, []⟩,
    ⟨0x0306, [.idle, .follow, .safestop], .fixed 0, []⟩,
    ⟨0x0401, [.idle, .print, .hold, .follow], .fixed 16, [(12, 4)]⟩,
    ⟨0x0501, allModes, .fixed 56, [(52, 4)]⟩,
    ⟨0x0502, allModes, .fixed 56, [(52, 4)]⟩,
    ⟨0x0503, allModes, .list 0, []⟩,
    ⟨0x0601, [.configure, .idle, .home, .maintain, .print, .hold, .audit, .follow], .fixed 16, [(1, 7)]⟩,
    ⟨0x0602, [.configure, .idle, .home, .maintain, .print, .hold, .audit, .follow], .fixed 136, [(2, 6)]⟩,
    ⟨0x0603, [.idle, .maintain, .print, .hold, .audit], .fixed 4, [(2, 2)]⟩,
    ⟨0x0701, allModes, .fixed 16, [(1, 1), (4, 4)]⟩,
    ⟨0x0702, [.configure, .idle, .home, .maintain, .print, .hold, .audit, .safestop, .service], .fixed 4, [(2, 2)]⟩,
    ⟨0x0703, [.configure], .list 0, []⟩,
    ⟨0x0704, [.service], .fixed 4, []⟩ ]

/-- The rows of Table 18.9 and the first half of Table 18.11. -/
def opRowsB : List OpRow :=
  [ ⟨0x0801, allModes, .fixed 4, [(2, 2)]⟩,
    ⟨0x0802, [.configure, .service], .fixed 264, [(2, 6)]⟩,
    ⟨0x0901, allModes, .list 0, []⟩,
    ⟨0x0902, allModes, .fixed 16, [(1, 7)]⟩,
    ⟨0x0903, allModes, .fixed 4, [(3, 1)]⟩,
    ⟨0x0904, allModes, .fixed 4, [(1, 3)]⟩,
    ⟨0x0905, allModes, .list 0, []⟩,
    ⟨0x0A01, [.idle, .follow], .list 0, []⟩,
    ⟨0x0A02, [.idle, .print, .hold], .fixed 16, [(9, 7)]⟩,
    ⟨0x0A03, allModes, .fixed 0, []⟩,
    ⟨0x0B01, [.idle, .hold], .fixed 16, [(14, 2)]⟩,
    ⟨0x0B02, [.maintain], .fixed 0, []⟩,
    ⟨0x0C01, [.configure, .idle], .list 0, []⟩,
    ⟨0x0C02, [.idle], .list 0, []⟩,
    ⟨0x0C03, [.audit], .fixed 0, []⟩,
    ⟨0x0D01, [.configure], .list 0, []⟩,
    ⟨0x0D02, allModes, .list 0, []⟩,
    ⟨0x0D03, [.idle, .maintain, .print, .hold], .fixed 16, [(2, 2)]⟩,
    ⟨0x0D04, [.idle, .home, .maintain, .print, .hold, .safestop], .fixed 4, [(2, 2)]⟩,
    ⟨0x0D05, [.idle, .maintain, .print, .hold], .fixed 4, [(1, 3)]⟩,
    ⟨0x0D06, [.idle], .fixed 4, [(1, 3)]⟩,
    ⟨0x0E01, [.configure], .list 0, []⟩,
    ⟨0x0E02, [.configure], .fixed 8, [(4, 4)]⟩,
    ⟨0x0E03, allModes, .fixed 4, [(1, 3)]⟩,
    ⟨0x0E04, [.configure, .idle, .home, .maintain, .print, .hold, .audit, .follow, .safestop], .fixed 24, [(3, 1)]⟩ ]

/-- The second half of Table 18.11 and Table 18.12. -/
def opRowsC : List OpRow :=
  [ ⟨0x0E05, allModes, .fixed 8, [(1, 1), (6, 2)]⟩,
    ⟨0x0E06, [.configure, .service], .fixed 12, [(5, 1)]⟩,
    ⟨0x0E07, [.service], .fixed 24, [(3, 5)]⟩,
    ⟨0x0F01, allModes, .fixed 32, [(5, 1)]⟩,
    ⟨0x0F02, allModes, .fixed 4, [(1, 3)]⟩,
    ⟨0x0F03, allModes, .fixed 16, [(1, 3)]⟩,
    ⟨0x1001, allModes, .fixed 4, []⟩,
    ⟨0x1002, allModes, .fixed 8, [(5, 3)]⟩,
    ⟨0x1003, [.safestop], .fixed 0, []⟩,
    ⟨0x1101, allModes, .fixed 4, [(1, 3)]⟩,
    ⟨0x1201, [.configure], .list 0, []⟩,
    ⟨0x1202, [.idle, .follow, .safestop], .fixed 0, []⟩,
    ⟨0x1203, [.idle, .print, .hold], .fixed 0, []⟩,
    ⟨0x1204, [.idle, .hold, .safestop], .fixed 4, [(1, 3)]⟩,
    ⟨0x1205, [.idle, .follow], .fixed 0, []⟩,
    ⟨0x1301, [.configure, .idle], .list 0, []⟩,
    ⟨0x1302, allModes, .fixed 8, []⟩,
    ⟨0x1303, allModes, .fixed 16, [(1, 7)]⟩,
    ⟨0x1304, allModes, .fixed 40, [(5, 3), (36, 4)]⟩,
    ⟨0x1305, allModes, .fixed 4, [(1, 3)]⟩,
    ⟨0x1306, allModes, .fixed 4, [(2, 2)]⟩,
    ⟨0x1401, [.configure, .idle], .list 0, []⟩,
    ⟨0x1402, allModes, .fixed 8, [(3, 1), (6, 2)]⟩,
    ⟨0x1403, allModes, .fixed 32, [(13, 3), (28, 4)]⟩,
    ⟨0x1404, allModes, .fixed 4, [(2, 2)]⟩,
    ⟨0x1405, allModes, .fixed 4, [(1, 3)]⟩ ]

/-- Table 18.13. -/
def opRowsD : List OpRow :=
  [ ⟨0x1501, allModes, .list 0, []⟩,
    ⟨0x1502, allModes, .fixed 4, [(1, 3)]⟩,
    ⟨0x1503, allModes, .fixed 4, [(2, 2)]⟩,
    ⟨0x1504, allModes, .fixed 16, []⟩,
    ⟨0x1505, allModes, .fixed 4, [(1, 3)]⟩,
    ⟨0x1601, [.configure, .idle], .list 0, []⟩,
    ⟨0x1602, allModes, .fixed 8, [(6, 2)]⟩,
    ⟨0x1603, allModes, .fixed 8, [(1, 1), (6, 2)]⟩,
    ⟨0x1604, allModes, .lifeWrite, [(6, 2)]⟩,
    ⟨0x1605, allModes, .fixed 0, []⟩,
    ⟨0x1606, [.configure, .idle, .service], .fixed 4, []⟩,
    ⟨0x1607, allModes, .fixed 24, [(17, 7)]⟩,
    ⟨0x1608, [.configure, .service], .fixed 4, [(2, 2)]⟩,
    ⟨0x1701, allModes, .fixed 8, []⟩,
    ⟨0x1702, allModes, .fixed 8, [(1, 1), (6, 2)]⟩,
    ⟨0x1703, allModes, .fixed 8, []⟩,
    ⟨0x1801, [.configure, .idle, .safestop], .fixed 0, []⟩,
    ⟨0x1802, [.service], .fixed 0, []⟩ ]

/-- Every opcode of chapter 18 (R505). -/
def opRows : List OpRow := opRowsA ++ opRowsB ++ opRowsC ++ opRowsD

/-- The row of an opcode, if a table of chapter 18 lists it. -/
def opRow (op : Nat) : Option OpRow := opRows.find? fun r => r.op == op

/-! ## Layout checks (R507 step 3, R508) -/

/-- Every byte of a range of the payload is zero. -/
def isZeroAt (p : List Byte) (off n : Nat) : Bool := uAt p off n == 0

/-- The detail of a payload-length error (R508). -/
def lenDetail (fmt1 : Bool) : Nat := if fmt1 then 0x4004 else 0x4008

/-- The first wrong thing of a payload's layout: COUNT, then the length, then reserved fields by offset (R507, R508). -/
def layoutError (row : OpRow) (fmt1 : Bool) (p : List Byte) : Option Nat :=
  let count (b : Nat) : Nat := uAt p (b + 2) 2
  let most (b : Nat) : Nat := if b = 0 then 83 else 82
  let lenOk : Bool := match row.layout with
    | .fixed n => p.length == n
    | .list b => p.length == b + 8 + 12 * count b
    | .lifeWrite => p.length == 8 + uAt p 4 2
  let countErr : Option Nat := match row.layout with
    | .list b => if decide (b + 4 ≤ p.length) && (count b == 0 || decide (most b < count b)) then some (b + 2) else none
    | .lifeWrite => if decide (6 ≤ p.length) && (uAt p 4 2 == 0 || decide (1000 < uAt p 4 2)) then some 4 else none
    | .fixed _ => none
  let listReserved : List (Nat × Nat) := match row.layout with
    | .list b => [(b + 1, 1), (b + 4, 4)]
    | _ => []
  match countErr with
  | some d => some d
  | none =>
    if !lenOk then some (lenDetail fmt1)
    else ((row.reserved ++ listReserved).find? fun r => !isZeroAt p r.1 r.2).map (·.1)

/-! ## Parameter lists -/

/-- The items of a parameter list whose prefix stands at an offset (R510). -/
def listItems (p : List Byte) (base : Nat) : List PItem :=
  (List.range (uAt p (base + 2) 2)).map fun i =>
    let o := base + 8 + 12 * i
    { id := uAt p o 2, index := uAt p (o + 2) 2, value := iAt p (o + 4) 8 }

/-- TARGET of a parameter list. -/
def listTarget (p : List Byte) (base : Nat) : Nat := uAt p base 1

/-- One parameter of a set: its ID, its number of elements, its range and its fixed default. -/
structure PSpec where
  id : Nat
  count : Nat
  lo : Int
  hi : Int
  dflt : Option Int
deriving DecidableEq, Repr

/-- An item placed in a set, by rising (ID, INDEX). -/
def pset (ps : ParamSet) (it : PItem) : ParamSet :=
  match ps with
  | [] => [it]
  | q :: qs =>
    if it.id < q.id ∨ (it.id = q.id ∧ it.index < q.index) then it :: q :: qs
    else if it.id = q.id ∧ it.index = q.index then it :: qs
    else q :: pset qs it

/-- The set after every item of a list (R511). -/
def pmerge (ps : ParamSet) (its : List PItem) : ParamSet := its.foldl pset ps

/-- An item that breaks its own parameter: unknown ID, INDEX out of range, or VALUE out of range. -/
def itemBad (specs : List PSpec) (it : PItem) : Bool :=
  match specs.find? fun q => q.id == it.id with
  | none => true
  | some q => decide (q.count ≤ it.index) || decide (it.value < q.lo) || decide (q.hi < it.value)

/-- The lowest item that is wrong by itself or names an element a second time. -/
def firstBadItem (specs : List PSpec) : Nat → List PItem → List PItem → Option Nat
  | _, _, [] => none
  | i, before, it :: rest =>
    if itemBad specs it || before.any (fun b => b.id == it.id && b.index == it.index) then some i
    else firstBadItem specs (i + 1) (it :: before) rest

/-- The lowest-numbered item that sets one of the named parameters (R508); 0 when none does. -/
def itemOf (its : List PItem) (ids : List Nat) : Nat := (its.findIdx? fun it => ids.contains it.id).getD 0

/-- A parameter list judged against its set: the merged set, or the detail of BAD_ARG. The relation check names the parameters
of the rule that fails. -/
def judgeList (specs : List PSpec) (relation : ParamSet → Option (List Nat)) (ps : ParamSet) (its : List PItem) :
    Except Nat ParamSet :=
  match firstBadItem specs 0 [] its with
  | some i => .error (0x8000 + i)
  | none =>
    let m := pmerge ps its
    match relation m with
    | some ids => .error (0x8000 + itemOf its ids)
    | none => .ok m

/-- No relation between the parameters. -/
def noRelation (_ : ParamSet) : Option (List Nat) := none

/-- The lowest parameter without a default that a set has never had set (R508). -/
def missingParam (ids : List Nat) (ps : ParamSet) : Option Nat :=
  (ids.find? fun i => (pfind ps i 0).isNone).map (0xC000 + ·)

/-! ## Execution -/

/-- The modes that accept an opcode (R506). -/
def opModes (op : Nat) : List Mode := match opRow op with | some r => r.modes | none => []

/-- What turns a command away in the present mode (R41, R507): BUSY while a mode transition is in progress, BAD_STATE for a `job.hold` at the boundary of
the job's last line, and BAD_STATE outside the modes of its row. -/
def turnedAway (op : Nat) (s : State) : Option Status :=
  if moving s then some (if jobEnding s && !s.sys.resetPending && op == 0x0303 then .badState else .busy)
  else if (opModes op).contains s.sys.mode then none
  else some .badState

/-- The row of an opcode acts on the command that Verup executes or, where that is of another opcode, on the oldest one of this opcode that has
passed MBX_WDOG.LIMIT and holds its mailbox only: it takes its place for the row (R76, Table 14.5). -/
def withStuck (op : Nat) (run : State → State) (s : State) : State :=
  if s.mbx.current.any fun c => c.opcode == op then run s
  else match s.mbx.stuck.find? fun c => c.opcode == op with
    | none => run s
    | some c =>
      let t := run { s with mbx := { s.mbx with current := some c, stuck := s.mbx.stuck.erase c } }
      { t with mbx := { t.mbx with current := s.mbx.current } }

/-- The command being executed, where it has this opcode: the mode that stands by then is judged again (R41), then its checks and effect run on
the payload, and the response is written. -/
def runNow (op : Nat) (f : List Byte → State → Reply × State) (s : State) : State :=
  match s.mbx.current with
  | none => s
  | some c =>
    if c.opcode = op then
      match turnedAway op s with
      | some st => finishCommand c { status := st } s
      | none => let (r, t) := f c.payload s; finishCommand c r t
    else s

/-- A command row: the command that Verup is executing, or one that has passed its limit (R76), is judged and run, and its response is written. -/
def runCommand (op : Nat) (f : List Byte → State → Reply × State) (s : State) : State := withStuck op (runNow op f) s

end Sys2Proof.Machine
end

