-- ==== Sys2Proof/Machine/Dram.lean ====
section
/-! DEFINITION. The DRAM as every requester sees it: the address map (R372), the initialised range (R373, R375), corrections, poison and the error records (R380 to R385), writes held by a sweep (R374), repair-map entries
(R391, R392, R496), and the check-value units' feeds (R394, R395). -/
namespace Sys2Proof.Machine

/-! ## Arrangement and ranges -/

/-- A range reaches beyond the DRAM fitted (R372). -/
def beyondFitted (s : State) (a n : Nat) : Bool := decide (fittedBytes s < a + n)

/-- The part's initialised range in bytes (R373). -/
def initBytes (s : State) : Nat := 2 * min s.mem.init[0] s.mem.init[1] * 2 ^ 20

/-- A range lies partly beyond the initialised range (R375). -/
def uninitRange (s : State) (a n : Nat) : Bool := n != 0 && decide (initBytes s < a + n)

/-- The channel and the local address of a DRAM byte address (R372). -/
def channelOf (a : Nat) : Nat := a / 256 % 2
def localOf (a : Nat) : Nat := a / 512 * 256 + a % 256

/-- Row bits ρ of Table 13.1. -/
def rowBits (s : State) : Nat := match pnat (memCfg s) 1 0 4 with | 16 => 17 | 8 => 16 | _ => 15

/-- The device address of a line: channel, rank, bank group, bank and row (Table 13.3). -/
structure RowAddr where
  ch : Nat
  rank : Nat
  bg : Nat
  bank : Nat
  row : Nat
deriving DecidableEq, Repr

/-- The row an address lies in. -/
def rowAddr (s : State) (a : Nat) : RowAddr :=
  let l := localOf a; let r := rowBits s
  { ch := channelOf a, rank := bitsOf l (17 + r) (17 + r), bg := bitsOf l 7 6, bank := bitsOf l 16 15, row := bitsOf l (16 + r) 17 }

/-- A number for a row, for the counts of R392. -/
def RowAddr.key (r : RowAddr) : Nat := (((r.ch * 2 + r.rank) * 4 + r.bg) * 4 + r.bank) * 2 ^ 17 + r.row

/-! ## Error records -/

/-- The block SOURCE of a memory source for `ev.mem_ue` and `ev.mem_ce_rate`, given the bank for on-die words (R578). -/
def memEventSource (src addr : Nat) : Nat :=
  let bank := addr / 8192
  if src = 0 then 0x13 else if src = 1 then 0x14
  else if src = 2 then 0x20 + bank / 64
  else if src = 3 then 0x11
  else if src = 4 then 0x20 + (bank - 320) / 24
  else if src = 5 then 0x74
  else if src = 6 ∧ bank < 464 then 0x30 + (bank - 448)
  else if src = 6 ∧ bank < 472 then 0x25
  else 0x73

/-- A correctable error counted, logged and put into its bucket (R380 to R382). -/
def countCe (src addr : Nat) (y : BitVec 8) (cls : Nat) (s : State) : State :=
  let m := nthOr s.mem.sources src {}
  let e : CeLog := { addr := addr, syndrome := y.toNat, cls := cls, time := s.time.tb.setWidth 32 }
  let full := pnat (memCfg s) 4 0 64 ≤ m.bucket + 1
  let m' : MemSource := { m with ce := wrapAdd 32 m.ce 1, log := (e :: m.log).take 16, bucket := if full then 0 else m.bucket + 1 }
  let s := { s with mem := { s.mem with sources := updAt s.mem.sources src fun _ => m' } }
  if full then
    emit { code := 0x0E02, source := memEventSource src addr,
           payload := leBytes 8 addr ++ leBytes 1 src ++ leBytes 1 e.syndrome ++ leBytes 1 cls ++ [0] ++ leBytes 4 e.time.toNat } s
  else s

/-- `ev.mem_ue` (R384, R385, R388). FLAGS: SCRUB 1, POISONED 2, WRITE_DROPPED 4. -/
def evUe (src addr : Nat) (y : BitVec 8) (cls beat flags : Nat) (s : State) : State :=
  emit { code := 0x0E03, source := memEventSource src addr, flags := flags, keep := true,
         payload := leBytes 8 addr ++ leBytes 1 src ++ leBytes 1 y.toNat ++ leBytes 1 cls ++ leBytes 1 beat ++ zeros 4 } s

/-- An uncorrectable error counted and, unless a test made it, reported (R384, R393). -/
def countUe (src addr : Nat) (y : BitVec 8) (cls beat flags : Nat) (quiet : Bool) (s : State) : State :=
  let s := { s with mem := { s.mem with sources := updAt s.mem.sources src fun m => { m with ue := wrapAdd 32 m.ue 1 } } }
  if quiet then s else evUe src addr y cls beat flags s

/-! ## Repair-map entries (R391, R392, R496) -/

/-- `ev.mem_repair`: 0 ADDED, 1 SKIPPED, 2 REPAIRED, 3 FAILED, 4 MAP_FULL, 5 CANDIDATE. -/
def evMemRepair (status : Nat) (e : RepairEntry) (index : Nat) (s : State) : State :=
  emit { code := 0x0E05, status := status, payload := padTo 8 e ++ leBytes 2 index ++ zeros 6 } s

/-- The repair map is written when the MRAM may be, and kept on die in any case. -/
def putRepairs (es : List RepairEntry) (s : State) : State :=
  if lifeWritable s then writeRepairs es s else { s with life := { s.life with repairs := es, repairsDirty := true } }

/-- An entry is added to the map of 251 at the first index that is free, or MAP_FULL is reported (R496). -/
def addRepair (status : Nat) (e : RepairEntry) (s : State) : State :=
  let es := s.life.repairs
  match es.findIdx? fun q => uAt q 0 1 == 0 with
  | some i => evMemRepair status e i (putRepairs (es.set i e) s)
  | none => if 251 ≤ es.length then evMemRepair 4 e 0xFFFF s else evMemRepair status e es.length (putRepairs (es ++ [e]) s)

/-- The entry of a DRAM row (Table 17.7). -/
def rowEntry (state cause : Nat) (r : RowAddr) : RepairEntry :=
  [3] ++ leBytes 1 state ++ leBytes 1 (r.ch + 2 * r.rank + 4 * r.bg + 16 * r.bank) ++ [0] ++ leBytes 2 (r.row % 65536) ++
    leBytes 1 (r.row / 65536) ++ leBytes 1 cause

/-- The row that a DRAM entry of the map names. -/
def entryRow (e : RepairEntry) : RowAddr :=
  { ch := bitsOf (uAt e 2 1) 0 0, rank := bitsOf (uAt e 2 1) 1 1, bg := bitsOf (uAt e 2 1) 3 2, bank := bitsOf (uAt e 2 1) 5 4,
    row := uAt e 4 2 + 65536 * (uAt e 6 1 % 2) }

/-- A DRAM row becomes a repair candidate unless the map already holds it as one (R392). -/
def addCandidate (cause : Nat) (r : RowAddr) (s : State) : State :=
  if s.life.repairs.any fun e => uAt e 0 1 == 3 && uAt e 1 1 == 0 && entryRow e = r then s
  else addRepair 5 (rowEntry 0 cause r) s

/-- A correctable error in a row: at the third since reset the row is a candidate (R392). -/
def countRowCe (a : Nat) (s : State) : State :=
  let r := rowAddr s a
  let n := SMap.get 0 s.mem.rowCe r.key + 1
  let s := { s with mem := { s.mem with rowCe := SMap.put 0 s.mem.rowCe r.key n } }
  if n = 3 then addCandidate 1 r s else s

/-- The entry of an SRAM repair: KIND 1 row or 2 column (Table 17.7). -/
def sramEntry (kind bank index : Nat) : RepairEntry := leBytes 1 kind ++ [0] ++ leBytes 2 bank ++ leBytes 2 index ++ zeros 2

/-- The map holds an SRAM repair. -/
def hasSramRepair (s : State) (kind bank index : Nat) : Bool :=
  s.life.repairs.any fun e => uAt e 0 1 == kind && uAt e 2 2 % 512 == bank && uAt e 4 2 == index

/-- An SRAM repair is added by Verup's own policy unless the map holds it (R391). -/
def addSramRepair (kind bank index : Nat) (s : State) : State :=
  if hasSramRepair s kind bank index then s else addRepair 0 (sramEntry kind bank index) s

/-- A correctable error of an on-die word, whose bit i in a bank lies in bit-column 8i + s: the repairs of R391, the column's before the row's. -/
def countBankCe (addr bit : Nat) (s : State) : State :=
  let bank := addr / 8192; let row := addr % 8192 / 8; let col := 8 * bit + addr % 8
  if 448 ≤ bank then s
  else
    let ces := (bank, row, col) :: s.mem.bankCe
    let s := { s with mem := { s.mem with bankCe := ces } }
    let inCol := ((ces.filter fun e => e.1 == bank && e.2.2 == col).map (·.2.1)).eraseDups.length
    let inRow := (ces.filter fun e => e.1 == bank && e.2.1 == row).length
    if 4 ≤ inCol then addSramRepair 2 bank col s else if 3 ≤ inRow then addSramRepair 1 bank row s else s

/-- An uncorrectable error of a bank's word calls for a row repair (R391). -/
def noteBankUe (addr : Nat) (s : State) : State := if addr / 8192 < 448 then addSramRepair 1 (addr / 8192) (addr % 8192 / 8) s else s

/-- The priority class in the record of an on-die word: a class of Table 1.5 that the manual does not name (log 3). -/
def ondieClass (s : State) : Nat := 1 + Config.freeNat s.free % 6

/-- The data of an on-die word is from now on known. -/
def setWord (addr d : Nat) (s : State) : State :=
  { s with mem := { s.mem with ondieData := (addr, d) :: s.mem.ondieData.filter fun e => e.1 != addr } }

/-- Data bits of an on-die word whose data is known flip. -/
def flipWord (addr x : Nat) (s : State) : State :=
  { s with mem := { s.mem with ondieData := s.mem.ondieData.map fun e => if e.1 = addr then (e.1, e.2 ^^^ x) else e } }

/-- The data bit that a syndrome names, as a mask. -/
def syndromeBit (y : BitVec 8) : Nat := match classify y with | .dataBit j => 2 ^ j | _ => 0

/-- An on-die word poisoned: data 0 with every check bit of R376 inverted (R383). -/
def poisonWord (addr : Nat) (s : State) : State :=
  setWord addr 0 { s with mem := { s.mem with ondie := SMap.put 0 s.mem.ondie addr 0xFF } }

/-- An on-die word found uncorrectable by its owner, whose block is given: counted, reported and poisoned (R384, R576). -/
def ownerUe (block src addr : Nat) (y : BitVec 8) (s : State) : State :=
  let c := ondieClass s
  let s := poisonWord addr { s with
    free := s.free + 1
    mem := { s.mem with sources := updAt s.mem.sources src fun m => { m with ue := wrapAdd 32 m.ue 1 } } }
  if s.mem.testWords.contains (1, addr) then s
  else
    let e : Event := { code := 0x0E03, source := block, flags := 2, keep := true
                       payload := leBytes 8 addr ++ leBytes 1 src ++ leBytes 1 y.toNat ++ leBytes 1 c ++ zeros 5 }
    noteBankUe addr (emit e s)

/-- A correctable on-die word met by its owner: corrected in place, counted and logged (R380, R391). -/
def ownerCe (src addr bit : Nat) (y : BitVec 8) (s : State) : State :=
  let c := ondieClass s
  countBankCe addr bit (countCe src addr y c { s with free := s.free + 1, mem := { s.mem with ondie := SMap.put 0 s.mem.ondie addr 0 } })

/-- The first check bit of a syndrome that names one. -/
def checkBitOf (y : BitVec 8) : Nat := ((List.range 8).find? fun k => y.getLsbD k).getD 0

/-- An owner reads an on-die word that has lost the bits of a syndrome (R380, R384, R576): whether the word is unusable, and the record of
what was found. Poison, and a word that is poison already, is unusable and makes no record. A word that a test has spoilt is counted as the test's
and raises no fault of its owner (R393, log 13). -/
def ownerFinds (block src addr : Nat) (lost : BitVec 8) (s : State) : Bool × State :=
  let had := SMap.get 0 s.mem.ondie addr
  let bad := !s.mem.testWords.contains (1, addr)
  if had = 0xFF then (bad, s)
  else
    let y := had ^^^ lost
    let fixed := flipWord addr (syndromeBit lost ^^^ syndromeBit y) s
    match classify y with
    | .clean => (false, { fixed with mem := { fixed.mem with ondie := SMap.put 0 s.mem.ondie addr 0 } })
    | .dataBit j => (false, ownerCe src addr j y fixed)
    | .checkBit => (false, ownerCe src addr (64 + checkBitOf y) y fixed)
    | .poison => (bad, { s with mem := { s.mem with ondie := SMap.put 0 s.mem.ondie addr 0xFF } })
    | .uncorrectable => (bad, ownerUe block src addr y s)

/-- The block that owns an on-die word by its number: b × 8192 + w for the SRAM banks (R376, Table 1.6), and above them, by assumption log 13, the
bank stores, the audit store, the fire accumulators, the table stores of the four quadrants, four numbers each, and from 512 on the cell stores. -/
def wordOwner (w : Nat) : Nat :=
  let b := w / 8192
  if b < 256 then 0x20 + b / 64
  else if b < 320 then 0x11
  else if b < 416 then 0x20 + (b - 320) / 24
  else if b < 448 then 0x74
  else if b < 464 then 0x30 + (b - 448)
  else if b < 472 then 0x25
  else if b < 480 then 0x73
  else if b < 512 then 0x20 + (b - 480) / 4 % 4
  else 0x20 + (b - 512) / 128

/-- The memory source of an on-die word (R376, Table 13.5). -/
def ondieSource (addr : Nat) : Nat :=
  let b := addr / 8192
  if b < 256 then 2 else if b < 320 then 3 else if b < 416 then 4 else if b < 448 then 5 else 6

/-- The owner reads the words from lo up to hi: the block of the first one that is unusable, and the records of what was found (R384, R576). -/
def ownerReads (lo hi : Nat) (s : State) : Option Nat × State :=
  ((s.mem.ondie.filter fun e => decide (lo ≤ e.1) && decide (e.1 < hi)).map (·.1)).foldl
    (fun (r : Option Nat × State) k =>
      let q := ownerFinds (wordOwner k) (ondieSource k) k 0 r.2
      (r.1.or (if q.1 then some (wordOwner k) else none), q.2)) (none, s)

/-- An armed INJECT takes effect with the next normal write to its on-die word, whose data the model does not hold (R393). -/
def injectOndie (s : State) (i : Inject) : State :=
  { s with mem := { s.mem with
    injects := s.mem.injects.erase i
    ondie := SMap.put 0 s.mem.ondie i.addr (i.check ^^^ BitVec.ofNat 8 (columnXor dataColumns i.data.toNat)) } }

/-- The banks that hold the words from lo up to hi. -/
def banksOf (lo hi : Nat) : BitVec 448 := if hi ≤ lo then 0 else BitVec.ofNat 448 (2 ^ min 448 ((hi - 1) / 8192 + 1) - 2 ^ min 448 (lo / 8192))

/-- The owner has written words of the banks that hold those from lo up to hi (R379). -/
def useBanks (lo hi : Nat) (s : State) : State := { s with mem := { s.mem with ondieUsed := s.mem.ondieUsed ||| banksOf lo hi } }

/-- The owner writes the words from lo up to hi whole, which ends any poison in them (R576); the injections armed on them act (R393). -/
def ownerWrites (lo hi : Nat) (s : State) : State :=
  (s.mem.injects.filter fun i => i.space == 1 && decide (lo ≤ i.addr) && decide (i.addr < hi)).foldl injectOndie
    { s with mem := { s.mem with
      ondie := SMap.clear s.mem.ondie lo hi, ondieData := SMap.clear s.mem.ondieData lo hi, ondieUsed := s.mem.ondieUsed ||| banksOf lo hi } }

/-! ## The fire accumulator store (R484) -/

/-- `ev.life_damage` (Table 19.8): 1 accumulator word, 2 counter group, 3 record. -/
def evLifeDamage (status port first n block : Nat) (s : State) : State :=
  emit { code := 0x1601, source := lifeSource, status := status
         payload := leBytes 1 port ++ [0] ++ leBytes 2 first ++ leBytes 2 n ++ leBytes 2 block ++ zeros 8 } s

/-- The on-die number of a word of the fire accumulator store (log 13). -/
def accWord (w : Nat) : Nat := 472 * 8192 + w

/-- An accumulator word that cannot be read is rewritten as zero, and its nozzles are named; no fault is raised (R484). -/
def loseAcc (w : Nat) (s : State) : State :=
  evLifeDamage 1 (w / 4096) (2 * w % 8192) 2 0 (touchGroup 9 (ownerWrites (accWord w) (accWord w + 1) { s with life := { s.life with
    acc := SMap.clear s.life.acc (2 * w) (2 * w + 2), accDamaged := satAdd 32 s.life.accDamaged 1 } }))

/-- A word of the accumulator store read where it does not agree with its check bits (R380, R384, R484). -/
def meetAcc (w : Nat) (s : State) : State :=
  let y := SMap.get 0 s.mem.ondie (accWord w)
  match classify y with
  | .clean => s
  | .dataBit _ | .checkBit => ownerCe 6 (accWord w) 0 y s
  | _ => loseAcc w (countUe 6 (accWord w) y (ondieClass s) 0 0 (s.mem.testWords.contains (1, accWord w)) { s with free := s.free + 1 })

/-- The words of the accumulator store that a test picks are read. -/
def meetAccs (pick : Nat → Bool) (s : State) : State :=
  (((s.mem.ondie.map (·.1)).filter fun k => decide (accWord 0 ≤ k) && decide (k < accWord 65536) && pick (k - accWord 0)).map (· - accWord 0)).foldl
    (fun s w => meetAcc w s) s

/-! ## Lines -/

/-- The syndrome of the beat that holds byte address a. -/
def beatSyndrome (s : State) (a : Nat) : BitVec 8 := SMap.get 0 s.mem.synd (a / 8)

/-- A test has written or armed the beat (R393). -/
def isTestBeat (s : State) (a : Nat) : Bool := s.mem.testWords.contains (0, a / 8 * 8)

/-- A line with every beat poisoned (R383). -/
def poisonLine (la : Nat) (s : State) : State :=
  { s with mem := { s.mem with
    dram := SMap.clear s.mem.dram la (la + 64)
    synd := (List.range 8).foldl (fun m k => SMap.put 0 m (la / 8 + k) 0xFF) s.mem.synd } }

/-- What a check of a line finds. -/
inductive LineState where
  | good | poisoned | bad (beat : Nat)
deriving DecidableEq, Repr

/-- The state of the line at la: poison when every beat has syndrome 0xFF, else the first beat that cannot be corrected (R383). -/
def lineState (s : State) (la : Nat) : LineState :=
  let y (k : Nat) := classify (beatSyndrome s (la + 8 * k))
  if (List.range 8).all fun k => y k == .poison then .poisoned
  else match (List.range 8).find? fun k => y k == .poison || y k == .uncorrectable with
    | some k => .bad k
    | none => .good

/-- One correctable beat corrected in storage, counted and logged (R380). -/
def correctBeat (cls la : Nat) (s : State) (k : Nat) : State :=
  let a := la + 8 * k
  let y := beatSyndrome s a
  if y = 0 then s
  else
    let d := match classify y with
      | .dataBit j => Mem.write s.mem.dram (a + j / 8) (Mem.read s.mem.dram (a + j / 8) ^^^ BitVec.ofNat 8 (2 ^ (j % 8)))
      | _ => s.mem.dram
    let s := { s with mem := { s.mem with dram := d, synd := SMap.put 0 s.mem.synd (a / 8) 0 } }
    countRowCe a (countCe (channelOf a) a y cls s)

/-- The channel of an address is stopped and serves no request (R405). -/
def channelStopped (s : State) (a : Nat) : Bool := isStopped s (0x13 + channelOf a)

/-- A line read and checked for a requester (or the scrubber): corrected, or poisoned and reported (R380, R384, R388). The answer says
whether the data may be used. -/
def checkLine (cls la extra : Nat) (s : State) : Bool × State :=
  if channelStopped s la then (false, s)
  else match lineState s la with
  | .good => (true, (List.range 8).foldl (correctBeat cls la) s)
  | .poisoned => (false, s)
  | .bad k =>
    let y := beatSyndrome s (la + 8 * k)
    let quiet := isTestBeat s (la + 8 * k)
    let s := poisonLine la (countUe (channelOf la) la y cls k (extra + 2) quiet s)
    (false, if quiet then s else addCandidate 0 (rowAddr s la) s)

/-- The first byte addresses of the lines that n bytes from a touch. -/
def linesOf (a n : Nat) : List Nat := if n = 0 then [] else (List.range ((a + n - 1) / 64 - a / 64 + 1)).map fun i => 64 * (a / 64 + i)

/-! ## Check-value units -/

/-- A unit takes bytes: up to its BYTES count when that is its stop condition (R394, R395). -/
def Cvu.feed (u : Cvu) (bs : List Byte) : Cvu :=
  if u.running && !u.reached then
    let bs := if u.stop = 1 then bs.take (u.bytes - u.count) else bs
    let n := u.count + bs.length
    { u with state := crc32cRun u.state bs, count := n, reached := u.stop == 1 && decide (u.bytes ≤ n) }
  else u

/-- The units on a point whose selector fits take bytes. -/
def cvuFeed (pt : Nat) (fits : Cvu → Bool) (bs : List Byte) (s : State) : State :=
  { s with mem := { s.mem with cvu := s.mem.cvu.map fun u => if u.point == pt && fits u then u.feed bs else u } }

/-- The bytes of a run from address a that lie in a unit's window. -/
def Cvu.window (u : Cvu) (a : Nat) (bs : List Byte) : List Byte :=
  (bs.zipIdx.filter fun b => decide (u.base ≤ a + b.2) && decide (a + b.2 < u.limit)).map (·.1)

/-- The units on a windowed point take the bytes of a run that lie in their windows. -/
def cvuFeedWindow (pt a : Nat) (bs : List Byte) (s : State) : State :=
  { s with mem := { s.mem with cvu := s.mem.cvu.map fun u => if u.point == pt then u.feed (u.window a bs) else u } }

/-- A unit starts: STATE all ones, COUNT 0 (R395). -/
def Cvu.begin (u : Cvu) : Cvu := { u with armed := false, running := true, reached := false, state := 0xFFFFFFFF, count := 0 }

/-- Armed units on a point whose selector fits start with its next stream or frame (START NEXT_UNIT). -/
def cvuUnitStart (pt : Nat) (fits : Cvu → Bool) (s : State) : State :=
  { s with mem := { s.mem with cvu := s.mem.cvu.map fun u =>
    if u.armed && u.start == 2 && u.point == pt && fits u then u.begin else u } }

/-- Running units on a point reach END_UNIT. -/
def cvuUnitEnd (pt : Nat) (fits : Cvu → Bool) (s : State) : State :=
  { s with mem := { s.mem with cvu := s.mem.cvu.map fun u =>
    if u.running && u.stop == 3 && u.point == pt && fits u then { u with reached := true } else u } }

/-- A unit (stream or frame) fed whole: its start, its bytes, its end. -/
def cvuUnit (pt : Nat) (fits : Cvu → Bool) (bs : List Byte) (s : State) : State :=
  cvuUnitEnd pt fits (cvuFeed pt fits bs (cvuUnitStart pt fits s))

/-- A swath starts: units armed for it start. -/
def cvuSwathStart (s : State) : State :=
  { s with mem := { s.mem with cvu := s.mem.cvu.map fun u => if u.armed && u.start == 1 then u.begin else u } }

/-! ## Reads and writes -/

/-- The lines of a range read in order for a requester: false as soon as one is poisoned. -/
def checkLines (cls : Nat) : List Nat → State → Bool × State
  | [], s => (true, s)
  | la :: rest, s =>
    match checkLine cls la 0 s with
    | (true, s) => checkLines cls rest s
    | (false, s) => (false, s)

/-- A read of the initialised DRAM for a requester of a priority class: the bytes, or none for POISON (R375, R380, R384). -/
def dramRead (cls a n : Nat) (s : State) : Option (List Byte) × State :=
  match checkLines cls (if s.mem.synd.isEmpty && s.faults.stopped.isEmpty then [] else linesOf a n) s with
  | (true, s) =>
    let bs := Mem.readN s.mem.dram a n
    (some bs, cvuFeedWindow 2 a bs s)
  | (false, s) => (none, s)

/-- An armed INJECT applied to the beat at a, which has just been written normally (R393). -/
def applyInject (a : Nat) (s : State) : State :=
  match s.mem.injects.find? fun i => i.space == 0 && i.addr == a with
  | none => s
  | some i =>
    let flip (d : Mem) (k : Nat) : Mem := Mem.write d (a + k) (Mem.read d (a + k) ^^^ BitVec.ofNat 8 (i.data.toNat / 256 ^ k))
    let y : BitVec 8 := i.check ^^^ BitVec.ofNat 8 (columnXor dataColumns i.data.toNat)
    { s with mem := { s.mem with
      injects := s.mem.injects.erase i, dram := (List.range 8).foldl flip s.mem.dram, synd := SMap.put 0 s.mem.synd (a / 8) y } }

/-- A whole line written with valid check bits (R385): its syndromes clear, and injections armed on it act. -/
def writeLine (la : Nat) (bs : List Byte) (s : State) : State :=
  let s := { s with mem := { s.mem with dram := Mem.writeN s.mem.dram la bs, synd := SMap.clear s.mem.synd (la / 8) (la / 8 + 8) } }
  (List.range 8).foldl (fun s k => applyInject (la + 8 * k) s) s

/-- The line lies in the MiB that the sweep of its channel is writing, its target not being reached (R374). -/
def inSweptMib (s : State) (la : Nat) : Bool :=
  let k := nthOr s.mem.init (channelOf la) 0
  s.mem.sweepBusy && decide (k < s.mem.target) && localOf la / 2 ^ 20 == k

/-- A line merged with enabled bytes. -/
def mergeLine (old : List Byte) (bs : List (Byte × Bool)) : List Byte := (old.zip bs).map fun e => if e.2.2 then e.2.1 else e.1

/-- A write of enabled bytes to one line (R375, R385): held while the sweep passes, whole lines at once, partial lines by
read-modify-write, and dropped where that read finds poison or an uncorrectable error. -/
def writeLineEn (cls la : Nat) (bs : List (Byte × Bool)) (s : State) : State :=
  if channelStopped s la then s
  else if inSweptMib s la then { s with mem := { s.mem with heldWrites := s.mem.heldWrites ++ [⟨la, bs⟩] } }
  else if bs.all (·.2) then writeLine la (bs.map (·.1)) s
  else if uninitRange s la 64 then writeLine la (mergeLine (zeros 64) bs) s
  else match lineState s la with
    | .good =>
      let s := (List.range 8).foldl (correctBeat cls la) s
      writeLine la (mergeLine (Mem.readN s.mem.dram la 64) bs) s
    | .poisoned => evUe (channelOf la) la 0xFF cls 0 6 s
    | .bad k =>
      let quiet := isTestBeat s (la + 8 * k)
      let s := poisonLine la (countUe (channelOf la) la (beatSyndrome s (la + 8 * k)) cls k 6 quiet s)
      if quiet then s else addCandidate 0 (rowAddr s la) s

/-- The 64 enabled bytes of a line out of a run that starts at a. -/
def lineSlice (a : Nat) (bs : List (Byte × Bool)) (la : Nat) : List (Byte × Bool) :=
  if la < a then padLine ((List.replicate (a - la) ((0 : Byte), false)) ++ bs) else padLine (bs.drop (la - a))
where
  /-- cut or filled to 64 with disabled bytes. -/
  padLine (x : List (Byte × Bool)) : List (Byte × Bool) := x.take 64 ++ List.replicate (64 - x.length) ((0 : Byte), false)

/-- A write of enabled bytes from an address upward. -/
def dramWriteEn (cls a : Nat) (bs : List (Byte × Bool)) (s : State) : State :=
  (linesOf a bs.length).foldl (fun s la => writeLineEn cls la (lineSlice a bs la) s) s

/-- A write of bytes from an address upward. -/
def dramWrite (cls a : Nat) (bs : List Byte) (s : State) : State := dramWriteEn cls a (bs.map fun b => (b, true)) s

end Sys2Proof.Machine
end

