-- ==== Sys2Proof/Machine/Lines.lean ====
section
/-! DEFINITION. From staged levels to a head line: nozzle mapping (R165), staging (R168, R169), ownership (R176), substitution (R178,
R179), row delays (R159, R170, R175), translation (R182), the duty guard (R184, R185), the head-line check value (R230) and the shift
frames (R225, R258). -/
namespace Sys2Proof.Machine

/-! ## Geometry -/

/-- Entry k of the row-interleave order O_h (Table 8.8). -/
def HeadRecord.orderAt (r : HeadRecord) (k : Nat) : Nat := r.order / 16 ^ k % 16

/-- The physical index of a nozzle (R165). -/
def physIndex (mirror : Bool) (nozzles n : Nat) : Nat := if mirror then nozzles - 1 - n else n

/-- The row of a nozzle (R165). -/
def rowOfNozzle (r : HeadRecord) (mirror : Bool) (n : Nat) : Nat := r.orderAt (physIndex mirror r.nozzles n % r.rows)

/-- The nozzle of a row and a row position (R165). -/
def nozzleAt (r : HeadRecord) (mirror : Bool) (row i : Nat) : Nat :=
  let k := ((List.range r.rows).find? fun k => r.orderAt k == row).getD 0
  physIndex mirror r.nozzles (i * r.rows + k)

/-- Cell slices of a head of n nozzles (R163). -/
def slicesOf (n : Nat) : Nat := ceilDiv n 256

/-- S of R21: the cell slices of the configured heads. -/
def cellSlices (s : State) : Nat := ((portsOn s).map fun p => slicesOf (nozzlesOf s p)).sum

/-- The passes per line, ⌈S / P⌉ (R21). -/
def passes (s : State) : Nat := ceilDiv (cellSlices s) (if s.sys.profile = .markhor then Config.cells / 2 else Config.cells)

/-- The cell that serves nozzle n of a port (R163): the pair's even cell in Markhor. -/
def cellOf (s : State) (p n : Nat) : Nat :=
  let j := (((portsOn s).filter (· < p)).map fun q => slicesOf (nozzlesOf s q)).sum + n / 256
  if s.sys.profile = .markhor then 2 * (j % (Config.cells / 2)) else j

/-- A cell has a cell slice to serve (R163). -/
def cellServes (s : State) (c : Nat) : Bool :=
  if s.sys.profile = .markhor then decide (c / 2 < min (cellSlices s) (Config.cells / 2)) else decide (c < cellSlices s)

/-- The SOURCE of the quadrant that holds a cell (R22). -/
def quadrantOf (cell : Nat) : Nat := 0x20 + cell / 128

/-- D_bar: the largest delay configured on any row of any head (6.1). -/
def dBarOf (s : State) : Nat :=
  ((portsOn s).flatMap fun p => (List.range (rowsOf s p)).map (delayOf s p)).foldl max 0

/-- Bar line bytes B_line (1.7) and the staging depth d (R168). -/
def lineBytes (s : State) : Nat := ((portsOn s).map fun p => nozzlesOf s p * bitsPerDrop s / 8).sum
def stagingDepth (s : State) : Nat := if lineBytes s = 0 then 0 else min 1024 (6291456 / lineBytes s)

/-! ## The layout of the stores (R168, R173, R376) -/

/-- LB_h: the bytes of one staged line of a head. -/
def stageLineBytes (s : State) (h : Nat) : Nat := nozzlesOf s h * bitsPerDrop s / 8

/-- The first byte of a head's share of staging, from staging bank 0 on (R168). -/
def stageBase (s : State) (h : Nat) : Nat := stagingDepth s * (((portsOn s).filter (· < h)).map (stageLineBytes s)).sum

/-- The first byte of the slot of job line l on head h, the on-die words being counted in bytes (R168, R169). -/
def stageByte (s : State) (h l : Nat) : Nat := 8 * (320 * 8192) + stageBase s h + l % max 1 (stagingDepth s) * stageLineBytes s h

/-- The on-die words of that slot, as the first and one past the last. -/
def stageSlot (s : State) (h l : Nat) : Nat × Nat := (stageByte s h l / 8, ceilDiv (stageByte s h l + stageLineBytes s h) 8)

/-- RB_h: the bytes of a delay-line slot of a head (R173). -/
def rowSlotBytes (s : State) (h : Nat) : Nat := 8 * ceilDiv (nozzlesOf s h / max 1 (rowsOf s h) * bitsPerDrop s) 64

/-- The first byte of a row's delay line, from delay-line bank 0 on (R173). -/
def delayBase (s : State) (h row : Nat) : Nat :=
  (((portsOn s).filter (· < h)).map fun q => ((List.range (rowsOf s q)).map (delayOf s q)).sum * rowSlotBytes s q).sum +
    ((List.range row).map (delayOf s h)).sum * rowSlotBytes s h

/-- The on-die words of the slot of job line i of the swath in a row's delay line. -/
def delaySlot (s : State) (h row i : Nat) : Nat × Nat :=
  let b := delayBase s h row + i % max 1 (delayOf s h row) * rowSlotBytes s h
  (b / 8, (b + rowSlotBytes s h) / 8)

/-! ## The table stores and the cell stores

The manual names the stores and not the places in them: those below are the model's (DESIGN CHOICE, log 13). -/

/-- Word w of the table store of quadrant q. -/
def tableWord (q w : Nat) : Nat := (480 + 4 * q) * 8192 + w

/-- The words of a copy of the substitution codes of a cell slice, and of a copy of a port's greyscale map, in a quadrant's table store. -/
def substSlot (side q p k : Nat) : Nat × Nat := (tableWord q (8192 * side + 512 * p + 16 * k), tableWord q (8192 * side + 512 * p + 16 * k + 16))
def greySlot (side q p : Nat) : Nat × Nat := (tableWord q (16384 + 64 * side + 4 * p), tableWord q (16384 + 64 * side + 4 * p + 4))

/-- The cells that serve cell slice k of a port, and the pass in which they do (R163). -/
def cellsOf (s : State) (p k : Nat) : List Nat :=
  let c := cellOf s p (256 * k)
  if s.sys.profile = .markhor then [c, c + 1] else [c]
def passOf (s : State) (p k : Nat) : Nat :=
  let j := (((portsOn s).filter (· < p)).map fun q => slicesOf (nozzlesOf s q)).sum + k
  if s.sys.profile = .markhor then j / (Config.cells / 2) else 0

/-- The words of the history of a job's line n of a cell slice, in the store of a cell: four of fired nozzles and one of energy (R163, R184). -/
def historySlot (s : State) (p k c n : Nat) : Nat × Nat :=
  let w := (512 + c) * 8192 + 4096 * passOf s p k + 5 * (n % max 1 (guardW s - 1))
  (w, w + 5)

/-- The words of a port's active tables, those of the substitution map where the line is a job's, and of the history of its window (R160, R182, R184). -/
def storeSlots (s : State) (p : Nat) (subst : Bool) : List (Nat × Nat) :=
  (List.range (slicesOf (nozzlesOf s p))).flatMap fun k =>
    let q := cellOf s p (256 * k) / 128
    (if subst then [substSlot s.swath.subst.side q p k] else []) ++ greySlot (nthOr s.swath.grey p {}).side q p ::
      (if guardW s ≤ 1 then [] else (cellsOf s p k).map fun c => ((historySlot s p k c 0).1, (historySlot s p k c 0).1 + 5 * (guardW s - 1)))

/-- The words in which the cells of a port file the history of a line. -/
def historySlots (s : State) (p n : Nat) : List (Nat × Nat) :=
  if guardW s ≤ 1 then [] else (List.range (slicesOf (nozzlesOf s p))).flatMap fun k => (cellsOf s p k).map fun c => historySlot s p k c n

/-- The delay-line slots that step A5 writes for job line i on port p. -/
def writeSlots (s : State) (p i : Nat) : List (Nat × Nat) :=
  if s.swath.kind = .maint then [] else ((List.range (rowsOf s p)).filter fun r => decide (0 < delayOf s p r)).map fun r => delaySlot s p r i

/-! ## Staging -/

/-- Bytes of one line of a strip (R128). -/
def StageRun.stride (r : StageRun) : Nat := r.nozzles * r.bits / 8

/-- A run holds job line L complete, and in Markhor it has been released (R140, R169). -/
def StageRun.has (r : StageRun) (l : Nat) : Bool :=
  decide (r.firstLine ≤ l) && decide (l < r.firstLine + r.lines) && decide ((l - r.firstLine + 1) * r.stride ≤ r.data.length) && r.released

/-- A run covers job line L of head h. -/
def StageRun.covers (r : StageRun) (h l : Nat) : Bool :=
  r.head == h && decide (r.firstLine ≤ l) && decide (l < r.firstLine + r.lines)

/-- Job line L is staged for head h: every strip has written it (R169). -/
def lineStaged (s : State) (h l : Nat) : Bool :=
  (s.codec.staging.any fun r => r.covers h l) && (s.codec.staging.all fun r => !r.covers h l || r.has l)

/-- Staged lines of head h not yet read by step A1, counted from a job line upward (R169). -/
def stagedFrom (s : State) (h : Nat) : Nat → Nat → Nat
  | 0, _ => 0
  | n + 1, l => if lineStaged s h l then stagedFrom s h n (l + 1) + 1 else 0

/-- The staged lines of a head that step A1 has not read. -/
def stagedCount (s : State) (h : Nat) : Nat := stagedFrom s h (stagingDepth s) (nthOr s.swath.line h {}).readLine

/-- The line of the slot that a maintenance or audit line takes: its own number with no job open, else the first that no staged line of the job holds.
With every slot holding one there is none (R162, R319; DESIGN CHOICE, log 19). -/
def generatedSlot (s : State) (h i : Nat) : Option Nat :=
  if !s.job.isOpen then some i
  else
    let n := stagedCount s h
    if n < stagingDepth s then some ((nthOr s.swath.line h {}).readLine + n) else none

/-- The slots that the preparation of firing line f of port p reads: staging at step A1, the tables, the delay lines at step B1, and the guard's
history. -/
def readSlots (s : State) (p f : Nat) : List (Nat × Nat) :=
  let known (i : Nat) : Bool := match s.swath.ls with | some n => decide (i < n) | none => true
  (if !known f then [] else if s.swath.kind = .job then [stageSlot s p (s.swath.first + f)] else ((generatedSlot s p f).map (stageSlot s p)).toList) ++
    storeSlots s p (s.swath.kind = .job ∧ known f) ++
    (if s.swath.kind = .maint then []
     else ((List.range (rowsOf s p)).filter fun r => decide (0 < delayOf s p r ∧ delayOf s p r ≤ f) && known (f - delayOf s p r)).map fun r =>
       delaySlot s p r (f - delayOf s p r))

/-- The level of nozzle n in job line l of a run (R128). -/
def StageRun.level (r : StageRun) (l n : Nat) : Nat :=
  let bit := ((l - r.firstLine) * r.stride) * 8 + (n - r.firstNoz) * r.bits
  uAt r.data (bit / 8) 2 / 2 ^ (bit % 8) % 2 ^ r.bits

/-- The levels of head h in job line l from what stands in staging (steps A1 and A2). -/
def stagedLevels (staging : List StageRun) (s : State) (h l : Nat) : List Nat :=
  let runs := staging.filter fun r => r.covers h l
  (List.range (nozzlesOf s h)).map fun n =>
    match runs.find? fun r => decide (r.firstNoz ≤ n) && decide (n < r.firstNoz + r.nozzles) with
    | some r => r.level l n
    | none => 0

/-- The level the maintenance generator writes (R517). -/
def maintLevel (s : State) (h k n : Nat) : Nat :=
  if bitOf s.pace.mPorts h && n % s.pace.mStride == k % s.pace.mStride then s.pace.mLevel else 0

/-- How many UPPER links lead down to a head: the group of R318 is its parity; the first argument bounds the chain. -/
def chainDepth (s : State) : Nat → Nat → Nat
  | 0, _ => 0
  | n + 1, h => match (portsOn s).find? fun g => upperOf s g == h with
    | some g => chainDepth s n g + 1
    | none => 0

/-- The level the audit pattern puts on nozzle n of port h in job line l (R318). -/
def auditLevel (s : State) (h l n : Nat) : Nat :=
  match s.audit.pass with
  | none => 0
  | some a =>
    let stride := pnat a.params 16 0 32; let dash := pnat a.params 17 0 8; let gap := pnat a.params 18 0 8
    let shift := pnat a.params 21 h 0; let p := gap + dash
    let i := l - shift
    let group := chainDepth s 16 h % 2
    if shift ≤ l ∧ i < pnat a.params 20 0 2 * 2 * stride * p ∧ i / (stride * p) % 2 = group ∧ gap ≤ i % p ∧ n % stride = i / p % stride
    then pnat a.params 19 0 7 else 0

/-- Levels packed b bits each, as a decoded line holds them (R128). -/
def packLevels (b : Nat) (ls : List Nat) : List Byte :=
  leBytes (ceilDiv (b * ls.length) 8) (ls.foldr (fun l acc => l % 2 ^ b + 2 ^ b * acc) 0)

/-- Line i as the maintenance generator or the pattern generator writes it into staging in place of a decoded line (R17, R162, R319). -/
def generatedRun (s : State) (h i : Nat) : StageRun :=
  let level (n : Nat) : Nat := if s.swath.kind = .maint then maintLevel s h i n else auditLevel s h i n
  { sliceNo := 0, stream := 0, head := h, firstNoz := 0, nozzles := nozzlesOf s h, bits := bitsPerDrop s, firstLine := i, lines := 1
    data := packLevels (bitsPerDrop s) ((List.range (nozzlesOf s h)).map level), released := true }

/-- The levels of head h in line i of the swath as step A1 reads them from staging, before ownership. -/
def rawLevels (s : State) (h i : Nat) : List Nat :=
  match s.swath.kind with
  | .job => stagedLevels s.codec.staging s h (s.swath.first + i)
  | .maint | .audit => stagedLevels [generatedRun s h i] s h i

/-! ## Ownership and substitution (steps A3 and A4) -/

/-- The substitution map that job line l is prepared with: below the line of a swap, the map before it (R189). -/
def substMapFor (s : State) (l : Nat) : SubstMap :=
  match s.swath.subst.olds.find? fun e => decide (l < e.2) with
  | some e => e.1
  | none => s.swath.subst.active

/-- The substitution code of a nozzle in job line l. -/
def substCode (s : State) (h l n : Nat) : Nat := (nthOr (substMapFor s l).codes h []).getD n 0

/-- The upper head of an overlap owns position j in job line l (R176). -/
def upperOwns (s : State) (h j l : Nat) : Bool :=
  if stitchPattern (headCfg s h) then bitOf ((nthOr s.swath.patterns h []).getD j 0) (l % 64)
  else decide (cutIn (headCfg s h) ≤ j)

/-- The coinciding nozzle of an overlap: (the head that names UPPER, the position j, the other head, the other nozzle). -/
def coinciding (s : State) (h n : Nat) : Option (Nat × Nat × Nat × Nat) :=
  let v := overlapOf s h; let nh := nozzlesOf s h
  if upperOf s h ≠ 0xFF ∧ nh ≤ n + v ∧ n < nh then some (h, n + v - nh, upperOf s h, n + v - nh)
  else match (portsOn s).find? fun g => upperOf s g == h && decide (n < overlapOf s g) with
    | some g => some (g, n, g, nozzlesOf s g - overlapOf s g + n)
    | none => none

/-- Nozzle n of head h owns its position in job line l, PARTNER substitution included (R176, Table 6.4). -/
def ownsPosition (s : State) (h l n : Nat) : Bool :=
  match coinciding s h n with
  | none => true
  | some (lower, j, other, m) =>
    if substCode s h l n = 5 then false
    else if substCode s other l m = 5 then true
    else if lower = h then !upperOwns s lower j l else upperOwns s lower j l

/-- The combination of two levels (R179). -/
def combine (s : State) (a b : Nat) : Nat := if subAdd s then min (a + b) (2 ^ bitsPerDrop s - 1) else max a b

/-- Where a nozzle's level goes under its code in job line l (Table 6.4). -/
def movesTo (l c n : Nat) : Option Nat :=
  if c = 2 ∨ (c = 4 ∧ l % 2 = 0) then some (n - 1) else if c = 3 ∨ c = 4 then some (n + 1) else none

/-- A restart mark suppresses nozzle n of head h in job line l (R175). -/
def marked (s : State) (h l : Nat) (r : HeadRecord) (n : Nat) : Bool :=
  s.swath.marksInForce &&
    (match nthOr (nthOr s.swath.line h {}).marks (rowOfNozzle r (mirrorOf s h) n) none with | some m => decide (l ≤ m) | none => false)

/-- The levels after steps A3 and A4, with the drops moved and the drops lost (R178, R179). -/
def substituted (s : State) (h l : Nat) (r : HeadRecord) (lv : List Nat) : List Nat × Nat × Nat :=
  let own := lv.zipIdx.map fun e => if ownsPosition s h l e.2 && !marked s h l r e.2 then e.1 else 0
  let code (n : Nat) : Nat := substCode s h l n
  let take (n : Nat) : Nat :=
    let mine := if code n = 0 then own.getD n 0 else 0
    let from_ (m : Nat) : Nat := if movesTo l (code m) m = some n then own.getD m 0 else 0
    let a := from_ (n + 1)
    let b := if n = 0 then 0 else from_ (n - 1)
    combine s (combine s mine a) b
  let out := (List.range lv.length).map take
  let moved := (own.zipIdx.filter fun e => e.1 != 0 && (movesTo l (code e.2) e.2).isSome).length
  let lost := (own.zipIdx.filter fun e => e.1 != 0 && code e.2 == 1).length
  (out, moved, lost)

/-- Stage A for job line i of the swath on head h: the levels written to the delay lines and the counts. Maintenance and audit lines skip
ownership and substitution (R162, R319). -/
def stageA (s : State) (h i : Nat) (r : HeadRecord) : List Nat × Nat × Nat :=
  match s.swath.kind with
  | .job => substituted s h (s.swath.first + i) r (rawLevels s h i)
  | _ => (rawLevels s h i, 0, 0)

/-! ## Firing frame (steps B1 to B4) -/

/-- The level nozzle n of head h fires in firing line f: that of job line f − D of its row, or 0 (R159, R170, R175). -/
def firedLevel (s : State) (h f : Nat) (r : HeadRecord) (held : List HeldLine) (n : Nat) : Nat :=
  let row := rowOfNozzle r (mirrorOf s h) n
  let d := if s.swath.kind = .maint then 0 else delayOf s h row
  if f < d then 0
  else
    let i := f - d
    if (match s.swath.ls with | some ls => decide (ls ≤ i) | none => false) || marked s h (s.swath.first + i) r n then 0
    else match held.find? fun x => x.port == h && x.line == i with
      | some x => x.levels.getD n 0
      | none => 0

/-- The active greyscale map of a port; without one every level gives code 0. -/
def greyOf (s : State) (h : Nat) : GreyMap := ((nthOr s.swath.grey h {}).active).getD { codes := [], energy := [], cv := 0 }

/-- A drop as the guard sees it: nozzle, code and weight. -/
abbrev Drop := Nat × Nat

/-- The fires of nozzle n in the lines of the window before this one (R184). -/
def firesBefore (hist : List (List Bool × Nat)) (n : Nat) : Nat := (hist.filter fun l => l.1.getD n false).length

/-- The outcome of the guard on a line: the drops left, the drops clipped by each pass, the first nozzle clipped with its pass. -/
structure Guarded where
  drops : List Drop
  clipNozzle : Nat
  clipEnergy : Nat
  first : Option (Nat × Bool)
deriving DecidableEq, Repr

/-- Pass 1: a nozzle that has fired GUARD_N times in the window before loses its drop. -/
def guardNozzles (limit : Nat) (hist : List (List Bool × Nat)) (ds : List Drop) : Guarded :=
  let beyond (e : Drop × Nat) : Bool := e.1.1 != 0 && decide (limit ≤ firesBefore hist e.2)
  let z := ds.zipIdx
  { drops := z.map fun e => if beyond e then (0, 0) else e.1
    clipNozzle := (z.filter beyond).length, clipEnergy := 0, first := (z.find? beyond).map fun e => (e.2, false) }

/-- Pass 2: drops are taken in turn from nozzle s on while the energy is above the limit. The first argument counts the turn. -/
def guardEnergy (limit : Nat) : Nat → Nat → Nat → Guarded → Guarded
  | 0, _, _, g => g
  | k + 1, n, sum, g =>
    if sum ≤ limit then g
    else
      let d := g.drops.getD n (0, 0)
      let n' := (n + 1) % g.drops.length
      if d.1 = 0 then guardEnergy limit k n' sum g
      else guardEnergy limit k n' (sum - d.2) { g with
        drops := g.drops.set n (0, 0), clipEnergy := g.clipEnergy + 1, first := if g.first.isNone then some (n, true) else g.first }

/-- The energy of the drops that leave the engine: a level whose code is 0 makes none (R184). -/
def energyOf (ds : List Drop) : Nat := (ds.map fun d => if d.1 = 0 then 0 else d.2).sum

/-- Both passes on a line (R184). -/
def guardLine (s : State) (h fJob : Nat) (hist : List (List Bool × Nat)) (ds : List Drop) : Guarded :=
  let g := guardNozzles (guardN s) hist ds
  let e := eLimitOf s h
  if e = 0 then g
  else guardEnergy e ds.length (fJob * 1031 % max ds.length 1) ((hist.map (·.2)).sum + energyOf g.drops) g

/-- Row vectors of codes (R165). -/
def rowVectors (r : HeadRecord) (mirror : Bool) (ds : List Drop) : List (List Nat) :=
  (List.range r.rows).map fun row => (List.range (r.nozzles / r.rows)).map fun i => (ds.getD (nozzleAt r mirror row i) (0, 0)).1

/-- A row vector packed three bits to a code (R226). -/
def packRow (codes : List Nat) : List Byte :=
  leBytes (ceilDiv (3 * codes.length) 8) ((codes.zipIdx.map fun e => e.1 * 2 ^ (3 * e.2)).sum)

/-- A legacy row as sent: bit 1 then bit 0 of each code, grouped eight at a time with the first bit most significant (R258, R259). -/
def legacyRow (codes : List Nat) : List Byte :=
  let bits := codes.flatMap fun c => [bitOf c 1, bitOf c 0]
  (List.range (ceilDiv bits.length 8)).map fun k =>
    BitVec.ofNat 8 (((List.range 8).map fun i => bitAt (bits.getD (8 * k + i) false) (7 - i)).sum)

/-- The bytes of the row vectors as the frame in force carries them. -/
def rowBytes (s : State) (rows : List (List Nat)) : List Byte :=
  if s.sys.legacy then rows.flatMap legacyRow else rows.flatMap packRow

/-- The bytes over which HLCV is formed (R230). -/
def hlcvBytes (s : State) (p lineId : Nat) (rows : List (List Nat)) : List Byte := leBytes 4 lineId ++ leBytes 1 p ++ rowBytes s rows

/-! ## Frames -/

/-- The native shift frame (Table 8.3), with the bank that plays the cycle. -/
def nativeFrame (s : State) (bank : Nat) (b : Bank) (h : HeadLine) : List Byte :=
  let body := leBytes 2 0xC35A ++ [1] ++ leBytes 1 h.rows.length ++ leBytes 2 (ceilDiv (3 * (h.rows.headD []).length) 8) ++ leBytes 1 b.nwin ++
    leBytes 1 (bitAt (s.sys.profile = .markhor) 0 + bitAt (bank = 1) 1 + bitAt h.first 2) ++ leBytes 4 h.lineId ++
    (List.range 8).flatMap (fun c => leBytes 1 (b.masks.getD c 0)) ++ leBytes 4 h.hlcv.toNat ++ zeros 8 ++ h.rows.flatMap packRow
  body ++ leBytes 4 (crc32c body).toNat

/-- The legacy shift data, row by row, each with its CRC-8 (R258). -/
def legacyFrame (h : HeadLine) : List Byte := h.rows.flatMap fun r => legacyRow r ++ [crc8 (legacyRow r)]

/-- T_frame of a port in ns (R228, R259). -/
def frameTime (s : State) (p : Nat) : Nat :=
  match recordOf s p with
  | none => 0
  | some r =>
    let m := r.nozzles / r.rows
    let clk := 5 * shiftDivIn (headCfg s p)
    if s.sys.legacy then (8 * ceilDiv (2 * m) 8 + 8) * clk else ceilDiv (36 + r.rows * ceilDiv (3 * m) 8) 2 * clk

/-- T_lat of a port in ns (R233), and T_prep for the bar's passes (Table 6.2). -/
def latchTime (s : State) (p : Nat) : Nat := (ampLatencyOf s p - 2) * 40 + 10
def prepTime (s : State) : Nat := if passes s ≤ 1 then 2000 else 4000

/-- P_port in ns (R236). -/
def portPeriod (s : State) (p : Nat) : Nat := frameTime s p + 120 + (prepTime s - latchTime s p)

/-- T_port of a port in ns, fixed at `cfg.commit` and never lower between commits (R296, R297). -/
def tPortNow (s : State) (p : Nat) : Nat :=
  let rec_ := match recordOf s p with | some r => r.minPeriod | none => 0
  max (max 10000 rec_) (max (portPeriod s p) (pnat (headCfg s p) 13 0 0))

/-- The line rate in force in Hz: the pass's F_MAX in AUDIT, else the open job's (R296). -/
def rateInForce (s : State) : Option Nat :=
  match s.sys.mode, s.audit.pass with
  | .audit, some a => some (pnat a.params 32 0 100000)
  | _, _ => if s.job.isOpen then some s.job.fMax else none

/-- T_min of a port in ns under a line rate, a whole number of HPORT clocks (R296). -/
def tMinFor (s : State) (p : Nat) (rate : Option Nat) : Nat :=
  let base := 5 * ceilDiv (nthOr s.heads p {}).tPort 5
  match rate with
  | some f => if f = 0 then base else max base (5 * ceilDiv 1000000000 (5 * f))
  | none => base

/-- T_min of a port in ns under the line rate in force (R296). -/
def tMin (s : State) (p : Nat) : Nat := tMinFor s p (rateInForce s)

end Sys2Proof.Machine
end

