-- ==== Sys2Proof/Machine/Swath.lean ====
section
/-! DEFINITION. The swath engine: preparation of head lines (R160), tables and their swaps (R186 to R190, R204 to R206), swath-start
permission (R171, R208, R209, R250), lines that count as fired (R174, R238) with their in-line sums (R331), and the end of a swath. -/
namespace Sys2Proof.Machine

/-! ## Ports and faults -/

/-- A port as commands see it configured: in CONFIGURE by its present PORT_EN, elsewhere by the committed one (Table 18.3). -/
def portSet (s : State) (p : Nat) : Bool :=
  if s.sys.mode = .configure then decide (p < Config.ports) && pon (nthOr s.cfg.staged.heads p []) 1 0 false else portOn s p

/-- The geometry in force for a port: the committed record, or before the first commit the one now read (R577). -/
def geometryOf (s : State) (p : Nat) : Option HeadRecord :=
  match recordOf s p with
  | some r => some r
  | none => (nthOr s.heads p {}).record

/-- A standby becomes unfit with a cause, unless it already is (R438). -/
def becomeUnfit (cause detail : Nat) (s : State) : State :=
  if s.twin.fit then
    emit { code := 0x1202, source := 0x61, status := cause,
           payload := leBytes 2 s.twin.epoch.toNat ++ zeros 2 ++ leBytes 4 detail ++ leBytes 4 s.job.pacLine.toNat ++ zeros 4 }
      { s with twin := { s.twin with fit := false, unfitCause := cause } }
  else s

/-- A Firing-region fault that withholds every line until its discard ends (R192); in FOLLOW it makes the unit unfit instead (R437). -/
def engineFault (c : FClass) (src cell : Nat) (s : State) : State :=
  if s.sys.mode = .follow then becomeUnfit 9 c.code s
  else
    let s := withholdAll (raiseFault c src cell s)
    { s with swath := { s.swath with withheld := s.faults.discard.isSome } }

/-- What a fault of the line path names is recorded (R185, R231, R235, R299; log 50). -/
def nameFault (n : Named) (s : State) : State := { s with faults := { s.faults with named := some n } }

/-! ## Preparation (R160) -/

/-- The swath's firing lines, once its length is known (R159). -/
def swathLines (s : State) : Option Nat := s.swath.ls.map (· + s.swath.dBar)

/-- Firing line f lies within the swath as far as is known. -/
def inSwath (s : State) (f : Nat) : Bool := match swathLines s with | some n => decide (f < n) | none => true

/-- Job line i of the swath exists as far as is known. -/
def isJobLine (s : State) (i : Nat) : Bool := match s.swath.ls with | some n => decide (i < n) | none => true

/-- Stage A on a port: the levels go to the delay lines, the staging slot is freed, the counters move (Table 6.1). -/
def prepareA (p i : Nat) (r : HeadRecord) (s : State) : State :=
  if isJobLine s i then
    let (lv, moved, lost) := stageA s p i r
    let s := setLine p (fun l => { l with
      readLine := if s.swath.kind = .job then s.swath.first + i + 1 else l.readLine
      subst := satAdd 32 l.subst moved, lost := satAdd 32 l.lost lost }) s
    let s := { s with swath := { s.swath with
      held := { port := p, line := i, levels := lv } :: s.swath.held.filter fun x => x.port ≠ p || decide (i ≤ x.line + s.swath.dBar) } }
    if moved = 0 ∧ lost = 0 then s else touchGroup 1 s
  else s

/-- `ev.duty_clip`, the first of a head in a swath, with the counters as that clip leaves them, from the quadrant that holds the nozzle's cell, as
Table 6.8 has it for DUTY_LIMIT (R185; DEDUCED, log 19). -/
def reportClip (p f n : Nat) (energy : Bool) (s : State) : State :=
  let l := nthOr s.swath.line p {}
  if l.clipReported then s
  else setLine p (fun l => { l with clipReported := true })
    (emit { code := 0x0606, source := quadrantOf (cellOf s p n), flags := bitAt energy 0,
            payload := leBytes 1 p ++ [0] ++ leBytes 2 n ++ leBytes 4 f ++
              leBytes 4 (satAdd 32 l.clipNozzle (bitAt (!energy) 0)) ++ leBytes 4 (satAdd 32 l.clipEnergy (bitAt energy 0)) } s)

/-- The history of a window after a line, newest first (R184). -/
def pushHist (w : Nat) (ds : List Drop) (hist : List (List Bool × Nat)) : List (List Bool × Nat) :=
  ((ds.map (·.1 != 0), energyOf ds) :: hist).take (w - 1)

/-- Lines that were skipped count in f_job and in the guard's history, as lines with no drops (R184, R300). -/
def countSkips (p n : Nat) (s : State) : State :=
  if n = 0 then s
  else
    let l := nthOr s.swath.line p {}
    let s := (List.range n).foldl (fun s i => (historySlots s p (l.fJob + 1 + i)).foldl (fun s w => ownerWrites w.1 w.2 s) s) s
    setLine p (fun l => { l with fJob := l.fJob + n, hist := (List.replicate n (([] : List Bool), 0) ++ l.hist).take (guardW s - 1) }) s

/-- Stage B on a port for firing line f: the head line, or none where the guard raises DUTY_LIMIT (R182 to R185, R230). -/
def prepareB (p f : Nat) (r : HeadRecord) (s : State) : Option HeadLine × State :=
  let l := nthOr s.swath.line p {}
  let g := greyOf s p
  let drops : List Drop := (List.range r.nozzles).map fun n =>
    let v := firedLevel s p f r s.swath.held n
    (g.codes.getD v 0, g.energy.getD v 0)
  let fJob := l.fJob + 1
  let q := guardLine s p fJob l.hist drops
  let markhor : Bool := s.sys.profile == .markhor
  match markhor, q.first with
  | true, some (n, byEnergy) =>
    let cell := cellOf s p n
    (none, engineFault .dutyLimit (quadrantOf cell) cell
      (nameFault { cls := .dutyLimit, port := p, line := f, nozzle := n, pass := if byEnergy then 2 else 1 } s))
  | _, first =>
    let rows := rowVectors r (mirrorOf s p) q.drops
    let bytes := hlcvBytes s p fJob rows
    let h : HeadLine := { f := f, lineId := fJob, rows := rows, hlcv := if markhor then crc32c bytes else 0
                          first := f == 0, last := swathLines s == some (f + 1), bank := (nthOr s.wave p {}).active }
    let s := match first with
      | some (n, e) => touchGroup 1 (reportClip p f n e s)
      | none => s
    let s := (historySlots s p fJob).foldl (fun s w => ownerWrites w.1 w.2 s) s
    let s := setLine p (fun l => { l with
      fJob := fJob, hist := pushHist (guardW s) q.drops l.hist, prep := f + 1
      clipNozzle := satAdd 32 l.clipNozzle q.clipNozzle, clipEnergy := satAdd 32 l.clipEnergy q.clipEnergy }) s
    (some h, cvuUnit 4 (fun u => u.sel == p) bytes s)

/-- The slots that the preparation of a line reads, checked word by word: the quadrant of the first word that cannot be used (Table 6.8, R576). -/
def readStores (p f : Nat) (s : State) : Option Nat × State :=
  (readSlots s p f).foldl (fun (r : Option Nat × State) w => let q := ownerReads w.1 w.2 r.2; (r.1.or q.1, q.2)) (none, s)

/-- Step A5 writes the delay-line slots of job line f. -/
def writeDelays (p f : Nat) (s : State) : State :=
  if isJobLine s f then (writeSlots s p f).foldl (fun s w => ownerWrites w.1 w.2 s) s else s

/-- The generator of a maintenance or audit line writes it into its staging slot (R17, R162, R319). -/
def writeGenerated (p f : Nat) (s : State) : State :=
  if s.swath.kind = .job || !isJobLine s f then s
  else match generatedSlot s p f with
    | some l => ownerWrites (stageSlot s p l).1 (stageSlot s p l).2 s
    | none => s

/-- Preparation of firing line f of a port; nothing beyond the swath or while lines are withheld. -/
def prepareLine (p f : Nat) (s : State) : Option HeadLine × State :=
  match recordOf s p with
  | none => (none, s)
  | some r =>
    if isWithheld s || !inSwath s f then (none, s)
    else match readStores p f (writeGenerated p f s) with
      | (some q, s) => (none, engineFault .sweEcc q 0xFFFF s)
      | (none, s) => prepareB p f r (prepareA p f r (writeDelays p f s))

/-- A prepared line delivered to its port over C10 (step B5). -/
def deliverLine (p f : Nat) (s : State) : State :=
  match prepareLine p f s with
  | (some h, s) => setLine p (fun l => { l with ready := some h }) s
  | (none, s) => s

/-- UNDERRUN at the preparation of firing line f: job line f exists and some head has it neither staged nor already read (R172). -/
def underrunHead (s : State) (f : Nat) : Option Nat :=
  if s.swath.kind = .job && isJobLine s f then
    (portsOn s).find? fun h =>
      let l := s.swath.first + f
      decide ((nthOr s.swath.line h {}).readLine ≤ l) && !lineStaged s h l
  else none

/-- `ev.underrun` and the fault, from the quadrant of the head's first cell (R172, Table 6.8). -/
def raiseUnderrun (h f : Nat) (s : State) : State :=
  let counts := (List.range 16).flatMap fun p => leBytes 2 (if portOn s p then stagedCount s p else 0)
  let e : Event := { code := 0x0605, source := quadrantOf (cellOf s h 0), keep := true,
                     payload := leBytes 1 h ++ zeros 3 ++ leBytes 4 (s.swath.first + f) ++ leBytes 4 f ++ leBytes 4 s.job.pacLine.toNat ++ counts }
  if s.sys.mode = .follow then becomeUnfit 5 f s
  else engineFault .underrun (quadrantOf (cellOf s h 0)) 0xFFFF (if isWithheld s then s else emit e s)

/-! ## Loads -/

/-- `ev.table_ready` (Table 19.3). -/
structure Ready where
  source : Nat
  table : Nat
  failed : Bool := false
  detail : Nat := 0
  port : Nat := 0
  nozzle : Nat := 0
  g : Nat := 0
  cv : Nat := 0
  flags : Nat := 0
deriving DecidableEq, Repr

/-- `ev.table_ready` raised. -/
def evTableReady (r : Ready) (s : State) : State :=
  emit { code := 0x0601, source := r.source, status := bitAt r.failed 0, flags := r.flags, keep := true,
         payload := leBytes 1 r.table ++ leBytes 1 r.detail ++ leBytes 1 r.port ++ [0] ++ leBytes 2 r.nozzle ++ leBytes 2 r.g ++
           leBytes 4 r.cv ++ zeros 4 } s

/-- An address that is misaligned or reaches beyond the DRAM fitted, or memory outside the initialised range (R186, R202). -/
def badImage (s : State) (a n : Nat) : Option Status :=
  if a % 64 ≠ 0 || beyondFitted s a n then some .badArg else if uninitRange s a n then some .uninit else none

/-- `grey.load` (R186). -/
def greyLoad (p : List Byte) (s : State) : Reply × State :=
  let port := uAt p 0 1; let a := uAt p 8 8
  let g := greyPair s port
  if 16 ≤ port || !portSet s port then refuse .badArg 0 s
  else match badImage s a 32 with
    | some st => refuse st (if st = .badArg then 8 else 0) s
    | none =>
      if g.pending.isSome || g.shadow == .building then refuse .busy 0 s
      else okWith [] (bgStart (.grey port) (setGrey port (fun q => { q with shadow := .building, built := none, addr := a }) s))

/-- GREY_LOAD (R186). -/
def execGreyLoad (s : State) : Host.Outcome State Fault Refusal := .next (runCommand 0x0601 greyLoad s)

/-- The length of a port's substitution image without its CV (R180). A configured port of which neither a committed nor a present record is held has no
nozzles to substitute, and its image is the CV alone: no rule speaks of it (DESIGN CHOICE, log 40). -/
def substImageLen (s : State) (p : Nat) : Nat := match geometryOf s p with | some r => 128 * slicesOf r.nozzles | none => 0

/-- The first wrong address of `subst.load`, with its status and offset. -/
def substAddrError (s : State) (p : List Byte) : Option (Status × Nat) :=
  let bad (i : Nat) : Option (Status × Nat) :=
    let a := uAt p (8 + 8 * i) 8
    if portSet s i then
      match badImage s a (substImageLen s i + 4) with
      | some st => some (st, if st = .badArg then 8 + 8 * i else 0)
      | none => none
    else if a ≠ 0 then some (.badArg, 8 + 8 * i) else none
  let es := (List.range 16).filterMap bad
  match es.find? fun e => e.1 == .badArg with
  | some e => some e
  | none => es.head?

/-- `subst.load` (R186, R190). -/
def substLoad (p : List Byte) (s : State) : Reply × State :=
  let q := s.swath.subst
  if uAt p 0 2 ≠ (((List.range 16).filter (portSet s)).map fun i => 2 ^ i).sum then refuse .badArg 0 s
  else match substAddrError s p with
    | some (st, d) => refuse st d s
    | none =>
      if q.pending.isSome || q.shadow == .building then refuse .busy 0 s
      else okWith [] (bgStart .subst { s with
        swath := { s.swath with subst := { q with
          shadow := .building, built := none, byAudit := false, addrs := (List.range 16).map fun i => uAt p (8 + 8 * i) 8 } }
        audit := { s.audit with record := [] } })

/-- SUBST_LOAD (R186). -/
def execSubstLoad (s : State) : Host.Outcome State Fault Refusal := .next (runCommand 0x0602 substLoad s)

/-- `table.swap` (R188). -/
def tableSwap (p : List Byte) (s : State) : Reply × State :=
  let t := uAt p 0 1; let f := uAt p 1 1
  let rq : SwapReq := { required := bitOf f 0, link := bitOf f 1 }
  if 0x10 < t ∨ (t < 16 ∧ !portSet s t) then refuse .badArg 0 s
  else if 3 < f ∨ (t = 0x10 ∧ rq.link) then refuse .badArg 1 s
  else
    let sh := if t = 0x10 then s.swath.subst.shadow else (greyPair s t).shadow
    let pend := if t = 0x10 then s.swath.subst.pending.isSome else (greyPair s t).pending.isSome
    if sh = .empty ∨ sh = .failed then refuse .badState 0 s
    else if pend then refuse .busy 0 s
    else
      let s := if t = 0x10 then { s with swath := { s.swath with subst := { s.swath.subst with pending := some rq } } }
        else setGrey t (fun q => { q with pending := some rq }) s
      okWith [] (swapsAtOnce s)

/-- TABLE_SWAP (R188). -/
def execTableSwap (s : State) : Host.Outcome State Fault Refusal := .next (runCommand 0x0603 tableSwap s)

/-! ## Builds -/

/-- The first rule a greyscale image breaks, by its detail; or the map (R181; in legacy four entries of codes 0 to 3). -/
def judgeGrey (legacy : Bool) (b : List Byte) : Except Nat GreyMap :=
  let n := if legacy then 4 else 8
  if (crc32c (b.take (2 * n))).toNat ≠ uAt b (2 * n) 4 then .error 0x04
  else if (b.drop (2 * n + 4)).any (· ≠ 0) || (List.range n).any fun l => decide (n ≤ uAt b (2 * l) 1) then .error 0x05
  else if uAt b 0 2 ≠ 0 then .error 0x20
  else .ok { codes := (List.range n).map fun l => uAt b (2 * l) 1, energy := (List.range n).map fun l => uAt b (2 * l + 1) 1
             cv := uAt b (2 * n) 4 }

/-- A waveform or greyscale build of a port that fails cancels the pending request, and with it the linked one (R189, R206): the flag
of `ev.table_ready`. -/
def cancelPending (p : Nat) (grey : Bool) (s : State) : Nat × State :=
  let g := greyPair s p; let w := nthOr s.wave p {}
  let linked := isLinked s p && w.pending.isSome
  let hit := if grey then g.pending.isSome else w.pending.isSome
  let s := if grey || linked then setGrey p (fun q => { q with pending := none }) s else s
  let s := if !grey || linked then setWave p (fun w => { w with pending := none }) s else s
  (bitAt hit 1, s)

/-- A build has written the copy of a port's greyscale map, or of the substitution map, that is not active in every quadrant's table store (R576). -/
def writeGreyStore (p : Nat) (s : State) : State :=
  let side := 1 - (greyPair s p).side
  (List.range 4).foldl (fun s q => ownerWrites (greySlot side q p).1 (greySlot side q p).2 s) s
def writeSubstStore (s : State) : State :=
  let side := 1 - s.swath.subst.side
  (List.range 4).foldl (fun s q => ownerWrites (tableWord q (8192 * side)) (tableWord q (8192 * side + 8192)) s) s

/-- The end of a greyscale build (R186, R187). -/
def greyBuilt (p : Nat) (s : State) : State :=
  let (d, s) := dramRead 1 (greyPair s p).addr 32 s
  let s := bgEnd (.grey p) s
  match ((match d with | none => .error 0x0D | some b => judgeGrey s.sys.legacy b) : Except Nat GreyMap) with
  | .error e =>
    let (fl, s) := cancelPending p true (setGrey p (fun q => { q with shadow := .failed }) s)
    evTableReady { source := 0x30 + p, table := p, failed := true, detail := e, flags := fl } s
  | .ok g =>
    let s := writeGreyStore p s
    let s := if s.sys.mode = .configure then setGrey p (fun q => { q with active := some g, shadow := .empty, pending := none, side := 1 - q.side }) s
      else setGrey p (fun q => { q with built := some g, shadow := .ready }) s
    swapsAtOnce (evTableReady { source := 0x30 + p, table := p, cv := g.cv } s)

/-- The codes in a substitution image. -/
def substCodes (b : List Byte) : List Nat := b.flatMap fun x => [x.toNat % 16, x.toNat / 16]

/-- The first rule nozzle n of port p breaks in a map of codes (R180), by its detail of Table 19.4. -/
def substBreach (s : State) (m : Vector (List Nat) 16) (p n : Nat) : Option Nat :=
  let code (h k : Nat) : Nat := (nthOr m h []).getD k 0
  let nh := match geometryOf s p with | some r => r.nozzles | none => 0
  let c := code p n
  if 5 < c then some 0x05
  else if nh ≤ n then (if c = 0 then none else some 0x24)
  else if ((c = 2 ∨ c = 4) ∧ n = 0) ∨ ((c = 3 ∨ c = 4) ∧ n + 1 = nh) then some 0x21
  else if ((c = 2 ∨ c = 4) ∧ code p (n - 1) ≠ 0) ∨ ((c = 3 ∨ c = 4) ∧ code p (n + 1) ≠ 0) then some 0x22
  else if c = 5 then
    match coinciding s p n with
    | none => some 0x23
    | some (_, _, h, k) => if code h k = 0 then none else some 0x23
  else none

/-- The first breach of a map, in ascending port and nozzle order: port, nozzle, detail. -/
def firstBreach (s : State) (m : Vector (List Nat) 16) : Option (Nat × Nat × Nat) :=
  ((List.range 16).filter (portSet s)).findSome? fun p =>
    (List.range (nthOr m p []).length).findSome? fun n => (substBreach s m p n).map fun d => (p, n, d)

/-- The images of a load read port by port: the codes and CV fields, or the first port that fails with its detail. -/
def readSubst : List Nat → State → Except (Nat × Nat) (List (Nat × List Nat × Nat)) × State
  | [], s => (.ok [], s)
  | p :: ps, s =>
    let n := substImageLen s p
    match dramRead 1 (s.swath.subst.addrs.getD p 0) (n + 4) s with
    | (none, s) => (.error (p, 0x0D), s)
    | (some b, s) =>
      if (crc32c (b.take n)).toNat ≠ uAt b n 4 then (.error (p, 0x04), s)
      else match readSubst ps s with
        | (.ok r, s) => (.ok ((p, substCodes (b.take n), uAt b n 4) :: r), s)
        | (.error e, s) => (.error e, s)

/-- The image bytes of codes, for the CV of a map rebuilt by the audit (R186). -/
def substImage : List Nat → List Byte
  | a :: b :: r => BitVec.ofNat 8 (a + 16 * b) :: substImage r
  | [a] => [BitVec.ofNat 8 a]
  | [] => []

/-- The map CV: over the CV fields of the configured heads' images, in port order (R186). -/
def mapCv (cvs : List Nat) : Nat := (crc32c (cvs.flatMap (leBytes 4))).toNat

/-- A substitution build fails: the shadow is FAILED and a pending request is cancelled. -/
def substFailed (p n d : Nat) (s : State) : State :=
  let q := s.swath.subst
  startRebuild <| evTableReady { source := 2, table := 0x10, failed := true, detail := d, port := p, nozzle := n
                                 flags := bitAt q.byAudit 0 + bitAt q.pending.isSome 1 }
    { s with
      swath := { s.swath with subst := { q with shadow := .failed, built := none, pending := none } }
      audit := if q.byAudit then { s.audit with edits := [] } else s.audit }

/-- The audit's record after its edits: a nozzle given a code joins it, and one returned to NORMAL leaves it (R323). -/
def recordAfter (rec : List Nat) (es : List (Nat × Nat)) : List Nat :=
  (es.filter fun e => e.2 ≠ 0).map (·.1) ++ rec.filter fun x => !es.any fun e => e.1 == x

/-- The edits are in the map: the record follows them, and none is left to make. -/
def recordEdits (a : Audit) : Audit := { a with record := recordAfter a.record a.edits, edits := [] }

/-- A substitution map checked and made ready, or active at once in CONFIGURE (R180, R187). -/
def substReady (m : Vector (List Nat) 16) (cv : Nat) (s : State) : State :=
  match firstBreach s m with
  | some (p, n, d) => substFailed p n d s
  | none =>
    let q := s.swath.subst
    let sm : SubstMap := { codes := m, cv := cv }
    let s := writeSubstStore s
    let q := if s.sys.mode = .configure then { q with active := sm, shadow := .empty, built := none, pending := none, side := 1 - q.side }
      else { q with built := some sm, shadow := .ready }
    let s := { s with swath := { s.swath with subst := q }, audit := if q.byAudit then recordEdits s.audit else s.audit }
    swapsAtOnce (evTableReady { source := 2, table := 0x10, cv := cv, flags := bitAt q.byAudit 0 } s)

/-- The end of a substitution build: images from the DRAM, or the audit's edits of the active map (R186, R190, R324). -/
def substBuilt (s : State) : State :=
  let s := bgEnd .subst s
  if s.swath.subst.byAudit then
    let edit (p : Nat) (cs : List Nat) : List Nat :=
      let n := match geometryOf s p with | some r => 256 * slicesOf r.nozzles | none => 0
      let base := (List.range n).map fun k => cs.getD k 0
      (s.audit.edits.filter fun e => e.1 / 8192 == p).foldl (fun b e => b.set (e.1 % 8192) e.2) base
    let m : Vector (List Nat) 16 := Vector.ofFn fun i => if portSet s i.val then edit i.val s.swath.subst.active.codes[i] else []
    let cv := mapCv (((List.range 16).filter (portSet s)).map fun p => (crc32c (substImage (nthOr m p []))).toNat)
    substReady m cv s
  else match readSubst ((List.range 16).filter (portSet s)) s with
    | (.error (p, d), s) => substFailed p 0 d s
    | (.ok l, s) =>
      substReady (Vector.ofFn fun i => match l.find? fun e => e.1 == i.val with | some e => e.2.1 | none => []) (mapCv (l.map (·.2.2))) s

/-- TABLE_BUILD_DONE (R186): a build of a port's greyscale map (0 to 15) or of the substitution map (0x10) ends. -/
def execTableBuildDone (table : Nat) (s : State) : Host.Outcome State Fault Refusal :=
  if table = 0x10 then .next (if s.swath.subst.shadow = .building then substBuilt s else s)
  else .next (if table < 16 ∧ (greyPair s table).shadow = .building then greyBuilt table s else s)

/-! ## Swath-start permission -/

/-- A latch of the Firing region or of one of its blocks is occupied (Table 14.5). -/
def firingLatched (s : State) : Bool := s.faults.recs.any fun r => r.latch.isSome && r.inst.level != .chip && regionOf r.inst.source == 2

/-- A configured port is in a state that withholds the permission: head fault, no valid record, or mismatch (R250). -/
def headBlocks (s : State) : Bool :=
  (portsOn s).any fun p => let h := nthOr s.heads p {}; h.fault || h.record.isNone || !h.present || h.mismatch

/-- R208, or in legacy R260, holds for a port: 1 RANK_SCALE, 2 LEGACY_MASK; 0 when neither does. -/
def staleCause (s : State) (p : Nat) : Nat :=
  match activeBank (nthOr s.wave p {}), (nthOr s.heads p {}).record with
  | some b, some r =>
    if b.rankScale ≠ r.rankScale then 1
    else if s.sys.legacy && (b.masks.getD 1 0 ≠ 1 || b.masks.getD 2 0 ≠ 3 || b.masks.getD 3 0 ≠ 7) then 2 else 0
  | _, _ => 0

/-- `ev.wave_stale`, the first time the condition holds on a port (Table 19.3). -/
def noteStale (s : State) (p : Nat) : State :=
  let c := staleCause s p; let w := nthOr s.wave p {}
  if c = 0 then setWave p (fun w => { w with stale := false }) s
  else if w.stale then s
  else
    let b := (activeBank w).map (·.rankScale); let r := (nthOr s.heads p {}).record.map (·.rankScale)
    emit { code := 0x0701, source := 0x30 + p, status := c,
           payload := leBytes 1 p ++ [0] ++ leBytes 2 (b.getD 0) ++ leBytes 2 (r.getD 0) ++ zeros 10 }
      (setWave p (fun w => { w with stale := true }) s)

/-- A port's banks are ready for a swath's start (R209): in HOLD the stream, which carries IDLE frames then, has sent its lead before (R171, log 22). -/
def bankReady (s : State) (p : Nat) : Bool :=
  let w := nthOr s.wave p {}
  (match activeBank w with | some b => !b.bad | none => false) && staleCause s p == 0 && w.pending != some true && w.move.isNone &&
    (decide (8 ≤ w.drive) || (s.sys.mode = .hold && w.led))

/-- A swap that was requested and that the permission does not make withholds it: one that is REQUIRED, and in Markhor one whose table is READY; a
linked pair is made only together (R171, R206, R209). -/
def swapBlocks (s : State) (p : Nat) : Bool :=
  let g := greyPair s p; let w := nthOr s.wave p {}
  let markhor : Bool := s.sys.profile = .markhor
  let gMade := g.shadow == .ready && (!isLinked s p || (w.pending.isSome && w.shadow == .ready))
  let wMade := w.shadow == .ready && (!isLinked s p || g.shadow == .ready)
  (match g.pending with | some q => !gMade && (q.required || (markhor && g.shadow == .ready)) | none => false) ||
    (match w.pending with | some rq => !wMade && (rq || (markhor && w.shadow == .ready)) | none => false)

/-- A swap that was requested withholds the permission (R171). -/
def requiredWaits (s : State) : Bool :=
  ((match s.swath.subst.pending with | some q => q.required | none => false) && s.swath.subst.shadow != .ready) || (portsOn s).any (swapBlocks s)

/-- What the next swath is made of, by mode: the next plan of the job, the maintenance sequence, or the audit pattern. -/
def nextSwath (s : State) : Option (SwathKind × SwathPlan) :=
  match s.sys.mode with
  | .print | .hold => if s.job.started then (s.swath.plans.head?).map fun q => (.job, q) else none
  | .maintain => if s.pace.mStop || s.pace.ended || !(s.pace.source == .timer || s.pace.source == .sched) then none
      else some (.maint, { first := 0, ls := some s.pace.mLines })
  | .audit => match s.audit.pass with
    | some a =>
      if s.pace.ended then none else
      let lp := pnat a.params 20 0 2 * 2 * pnat a.params 16 0 32 * (pnat a.params 18 0 8 + pnat a.params 17 0 8)
      some (.audit, { first := 0, ls := some (lp + ((List.range 16).map fun p => pnat a.params 21 p 0).foldl max 0) })
    | none => none
  | _ => none

/-- Enough lines of the next swath are staged on every head (R171). -/
def stagedEnough (s : State) (k : SwathKind) (q : SwathPlan) : Bool :=
  let need := match q.ls with | some n => min 64 n | none => 64
  match k with
  | .job => (portsOn s).all fun h => decide (need ≤ stagedFrom s h need q.first)
  | .maint | .audit => true

/-- The conditions of the permission other than the swaps and banks (R171, R250, R409, R442). -/
def permissionBase (s : State) : Option (SwathKind × SwathPlan) :=
  match nextSwath s with
  | none => none
  | some (k, q) =>
    if s.swath.active || isWithheld s || s.faults.discard.isSome || firingLatched s || headBlocks s || requiredWaits s ||
        (match s.twin.hand with | some h => h.step != .due | none => false) ||
        !stagedEnough s k q then none
    else some (k, q)

/-- `ev.swath_start` or `ev.swath_end` of a job's swath (Table 19.3). -/
def evSwath (code a b : Nat) (s : State) : State :=
  if s.swath.kind ≠ .job then s
  else emit { code := code, source := 2, payload := leBytes 4 a ++ leBytes 4 b ++ leBytes 4 s.swath.no ++ leBytes 4 (if s.job.isOpen then s.job.id else 0) } s

/-- What the preparation of a line meets in the stores or in a cell pair stops it (R191, Table 6.8): whether it does, and what is recorded. A
word that can be corrected does not (R380), and a word of no swath quadrant is not read; a pair exists in Markhor only, and one that no slice is
assigned to, or a cell without one, reports nothing (R163). -/
def prepFault (e : PrepErr) (p f : Nat) (s : State) : Bool × State :=
  match e with
  | .none_ => (false, s)
  | .ecc addr synd =>
    let q := wordOwner addr
    if q < 0x20 ∨ 0x23 < q ∨ (512 * 8192 ≤ addr ∧ cellServes s (addr / 8192 - 512) = false) then (false, s)
    else
      let (bad, s) := ownerFinds q (ondieSource addr) addr synd s
      (bad, if bad then engineFault .sweEcc q 0xFFFF s else s)
  | .pair u b4 =>
    if s.sys.profile ≠ .markhor ∨ cellSlices s ≤ u then (false, s)
    else
      let q := 0x20 + 2 * u / 128
      (true, engineFault .pairMismatch q 0xFFFF
        (emit { code := 0x0607, source := q, flags := bitAt b4 0, keep := true
                payload := leBytes 2 u ++ leBytes 1 p ++ [0] ++ leBytes 4 f ++ leBytes 4 ((nthOr s.swath.line p {}).fJob + 1) ++ zeros 4 } s))

/-- A swath opens in the swath engine. -/
def openSwath (k : SwathKind) (q : SwathPlan) (s : State) : State :=
  let d := if k = .maint then 0 else dBarOf s
  { s with swath := { s.swath with
    active := true, kind := k, first := q.first, ls := q.ls, layerEnd := q.layerEnd, last := q.last, dBar := d, lateReported := false
    held := [], marksInForce := s.swath.marksPending && k == .job
    marksPending := s.swath.marksPending && k != .job
    line := s.swath.line.map fun l => { l with prep := 0, ready := none, fired := 0, clipReported := false, shifted := none, dead := l.shifting.isSome,
                                                readLine := if k = .job then q.first else l.readLine } } }

/-- Line 0 of a port is prepared, and on port at_ meets e (R160). -/
def prepareFirst (at_ : Nat) (e : PrepErr) (s : State) (p : Nat) : State :=
  let (bad, s) := if p = at_ && !isWithheld s then prepFault e p 0 s else (false, s)
  if bad then s else deliverLine p 0 s

/-- A swath begins in the swath engine, and line 0 is prepared on every port (R160). -/
def beginSwath (k : SwathKind) (q : SwathPlan) (s : State) : State := (portsOn s).foldl (prepareFirst 0 .none_) (openSwath k q s)

/-- The swath starts and is reported, and line 0 is prepared on every port (R160, R171). -/
def startSwath (k : SwathKind) (q : SwathPlan) (at_ : Nat) (e : PrepErr) (s : State) : State :=
  let s := openSwath k q s
  let s := evSwath 0x0603 q.first ((swathLines s).getD 0) s
  let s := mirror (stateRecord s) (cvuSwathStart s)
  (portsOn s).foldl (prepareFirst at_ e) s

/-- The permission is evaluated: the swaps due are made, and when the banks are ready the swath starts (R171, R209). -/
def grantPermission (at_ : Nat) (e : PrepErr) (s : State) : State :=
  let s := (portsOn s).foldl noteStale s
  match permissionBase s with
  | none => s
  | some (k, q) =>
    let s := swapSubstDue .permission ((portsOn s).foldl (fun s p => swapPort .permission 0 p s) s)
    let s := (portsOn s).foldl noteStale s
    if (portsOn s).all (bankReady s) then startSwath k q at_ e s else s

/-- SWATH_START_PERMISSION (R171); `err` is what the preparation of line 0 on a port meets. -/
def execSwathStartPermission (p : Fin 16) (err : PrepErr) (s : State) : Host.Outcome State Fault Refusal := .next (grantPermission p.val err s)

/-! ## Lines that count as fired -/

/-- The nozzles of a head line that carry a drop. -/
def firedNozzles (r : HeadRecord) (mirror : Bool) (h : HeadLine) : List Nat :=
  h.rows.zipIdx.flatMap fun row => (row.1.zipIdx.filter fun c => c.1 != 0).map fun c => nozzleAt r mirror row.2 c.2

/-- The rows' highest fired job lines after firing line f (R175). -/
def noteRows (s : State) (p f : Nat) (l : PortLine) : PortLine :=
  { l with rowFired := Vector.ofFn fun i =>
      let d := delayOf s p i.val
      if i.val < rowsOf s p ∧ d ≤ f ∧ isJobLine s (f - d) then
        some (max (s.swath.first + (f - d)) ((l.rowFired[i]).getD 0))
      else l.rowFired[i] }

/-- PAC_LINE after a fired line: the committed lines of the swath above its first (R174). -/
def commitLines (s : State) : State :=
  match s.swath.kind with
  | .job =>
    let least := ((portsOn s).map fun p => (nthOr s.swath.line p {}).fired).foldl min (2 ^ 32)
    let done := least - s.swath.dBar
    let n := match s.swath.ls with | some ls => min done ls | none => done
    { s with job := { s.job with pacLine := BitVec.ofNat 32 (s.swath.first + n) } }
  | _ => s

/-- Every port has fired every firing line of the swath. -/
def swathDone (s : State) : Bool :=
  match swathLines s with
  | some n => (portsOn s).all fun p => decide (n ≤ (nthOr s.swath.line p {}).fired)
  | none => false

/-- A cycle of some port still has windows to open or to close. -/
def cyclesRun (s : State) : Bool := s.wave.any fun w => !w.cycles.isEmpty

/-- PRINT ends once the job's last line has fired (Table 2.3): a transition into IDLE that lasts until the windows of its cycles have closed, so that
no window of the last line is cut (R37, R41; assumption log 35). -/
def finishJob (s : State) : State :=
  if cyclesRun s then { s with sys := { s.sys with transition := some { target := .idle, cause := causeComplete } } }
  else changeMode .idle causeComplete s

/-- The end of a swath: `ev.swath_end`, the HEAD counters, marks in force cleared, the layer counted; the last swath of a job ends
PRINT (R171, R175, R444, Table 2.3). -/
def endSwath (s : State) : State :=
  let s := evSwath 0x0604 (((swathLines s).getD 1) - 1) s.job.pacLine.toNat s
  let s := reportGroup 1 s
  let k := s.swath.kind; let last := s.swath.last; let layer := s.swath.layerEnd
  let s := cvuSwathEnd { s with
    swath := { s.swath with
      active := false, no := if k = .job then s.swath.no + 1 else s.swath.no, plans := if k = .job then s.swath.plans.tail else s.swath.plans
      held := [], marksInForce := false
      line := if s.swath.marksInForce then s.swath.line.map fun l => { l with marks := Vector.replicate 8 none } else s.swath.line }
    twin := if k == .job && layer then { s.twin with layers := s.twin.layers + 1 } else s.twin }
  let s := mirror (stateRecord s) s
  if k == .job && last && s.sys.mode == .print then finishJob s else s

/-- In-line inspection runs: an inspecting job in PRINT, unless AUD_ECC has stopped it (R331, R333). -/
def inspecting (s : State) : Bool := s.job.isOpen && s.job.inspect && s.sys.mode == .print && !s.audit.stopped

/-- PIXELS and the camera position of nozzle n of port p in units of 1/256 pixel (R315). -/
def cameraPixels (s : State) : Nat := pnat s.audit.params 3 0 16384
def cameraPos (s : State) (p n : Nat) : Int := pget s.audit.params 4 p 0 + n * pget s.audit.params 5 p 8192 / 256

/-- The pixel column of a nozzle, if it lies in the camera's field. -/
def cameraColumn (s : State) (p n : Nat) : Option Nat :=
  let q := cameraPos s p n / 256
  if 0 ≤ q ∧ q < cameraPixels s then some q.toNat else none

/-- An open window holds a job line. -/
def InlineWin.holds (line : Nat) (w : InlineWin) : Bool := !w.closed && decide (w.first ≤ line) && decide (line < w.first + w.len)

/-- Open windows closed, to be judged; lines of theirs that come later are in no window (R331). -/
def closeWindows (p : InlineWin → Bool) (a : Audit) : Audit :=
  { a with windows := a.windows.map fun w => if p w then { w with closed := true } else w
           winDone := ((a.windows.filter p).map fun w => w.first + w.len).foldl max a.winDone }

/-- The open window that holds a job line changed, or a new one begun in the accumulator whose turn it is: windows alternate between the two, and an
open window that still holds the accumulator closes then (R331; DESIGN CHOICE for the last, log 32). -/
def intoWindow (line : Nat) (f : InlineWin → InlineWin) (a : Audit) : Audit :=
  let len := pnat a.params 9 0 4096
  if line < a.winDone then a
  else if a.windows.any (InlineWin.holds line) then { a with windows := a.windows.map fun w => if w.holds line then f w else w }
  else
    let a := closeWindows (fun w => !w.closed && w.first / w.len % 2 == line / len % 2) a
    { a with windows := a.windows ++ [f { first := line / len * len, len := len }] }

/-- E_q for the drops of a fired line of the job (R331). -/
def inlineFires (p : Nat) (r : HeadRecord) (h : HeadLine) (ns : List Nat) (s : State) : State :=
  if !(inspecting s && s.swath.kind == .job) then s
  else
    let drop (a : Audit) (n : Nat) : Audit :=
      let d := delayOf s p (rowOfNozzle r (mirrorOf s p) n)
      match cameraColumn s p n with
      | some q =>
        if h.f < d then a
        else intoWindow (s.swath.first + (h.f - d)) (fun w => { w with fires := SMap.put 0 w.fires q (SMap.get 0 w.fires q + 1) }) a
      | none => a
    { s with audit := ns.foldl drop s.audit }

/-- The windows whose last line has now been committed; the job's last line ends the window that holds it (R331). -/
def inlineCommit (s : State) : State :=
  let line := s.job.pacLine.toNat
  let complete : Bool := s.swath.last && s.swath.ls.any fun n => decide (s.swath.first + n ≤ line)
  if s.audit.windows.isEmpty then s
  else { s with audit := { s.audit with windows := s.audit.windows.map fun w =>
    if w.lastCommit.isNone && (complete || decide (w.first + w.len ≤ line)) then { w with lastCommit := some s.clock } else w } }

/-- A firing line counts as fired on a port (R238): the fire counters, the head's usage, the rows' marks, the mirror, PAC_LINE and the
end of the swath. -/
def lineFired (p : Nat) (h : HeadLine) (s : State) : State :=
  match recordOf s p with
  | none => s
  | some r =>
    let ns := firedNozzles r (mirrorOf s p) h
    let s := meetAccs (fun w => ns.any fun n => accKey p n / 2 == w) s
    let s := { s with
      life := { s.life with acc := ns.foldl (fun a n => countFire p n a) s.life.acc }
      heads := updAt s.heads p fun x => { x with fires := x.fires + ns.length } }
    let s := inlineFires p r h ns s
    let s := setLine p (fun l => let l := if s.swath.kind = .job then noteRows s p h.f l else l; { l with fired := h.f + 1 }) s
    let s := inlineCommit (commitLines (mirror (lineRecord p h) s))
    if s.swath.active && swathDone s then endSwath s else s

end Sys2Proof.Machine
end

