-- ==== Sys2Proof/Machine/Wave.lean ====
section
/-! DEFINITION. The waveform engines: bank images and builds (R197 to R203, R220), swaps (R204), the fire cycle (R195), rest-level moves
(R210), the waveform stream (R211 to R215) and errors of the bank store (R218). -/
namespace Sys2Proof.Machine

/-! ## The period a bank is checked against -/

/-- The state as it would stand after a `cfg.commit` of the present settings with the records now read: what checks made in CONFIGURE use. -/
def asCommitted (s : State) : State :=
  let bar := s.cfg.staged.bar
  { s with
    cfg := { s.cfg with live := s.cfg.staged }
    sys := { s.sys with
      profile := if pon bar 1 0 false then .markhor else .impala, legacy := pon bar 2 0 s.sys.straps.lgcySel }
    heads := Vector.ofFn fun i => { s.heads[i] with
      committed := if pon (nthOr s.cfg.staged.heads i.val []) 1 0 false then s.heads[i].record else s.heads[i].committed } }

/-- T_port of a port for the PERIOD check: in CONFIGURE that of the present settings, elsewhere the one in force (R200, R296, log 28). -/
def tPortCheck (s : State) (p : Nat) : Nat :=
  if s.sys.mode = .configure then tPortNow (asCommitted s) p else (nthOr s.heads p {}).tPort

/-! ## Bank images -/

/-- START and END of the windows of an image. -/
def imageWindow (b : List Byte) (w : Nat) : Nat × Nat := (uAt b (12 + 4 * w) 2, uAt b (14 + 4 * w) 2)

/-- The window rules of R198. -/
def windowsOk (b : List Byte) (nwin len : Nat) : Bool :=
  decide (nwin ≤ 7) && (List.range 7).all fun w =>
    let x := imageWindow b w
    if w < nwin then
      decide (x.1 < x.2) && decide (x.2 + 1 ≤ len) && (w == 0 || decide ((imageWindow b (w - 1)).2 ≤ x.1))
    else x == (0, 0)

/-- The mask rules of R198, with R220 in legacy. -/
def masksOk (legacy : Bool) (b : List Byte) (nwin : Nat) : Bool :=
  uAt b 40 1 == 0 && ((List.range 8).all fun c => decide (uAt b (40 + c) 1 < 2 ^ nwin)) &&
    (!legacy || (List.range 4).all fun c => uAt b (44 + c) 1 == 0)

/-- Sample k of an image. -/
def imageSample (b : List Byte) (k : Nat) : Nat := uAt b (64 + 2 * k) 2

/-- The gain of a build (R199). -/
def gainOf (rankScale trim : Nat) : Nat := (rankScale * trim + 8192) / 2 ^ 14

/-- A sample scaled by a gain (R199): an arithmetic shift takes the floor. -/
def scaled (rest g x : Nat) : Int := rest + (((x : Int) - rest) * g + 8192) / 2 ^ 14

/-- The checks of Table 7.2 in order: the bank built, or the detail and the gain reported. -/
def buildBank (legacy : Bool) (tPort rankScale trim : Nat) (b : List Byte) : Except (Nat × Nat) Bank :=
  let len := uAt b 6 2; let nwin := uAt b 5 1; let rest := uAt b 8 2; let step := uAt b 10 2
  let g := gainOf rankScale trim
  let built := (List.range len).map fun k => scaled rest g (imageSample b k)
  if uAt b 0 4 ≠ 0x45564157 then .error (1, 0)
  else if uAt b 4 1 ≠ 1 then .error (2, 0)
  else if len < 16 ∨ 4096 < len then .error (3, 0)
  else if (crc32c (b.take (64 + 2 * len))).toNat ≠ uAt b (64 + 2 * len) 4 then .error (4, 0)
  else if ((b.drop 48).take 16).any (· ≠ 0) || (List.range 8).any fun c => bitOf (uAt b (40 + c) 1) 7 then .error (5, 0)
  else if !windowsOk b nwin len then .error (6, 0)
  else if !masksOk legacy b nwin then .error (7, 0)
  else if imageSample b 0 ≠ rest ∨ imageSample b (len - 1) ≠ rest then .error (8, 0)
  else if tPort < (len + 1) * 40 then .error (9, 0)
  else if g < 8192 ∨ 24576 < g then .error (10, g)
  else if built.any fun x => decide (x < 0) || decide (65535 < x) then .error (11, g)
  else if step ≠ 0 && (built.zip built.tail).any fun x => decide ((step : Int) < x.1 - x.2) || decide ((step : Int) < x.2 - x.1) then .error (12, g)
  else
    let samples := built.map Int.toNat
    .ok { length := len, rest := rest, maxStep := step, nwin := nwin, wins := (List.range nwin).map (imageWindow b)
          masks := (List.range 8).map fun c => uAt b (40 + c) 1
          samples := samples, g := g, rankScale := rankScale
          cv := (crc32c (samples.flatMap (leBytes 2) ++ (b.drop 12).take 36)).toNat }

/-! ## Commands -/

/-- The refusal of an image whose header or whole length is out of place: its length comes from its own header (R197, R202). -/
def badBank (s : State) (a : Nat) : Option Status :=
  match badImage s a 64 with
  | some st => some st
  | none => badImage s a (68 + 2 * uAt (Mem.readN s.mem.dram a 64) 6 2)

/-- `wave.load` (R202). -/
def waveLoad (p : List Byte) (s : State) : Reply × State :=
  let port := uAt p 0 1; let trim := uAt p 2 2; let a := uAt p 8 8
  let w := nthOr s.wave port {}
  if 16 ≤ port || !portSet s port then refuse .badArg 0 s
  else if trim < 8192 ∨ 24576 < trim then refuse .badArg 2 s
  else match badBank s a with
    | some st => refuse st (if st = .badArg then 8 else 0) s
    | none =>
      if (nthOr s.heads port {}).record.isNone then refuse .badState 0 s
      else if w.shadow = .building ∨ w.pending.isSome then refuse .busy 0 s
      else okWith [] (bgStart (.wave port) (setWave port (fun w => { w with shadow := .building, addr := a, trim := trim }) s))

/-- WAVE_LOAD (R202). -/
def execWaveLoad (s : State) : Host.Outcome State Fault Refusal := .next (runCommand 0x0701 waveLoad s)

/-- `wave.swap` (R204). A bit of FLAGS that its row does not list is a value out of range (DESIGN CHOICE, log 25). -/
def waveSwap (p : List Byte) (s : State) : Reply × State :=
  let port := uAt p 0 1; let f := uAt p 1 1
  let w := nthOr s.wave port {}
  if 16 ≤ port then refuse .badArg 0 s
  else if 1 < f then refuse .badArg 1 s
  else if w.shadow = .empty ∨ w.shadow = .failed then refuse .badState 0 s
  else if w.pending.isSome then refuse .busy 0 s
  else okWith [] (swapsAtOnce (setWave port (fun w => { w with pending := some (f == 1) }) s))

/-- WAVE_SWAP (R204). -/
def execWaveSwap (s : State) : Host.Outcome State Fault Refusal := .next (runCommand 0x0702 waveSwap s)

/-- The parameters of `wave.config` (Table 18.5). -/
def waveSpecs : List PSpec := [⟨1, 1, 0, 511, some 80⟩, ⟨2, 1, 0, 65535, some 0⟩]

/-- `wave.config`: settings that take effect at `cfg.commit` (R196, R210). -/
def waveConfig (p : List Byte) (s : State) : Reply × State :=
  let port := listTarget p 0
  if 16 ≤ port then refuse .badArg 0 s
  else match judgeList waveSpecs noRelation (nthOr s.cfg.staged.waves port []) (listItems p 0) with
    | .error d => refuse .badArg d s
    | .ok m => okWith [] { s with cfg := { s.cfg with staged := { s.cfg.staged with waves := updAt s.cfg.staged.waves port fun _ => m } } }

/-- WAVE_CONFIG (R196). -/
def execWaveConfig (s : State) : Host.Outcome State Fault Refusal := .next (runCommand 0x0703 waveConfig s)

/-- `wave.test` (R214): from the next frame boundary the pattern begins, or OFF returns the port to IDLE frames. -/
def waveTest (p : List Byte) (s : State) : Reply × State :=
  let port := uAt p 0 1; let k := uAt p 1 1
  if 16 ≤ port then refuse .badArg 0 s
  else if 3 < k then refuse .badArg 1 s
  else okWith [] (setWave port (fun w => { w with test := k, testValue := uAt p 2 2, testNew := true }) s)

/-- WAVE_TEST (R214). -/
def execWaveTest (s : State) : Host.Outcome State Fault Refusal := .next (runCommand 0x0704 waveTest s)

/-! ## Builds -/

/-- A port's waveform build has failed: the shadow is FAILED and pending requests are cancelled (R200, R203, R206). -/
def waveFailed (p d g : Nat) (s : State) : State :=
  let (fl, s) := cancelPending p false (setWave p (fun w => { w with
    shadow := .failed, banks := updAt w.banks (1 - w.active) fun _ => none }) s)
  evTableReady { source := 0x30 + p, table := 0x20 + p, failed := true, detail := d, port := p, g := g, flags := fl } s

/-- The on-die number of word 0 of a bank in a port's bank store of 16 KiB, which holds both (R201). -/
def bankBase (p bank : Nat) : Nat := (448 + p) * 8192 + 1024 * bank

/-- A build has written a whole bank of a port's store: poison in it is gone (R576). -/
def writeBankStore (p bank : Nat) (s : State) : State :=
  ownerWrites (bankBase p bank) (bankBase p bank + 1024) s

/-- A port's waveform build ends READY; in CONFIGURE the bank is active at once (R203). -/
def waveReady (p : Nat) (b : Bank) (s : State) : State :=
  let s := writeBankStore p (1 - (nthOr s.wave p {}).active) s
  let s := setWave p (fun w => { w with shadow := .ready, banks := updAt w.banks (1 - w.active) fun _ => some b }) s
  let s := if s.sys.mode = .configure then activateBank p b s else s
  swapsAtOnce (evTableReady { source := 0x30 + p, table := 0x20 + p, g := b.g, cv := b.cv } s)

/-- The end of a waveform build: the image is read, and the checks of Table 7.2 are made for the head now read (R199, R200). -/
def waveBuilt (p : Nat) (s : State) : State :=
  let w := nthOr s.wave p {}
  let n := 68 + 2 * uAt (Mem.readN s.mem.dram w.addr 64) 6 2
  let (d, s) := dramRead 1 w.addr n s
  let s := bgEnd (.wave p) s
  match d with
  | none => waveFailed p 13 0 s
  | some b =>
    match buildBank s.sys.legacy (tPortCheck s p) ((nthOr s.heads p {}).record.elim 0 (·.rankScale)) w.trim b with
    | .error (e, g) => waveFailed p e g s
    | .ok bank => waveReady p bank s

/-- Samples of a cycle that plays a bank are still being sent at a clock. -/
def bankSending (w : WavePort) (bank now : Nat) : Bool :=
  w.played.any fun c => c.bank == bank && (match (w.banks[c.bank]?).join with
    | some b => decide (now < c.startAt + 32 * (b.length + (if c.err.isSome then 64 else 0)))
    | none => false)

/-- A prepared line of a port that has not fired plays the bank that is no longer active: after a swap made at once in HOLD (R189, R205). -/
def oldBankWaits (s : State) (p : Nat) : Bool :=
  let w := nthOr s.wave p {}
  let old (l : PortLine) (h : HeadLine) : Bool := h.bank == 1 - w.active && decide (l.fired ≤ h.f)
  let waits (q : Swath) : Bool :=
    let l := nthOr q.line p {}
    q.active && (l.ready.any (old l) || l.shifting.any (fun h => old l h.1) || l.shifted.any fun h => old l h.1)
  waits s.swath || s.parked.any (fun q => waits q.1) || w.token.any (fun h => h.bank == 1 - w.active) ||
    (w.cycles.any fun c => c.bank == 1 - w.active) || bankSending w (1 - w.active) s.clock

/-- WAVE_BUILD_DONE (R200): a build ends; it cannot while a cycle played from the bank is still to come or has windows to close (R207). -/
def execWaveBuildDone (p : Fin 16) (s : State) : Host.Outcome State Fault Refusal :=
  .next (if s.wave[p].shadow = .building && !oldBankWaits s p.val then waveBuilt p.val s else s)

/-! ## The fire cycle -/

/-- A port may start a cycle: its token has come, it may fire, its bank can be played, no rest move stands before it, and DRIVE frames have
been sent for the lead of R215 (R195, R210, R217, R218). A move to the active bank's level waits for the last cycle on the old bank. -/
def cycleReady (s : State) (p : Nat) : Bool :=
  let w := nthOr s.wave p {}
  match w.token with
  | none => false
  | some h =>
    portFires s p && (match (w.banks[h.bank]?).join with | some b => !b.bad | none => false) &&
      (w.move.isNone || h.bank != w.active) && decide (8 ≤ w.drive)

/-- CYCLE_START (R195): sample 0 of the cycle is sent. -/
def execCycleStart (p : Fin 16) (s : State) : Host.Outcome State Fault Refusal :=
  .next (if cycleReady s p.val then
      setWave p.val (fun w => match w.token with
        | some h => { w with
            token := none, cycles := w.cycles ++ [{ line := h, bank := h.bank, startAt := s.clock }]
            played := ({ startAt := s.clock, bank := h.bank } :: w.played).take 2 }
        | none => w) s
    else s)

/-- REST_LEVEL_MOVE (R210): at a frame boundary, once the windows of the last cycle on the old bank have closed, the move begins. -/
def execRestLevelMove (p : Fin 16) (s : State) : Host.Outcome State Fault Refusal :=
  .next (if s.wave[p].cycles.isEmpty && !oldBankWaits s p.val then setWave p.val (fun w => { w with move := w.move.map fun m => { m with started := true } }) s else s)

/-! ## The stream -/

/-- The level of a move after k steps. -/
def RestMove.level (m : RestMove) (k : Nat) : Nat :=
  let part (d : Nat) : Nat := if m.up then ceilDiv (d * k) m.steps else d * k / m.steps
  if m.steps ≤ k then m.target
  else if m.origin ≤ m.target then m.origin + part (m.target - m.origin) else m.origin - part (m.origin - m.target)

/-- The level sent between cycles in one sample period, and the engine after it. -/
def restSample (w : WavePort) : Nat × WavePort :=
  match w.move with
  | some m =>
    if m.started then
      let v := m.level (m.made + 1)
      (v, if m.steps ≤ m.made + 1 then { w with level := v, move := none } else { w with level := v, move := some { m with made := m.made + 1 } })
    else (w.level, w)
  | none => (w.level, w)

/-- The sample period, counted from the start of a frame, in which sample 0 of a cycle is sent. -/
def startPeriod (frame : Nat) (c : Played) : Int := ((c.startAt : Int) - frame) / 32

/-- The sample a played cycle sends at sample number n: the bank's, or after an uncorrectable word the last good one until the cycle's
end and a line of 64 samples back to REST (R218); none once it is over. -/
def cycleSample (b : Bank) (c : Played) (n : Nat) : Option Nat :=
  match c.err with
  | none => if n < b.length then some (b.samples.getD n b.rest) else none
  | some e =>
    let last := if e = 0 then b.rest else b.samples.getD (e - 1) b.rest
    if n < e then some (b.samples.getD n b.rest)
    else if n < b.length then some last
    else if n < b.length + 64 then
      let k := n - b.length + 1
      let part (d : Nat) : Nat := if c.errUp then ceilDiv (d * k) 64 else d * k / 64
      some (if last ≤ b.rest then last + part (b.rest - last) else last - part (last - b.rest))
    else none

/-- The sample of period k of a frame that began at a clock. -/
def sampleAt (frame k : Nat) (w : WavePort) : Nat × WavePort :=
  let hit := w.played.findSome? fun c =>
    let n := (k : Int) - startPeriod frame c
    if n < 0 then none else match (w.banks[c.bank]?).join with | some b => cycleSample b c n.toNat | none => none
  match hit with
  | some v => (v, w)
  | none => restSample w

/-- Sixteen bits of PRBS15, bit 15 first (Table 4.15). -/
def prbsWord (g : BitVec 15) : Nat × BitVec 15 :=
  (List.range 16).foldl (fun (x : Nat × BitVec 15) _ =>
    let bit := x.2.getLsbD 14 ^^ x.2.getLsbD 13
    (2 * x.1 + (if bit then 1 else 0), (x.2 <<< 1) ||| (if bit then 1 else 0))) (0, g)

/-- One word of a TEST frame, by the pattern in force since the frame began. -/
def testSample (k : Nat) (w : WavePort) : Nat × WavePort :=
  match w.frTest with
  | 1 => ((64 * w.frameNo.toNat + k) % 65536, w)
  | 2 => let r := prbsWord w.prbs; (r.1, { w with prbs := r.2 })
  | _ => (w.frValue, w)

/-- The 64 samples of a frame. -/
def frameSamples (frame : Nat) (w : WavePort) : List Nat × WavePort :=
  let r := (List.range 64).foldl (fun (x : List Nat × WavePort) k =>
    let v := if w.frType = 2 then testSample k x.2 else sampleAt frame k x.2
    (v.1 :: x.1, v.2)) ([], w)
  (r.1.reverse, r.2)

/-- Control words 0 to 61 of a frame (Table 7.4). -/
def controlWords (p frame : Nat) (w : WavePort) : List Nat :=
  let at_ := w.played.findSome? fun c =>
    let k := startPeriod frame c
    if 0 ≤ k ∧ k < 64 then some k.toNat else none
  [0xD3A6, w.frType + 16 * w.frBank + 32 * p, at_.getD 0xFFFF, w.frameNo.toNat, w.frRest] ++ List.replicate 57 0

/-- A cycle's samples are still being sent at a clock. -/
def cycleSending (w : WavePort) (now : Nat) : Bool := bankSending w 0 now || bankSending w 1 now

/-- The type of the next frame (Table 7.5, R214, R215); the stream of a stopped port sends IDLE frames (R405). -/
def nextType (s : State) (stopped : Bool) (w : WavePort) : Nat :=
  if stopped then 0
  else if s.sys.mode.firing then (if 8 ≤ w.lead then 1 else 0)
  else if w.frType = 1 ∧ cycleSending w s.clock then 1
  else if s.sys.mode = .service ∧ w.test ≠ 0 then 2
  else 0

/-- The engine at a frame boundary: the frame just sent counted, and the next frame's type, test pattern, bank and rest code fixed; a stream that is
ending holds its outputs at 0 (R215). -/
def frameBoundary (s : State) (stopped : Bool) (w : WavePort) : WavePort :=
  if w.ending then { w with on := false, ending := false, drive := 0, led := false, lead := 0, test := 0, testNew := false, frType := 0, played := [] }
  else
    let lead := min 8 (w.lead + 1); let drive := if w.frType = 1 then min 8 (w.drive + 1) else 0
    let type := nextType s stopped { w with lead := lead }
    let w := { w with
      lead := lead, drive := drive, led := decide (8 ≤ drive) || (w.led && (s.sys.mode.firing || s.sys.mode = .hold)), frameNo := w.frameNo + 1
      frType := type, frBank := w.active, frRest := w.level }
    if type = 2 then { w with frTest := w.test, frValue := w.testValue, testNew := false, prbs := if w.testNew then 0x7FFF else w.prbs } else w

/-- An uncorrectable word of a bank store met by the stream or by the store's check (R218): WAV_ECC; during a cycle the cycle is cut and
the stream holds; outside one the bank is unusable, and a shadow becomes FAILED. -/
def bankError (p bank at_ frame : Nat) (s : State) : State :=
  let w := nthOr s.wave p {}
  let n (c : Played) : Int := (at_ : Int) - startPeriod frame c
  let playing (c : Played) : Bool := c.bank == bank && decide (0 ≤ n c) &&
    (match (w.banks[c.bank]?).join with | some b => decide (n c < b.length) | none => false) && c.err.isNone
  let (up, s) := freeBool s
  let s := setWave p (fun w => { w with
    banks := updAt (w.banks.map (Option.map fun b => { b with old := true })) bank (Option.map fun b => { b with bad := true })
    played := w.played.map fun c => if playing c then { c with err := some (n c).toNat, errUp := up } else c
    cycles := (w.cycles.map fun c => if w.played.any (fun q => playing q && q.startAt == c.startAt) then { c with cut := true } else c).filter
      fun c => !c.cut || c.open_.isSome }) s
  let s := if w.played.any playing ∨ bank = w.active then s else waveFailed p 13 0 s
  engineFault .wavEcc (0x30 + p) 0xFFFF s

/-- The words of the bank store that the periods of a frame read and that stand with a wrong syndrome: the period, the bank and the word's number. -/
def storedErrors (p frame : Nat) (s : State) : List (Nat × Nat × Nat) :=
  let w := nthOr s.wave p {}
  if !(s.mem.ondie.any fun e => decide (bankBase p 0 ≤ e.1) && decide (e.1 < bankBase p 2)) then []
  else (List.range 64).filterMap fun (k : Nat) => w.played.findSome? fun c =>
    let n := (k : Int) - startPeriod frame c
    let a := bankBase p c.bank + n.toNat / 4
    let len := match (w.banks[c.bank]?).join with | some b => b.length | none => 0
    if 0 ≤ n ∧ n < len ∧ c.err.isNone ∧ SMap.get 0 s.mem.ondie a ≠ 0 then some (k, c.bank, a) else none

/-- A word of a port's bank store as its owner finds it, in a period of a frame (R218, R380): one that cannot be corrected is the error of R218, once
for each bank. -/
def bankWord (p frame : Nat) (lost : BitVec 8) (x : Nat × Nat × Nat) (s : State) : State :=
  match ((nthOr s.wave p {}).banks[x.2.1]?).join with
  | none => s
  | some b =>
    let (bad, s) := ownerFinds (0x30 + p) 6 x.2.2 lost s
    if bad && !(b.bad && lost == 0) then bankError p x.2.1 x.1 frame s else s

/-- WAVE_FRAME (R211): a frame of 64 sample periods ends; with `err`, a word of the bank store was found in error in it (R380). -/
def execWaveFrame (p : Fin 16) (err : Option WaveErr) (s : State) : Host.Outcome State Fault Refusal :=
  let frame := s.clock - 2048
  if !s.wave[p].on then .next s
  else
    let s := (storedErrors p.val frame s).foldl (fun s x => bankWord p.val frame 0 x s) s
    let s := match err with
      | some e => bankWord p.val frame e.synd (e.at_.val, e.bank.val, bankBase p.val e.bank.val + e.word.val) s
      | none => s
    let w := nthOr s.wave p.val {}
    let (xs, w) := frameSamples frame w
    let body := xs.flatMap (leBytes 2) ++ (controlWords p.val frame w).flatMap (leBytes 2)
    let bytes := body ++ leBytes 4 (crc32c body).toNat
    let s := send (.wave p) bytes (setWave p.val (fun _ => frameBoundary s (isStopped s (0x30 + p.val)) w) s)
    .next (cvuUnit 6 (fun u => u.sel == p.val) body s)

end Sys2Proof.Machine
end

