-- ==== Sys2Proof/Machine/Motion.lean ====
section
/-! DEFINITION. The motion generators: configuration and limits (R336, R338, R346), moves and their checks (R341 to R345), holds (R348 to
R351), the profile (R339, R340), the drive links (R352 to R358), the microstep outputs (R360 to R362), referencing (R363 to R365) and the
following error (R366). -/
namespace Sys2Proof.Machine

/-! ## Positions and the stopping point -/

/-- One step of a square root by bits. -/
def isqrtBits (n : Nat) : Nat → Nat → Nat
  | 0, acc => acc
  | k + 1, acc => isqrtBits n k (if (acc + 2 ^ k) * (acc + 2 ^ k) ≤ n then acc + 2 ^ k else acc)

/-- The square root of a number below 2²⁵⁶, rounded down. -/
def isqrt (n : Nat) : Nat := isqrtBits n 128 0

/-- The velocity after a time t under a constant jerk, and the distance: velocity, acceleration and distance in 2⁻³² AU/s, AU/s² and AU, the jerk in
AU/s³, the time in 2⁻³² s. -/
def jerkSpan (v a j t : Int) : Int × Int :=
  let s : Int := 2 ^ 32
  (v + a * t / s + j * t * t / (2 * s), v * t / s + a * t * t / (2 * s * s) + j * t * t * t / (6 * s * s))

/-- The least time in which a velocity rises from v, with acceleration a, to w with none, and the distance: jerk up to the peak, a constant phase, jerk
down. An acceleration already above the limit stands for it. -/
def riseTo (v a w : Int) (lim j : Nat) : Int × Int :=
  let s : Int := 2 ^ 32; let j : Int := max j 1
  let top : Int := min (max (lim * s) a) (isqrt (j * s * (w - v) + a * a / 2).toNat)
  let t1 := max 0 ((top - a) / j); let t3 := max 0 (top / j)
  let x1 := jerkSpan v a j t1
  let t2 := if top ≤ 0 then 0 else max 0 ((w - top * top / (2 * j * s) - x1.1) * s / top)
  let x2 := jerkSpan x1.1 top 0 t2
  (t1 + t2 + t3, x1.2 + x2.2 + (jerkSpan x2.1 top (-j) t3).2)

/-- The velocity at which an acceleration brought to zero at once leaves an axis. -/
def coastSpeed (v a : Int) (j : Nat) : Int := v + a * a.natAbs / (2 * max j 1 * 2 ^ 32)

/-- The least time, and the distance, from velocity v with acceleration a to w with none, rising under `up` and falling under `down`. -/
def ramp (v a w : Int) (up down j : Nat) : Int × Int :=
  if coastSpeed v a j ≤ w then riseTo v a w up j else let r := riseTo (-v) (-a) (-w) down j; (r.1, -r.2)

/-- The distance, in units of 2⁻³² AU, in which an axis with velocity v ≥ 0 (2⁻³² AU/s) and acceleration a (2⁻¹⁶ AU/s²) comes to rest when it
decelerates as fast as D and J allow (12.4). -/
def stopDist (v a : Int) (d j : Nat) : Int := (ramp v (a * 2 ^ 16) 0 d d j).2

/-- The greatest value from lo on, below hi, of which f holds, by k halvings. -/
def bisect (f : Int → Bool) : Nat → Int → Int → Int
  | 0, lo, _ => lo
  | k + 1, lo, hi => if f ((lo + hi) / 2) then bisect f k ((lo + hi) / 2) hi else bisect f k lo ((lo + hi) / 2)

/-- The least time in which an axis comes to rest at a distance l at or beyond its stopping point, at a speed of at most vmax: up to a peak, a run at the
greatest speed, and the ramp to rest. Where no peak is reached, the time to rest stands for it. -/
def aheadTime (v a l vmax : Int) (up down j : Nat) : Int :=
  let dist (w : Int) : Int := (ramp v a w up down j).2 + (ramp w 0 0 up down j).2
  let time (w : Int) : Int := (ramp v a w up down j).1 + (ramp w 0 0 up down j).1
  let lo := max 0 (coastSpeed v a j)
  if dist vmax ≤ l then time vmax + (l - dist vmax) * 2 ^ 32 / max vmax 1
  else if vmax ≤ lo ∨ l < dist lo then (ramp v a 0 up down j).1
  else time (bisect (fun w => decide (dist w ≤ l)) 64 lo vmax)

/-- A place lies behind a stopping point, further than the rounding of the stored fractions. -/
def liesBehind (l stop : Int) : Bool := decide (l + 65536 < stop)

/-- The least time in which an axis with velocity v and acceleration a comes to rest at a signed distance l in its direction of travel: a place behind the
stopping point is reached by a fresh move from rest there (R339, R345). -/
def reachTime (v a l vmax : Int) (up down j : Nat) : Int :=
  let stop := ramp v a 0 up down j
  if liesBehind l stop.2 then stop.1 + aheadTime 0 0 (stop.2 - l) vmax up down j else aheadTime v a l vmax up down j

/-- The direction of travel. -/
def Axis.dir (x : Axis) : Int := if 0 < x.v ∨ (x.v = 0 ∧ 0 < x.a) then 1 else if x.v < 0 ∨ x.a < 0 then -1 else 0

/-- The stopping point in raw position, in units of 2⁻³² AU (12.4). -/
def Axis.stopPos (x : Axis) (d j : Nat) : Int :=
  if x.dir = 0 then x.p else if 0 < x.dir then x.p + stopDist x.v x.a d j else x.p - stopDist (-x.v) (-x.a) d j

/-- A user position as a raw one in units of 2⁻³² AU (R335). -/
def Axis.rawOf (x : Axis) (user : Int) : Int := (user - x.refOffset) * 2 ^ 32

/-- Virtual limits are in force (Table 12.1, R342). -/
def limitsOn (s : State) (a : Nat) : Bool := (nthOr s.axes a {}).referenced && pon (axisCfg s a) 9 0 true

/-- A raw position lies within virtual limits. -/
def Axis.within (x : Axis) (l : Limits) (p : Int) : Bool := decide (x.rawOf l.lo ≤ p) && decide (p ≤ x.rawOf l.hi)

/-- The path of a move from the axis's state lies within limits (R343, R344). -/
def pathOk (x : Axis) (l : Limits) (m : Move) : Bool :=
  let stop := x.stopPos l.d l.j
  match m with
  | .velocity _ => x.within l stop
  | .target t _ =>
    let r := x.rawOf t
    let ahead := decide (x.dir = 0) || decide (0 ≤ x.dir * (r - stop))
    x.within l x.p && x.within l r && (ahead || x.within l stop)

/-- A move passes the check of R343 in the state of the axis. -/
def moveOk (s : State) (a : Nat) (m : Move) : Bool := !limitsOn s a || pathOk (nthOr s.axes a {}) (nthOr s.axes a {}).lim m

/-! ## Events and holds -/

/-- `ev.axis_done` (Table 19.5): 1 TARGET, 2 STOPPED, 3 LIMIT, 4 ABORTED. -/
def evAxisDone (a reason : Nat) (s : State) : State :=
  emit { code := 0x0D01, source := 0x48 + a, status := reason, keep := true
         payload := leBytes 1 a ++ [0] ++ leBytes 6 (ofSigned 48 (userPos (nthOr s.axes a {}))) ++ zeros 8 } s

/-- `ev.axis_ref`. -/
def evAxisRef (a : Nat) (s : State) : State :=
  emit { code := 0x0D05, source := 0x48 + a, status := pnat (axisCfg s a) 17 0 0
         payload := leBytes 1 a ++ [0] ++ leBytes 6 (ofSigned 48 (userPos (nthOr s.axes a {}))) ++ zeros 8 } s

/-- A move of an axis is given to it, to take effect at the next boundary (R341). -/
def startMove (a : Nat) (m : Move) (s : State) : State :=
  setAxis a (fun x => { x with pending := some m, standstill := false }) s

/-- A move given to an axis by the part itself: an axis that holds keeps it as its held move (R348, R405). -/
def giveMove (a : Nat) (m : Move) (s : State) : State :=
  if (nthOr s.axes a {}).holds.isEmpty then startMove a m s else setAxis a (fun x => { x with heldMove := some m }) s

/-- The held move resumes when no hold is left, if it passes R343, as a fresh move from rest: an axis that still stops keeps it until it rests. Else it is
dropped (R349). -/
def resumeHeld (a : Nat) (s : State) : State :=
  let x := nthOr s.axes a {}
  if !x.holds.isEmpty then s
  else match x.heldMove with
    | none => s
    | some m =>
      if !moveOk s a m then evAxisDone a 2 (setAxis a (fun x => { x with heldMove := none }) s)
      else if x.stopping then s
      else startMove a m (setAxis a (fun x => { x with heldMove := none }) s)

/-- A hold bit is cleared (R348, R349). -/
def clearHold (a : Nat) (src : HoldSrc) (s : State) : State :=
  if (nthOr s.axes a {}).holds.contains src then
    resumeHeld a (setAxis a (fun x => { x with holds := x.holds.filter (· ≠ src) }) s)
  else s

/-- A hold source turns into HOST (Table 12.4). -/
def holdToHost (a : Nat) (src : HoldSrc) (s : State) : State :=
  setAxis a (fun x =>
    if x.holds.contains src then { x with holds := if x.holds.contains .host then x.holds.filter (· ≠ src) else x.holds.map fun h => if h = src then .host else h }
    else x) s

/-- The deceleration and jerk in force: those of STOP under a SAFESTOP or FAULT hold, and never below D and J (R348, R351). -/
def Axis.decel (x : Axis) : Nat := if x.holds.contains .safestop || x.holds.contains .fault then max x.lim.d x.lim.stopD else x.lim.d
def Axis.jerk (x : Axis) : Nat := if x.holds.contains .safestop || x.holds.contains .fault then max x.lim.j x.lim.stopJ else x.lim.j

/-- The referencing of an axis, in HOME. -/
def homingOf (s : State) (a : Nat) : Homing := if s.sys.mode = .home then (nthOr s.axes a {}).homing else .none_

/-- HOME_FAIL of an axis (R364). -/
def homeFail (a : Nat) (s : State) : State := raiseFault .homeFail (0x48 + a) 0xFFFF s

/-- An axis fault (R367): the class is raised; REFERENCED goes under R365, and the referencing of a named axis fails (R364). -/
def axisFault (c : FClass) (a : Nat) (s : State) : State :=
  let h := homingOf s a
  let s := raiseFault c (0x48 + a) 0xFFFF s
  let s := if (c = .axisDrive ∨ c = .driveSilent) ∧ pnat (axisCfg s a) 3 0 0 = 2 then setAxis a (fun x => { x with referenced := false }) s else s
  if h ≠ .none_ then homeFail a s else s

/-! ## Configuration and limits -/

/-- The parameters of Table 12.1 that only AX0 to AX5 have, and those that only AX6 and AX7 have. -/
def servoSpecs : List PSpec := [⟨11, 1, 1, 255, some 3⟩, ⟨24, 1, 1, 600, some 60⟩]
def microSpecs : List PSpec := [⟨12, 1, 4, 1024, some 256⟩, ⟨13, 1, 0, 1023, some 0⟩, ⟨14, 1, 1, 15, some 15⟩, ⟨15, 1, 0, 15, some 8⟩]

/-- The parameters of `axis.config` for an axis (Table 12.1). -/
def axisSpecs (a : Nat) : List PSpec :=
  let servo : Bool := decide (a < 6)
  [ ⟨1, 1, 0, 1, some 0⟩, ⟨2, 1, 1, 64, some 4⟩, ⟨3, 1, 0, if servo then 2 else 1, some 0⟩, ⟨4, 1, 0, 7, some 0⟩, ⟨5, 1, 1, 65535, some 1⟩,
    ⟨6, 1, 1, 65535, some 1⟩, ⟨7, 1, 0, 2147483647, some 0⟩, ⟨8, 1, 1, 255, some 4⟩, ⟨9, 1, 0, 1, some 1⟩, ⟨10, 1, 0, 2147483647, some 0⟩,
    ⟨16, 1, 0, 10000, some 500⟩, ⟨17, 1, 0, 3, some 0⟩, ⟨18, 1, 0, 1, some 0⟩, ⟨19, 1, 0, 1, some 0⟩, ⟨20, 1, 1, 2147483647, none⟩,
    ⟨21, 1, 1, 2 ^ 47 - 1, none⟩, ⟨22, 1, -(2 ^ 47), 2 ^ 47 - 1, some 0⟩, ⟨23, 1, 0, 1, some 0⟩ ] ++
  (if servo then servoSpecs else microSpecs)

/-- The axes of the drive link of an axis: AX3k to AX3k + 2 (R337); an axis of its own otherwise. -/
def linkAxes (a : Nat) : List Nat := if a < 6 then [3 * (a / 3), 3 * (a / 3) + 1, 3 * (a / 3) + 2] else [a]

/-- The lowest-numbered axis that a test picks. -/
def lowestAxis (on : Nat → Bool) (axes : List Nat) : Option Nat := axes.find? on

/-- The relations of Table 12.1 and R337 between the parameters of an axis. -/
def axisRelation (s : State) (a : Nat) (m : ParamSet) : Option (List Nat) :=
  let sets := updAt s.cfg.staged.axes a fun _ => m
  let on (b : Nat) : Bool := pon (nthOr sets b []) 1 0 false
  let kOf (b : Nat) : Nat := pnat (nthOr sets b []) 2 0 4
  let clash := match lowestAxis on (linkAxes a) with
    | some l => l != a && kOf l != kOf a && (on a || (pfind m 2 0).isSome)
    | none => false
  if clash then some [1, 2]
  else if a < 6 then
    if ((nthOr s.axes a {}).staged.v : Int) < pget m 20 0 1 then some [20] else none
  else if !([4, 8, 16, 32, 64, 128, 256, 512, 1024].contains (pnat m 12 0 256)) then some [12]
  else if pnat m 14 0 15 < pnat m 15 0 8 then some [14, 15]
  else if pnat m 17 0 0 = 2 then some [17]
  else if ((nthOr s.axes a {}).staged.v : Int) < pget m 20 0 1 then some [20]
  else none

/-- `axis.config` (R336, R337). -/
def axisConfig (p : List Byte) (s : State) : Reply × State :=
  let a := listTarget p 0
  if 8 ≤ a then refuse .badArg 0 s
  else match judgeList (axisSpecs a) (axisRelation s a) (nthOr s.cfg.staged.axes a []) (listItems p 0) with
    | .error d => refuse .badArg d s
    | .ok m => okWith [] { s with cfg := { s.cfg with staged := { s.cfg.staged with axes := updAt s.cfg.staged.axes a fun _ => m } } }

/-- AXIS_CONFIG (R336). -/
def execAxisConfig (s : State) : Host.Outcome State Fault Refusal := .next (runCommand 0x0D01 axisConfig s)

/-- The parameters of `axis.limits` (Table 12.2). -/
def limitSpecs : List PSpec :=
  [ ⟨1, 1, 1, 2147483647, some 10000⟩, ⟨2, 1, 1, 4294967295, some 100000⟩, ⟨3, 1, 1, 4294967295, some 100000⟩, ⟨4, 1, 1, 2 ^ 40, some 10000000⟩,
    ⟨5, 1, 0, 4294967295, some 0⟩, ⟨6, 1, 0, 2 ^ 40, some 0⟩, ⟨7, 1, -(2 ^ 47), 2 ^ 47 - 1, some (-(2 ^ 47 - 1))⟩,
    ⟨8, 1, -(2 ^ 47), 2 ^ 47 - 1, some (2 ^ 47 - 1)⟩ ]

/-- Limits as a parameter set, and back. -/
def Limits.items (l : Limits) : ParamSet :=
  [⟨1, 0, l.v⟩, ⟨2, 0, l.a⟩, ⟨3, 0, l.d⟩, ⟨4, 0, l.j⟩, ⟨5, 0, l.stopD⟩, ⟨6, 0, l.stopJ⟩, ⟨7, 0, l.lo⟩, ⟨8, 0, l.hi⟩]
def limitsOf (m : ParamSet) : Limits :=
  { v := pnat m 1 0 0, a := pnat m 2 0 0, d := pnat m 3 0 0, j := pnat m 4 0 0, stopD := pnat m 5 0 0, stopJ := pnat m 6 0 0
    lo := pget m 7 0 0, hi := pget m 8 0 0 }

/-- The relations of Table 12.2; on AX6 and AX7 the index moves at most 128 in 250 ns (R338). -/
def limitRelation (cfg : ParamSet) (a : Nat) (m : ParamSet) : Option (List Nat) :=
  let l := limitsOf m
  if 6 ≤ a ∧ 128 * 4000000 < l.v * (1024 / pnat cfg 12 0 256) then some [1]
  else if l.stopD ≠ 0 ∧ l.stopD < l.d then some [3, 5]
  else if l.stopJ ≠ 0 ∧ l.stopJ < l.j then some [4, 6]
  else if l.hi ≤ l.lo then some [7, 8]
  else none

/-- The lower D or J may apply at once: with it the stopping point passes neither the target nor the virtual limits (R346). -/
def lowerFits (s : State) (a : Nat) (l : Limits) : Bool :=
  let x := nthOr s.axes a {}
  let old := x.stopPos x.lim.d x.lim.j; let new_ := x.stopPos l.d l.j
  let target := match x.pending.or x.move with
    | some (.target t _) => decide (x.dir * (x.rawOf t - old) < 0) || decide (0 ≤ x.dir * (x.rawOf t - new_))
    | _ => true
  target && (!limitsOn s a || x.within l new_)

/-- New limits in force (R346, R347), and kept for the next commit (R511); in FOLLOW as on an axis at standstill (Table 15.2). -/
def applyLimits (a : Nat) (l : Limits) (s : State) : Reply × State :=
  let x := nthOr s.axes a {}
  let cur := x.pending.or x.move
  let still := x.standstill || s.sys.mode == .follow
  let blocked := !still && limitsOn s a && (match cur with | some m => !pathOk x { l with d := x.lim.d, j := x.lim.j } m | none => false)
  if blocked then refuse .badTarget 0 s
  else if still || lowerFits s a l || (x.lim.d ≤ l.d && x.lim.j ≤ l.j) then
    okWith [] (setAxis a (fun x => { x with staged := l, lim := l, deferred := none }) s)
  else
    ({ status := .accelDeferred },
     setAxis a (fun x => { x with staged := l, lim := { l with d := max l.d x.lim.d, j := max l.j x.lim.j }, deferred := some (l.d, l.j) }) s)

/-- `axis.limits` (R338, R346, R347). -/
def axisLimits (p : List Byte) (s : State) : Reply × State :=
  let a := listTarget p 0
  if 8 ≤ a then refuse .badArg 0 s
  else
    let x := nthOr s.axes a {}
    let conf := s.sys.mode = .configure
    let now : Limits := match x.deferred with | some (d, j) => { x.lim with d := d, j := j } | none => x.lim
    let cfg := if conf then nthOr s.cfg.staged.axes a [] else axisCfg s a
    match judgeList limitSpecs (limitRelation cfg a) (if conf then x.staged else now).items (listItems p 0) with
    | .error d => refuse .badArg d s
    | .ok m =>
      if conf then okWith [] (setAxis a (fun x => { x with staged := limitsOf m }) s) else applyLimits a (limitsOf m) s

/-- AXIS_LIMITS (R346). -/
def execAxisLimits (s : State) : Host.Outcome State Fault Refusal := .next (runCommand 0x0D02 axisLimits s)

/-! ## Moves, stops, resumes -/

/-- Motion commands are legal on an axis in the present mode (Table 12.3). -/
def motionLegal (s : State) (a : Nat) : Bool :=
  axisOn s a &&
  (match s.sys.mode with
   | .idle | .maintain => true
   | .print => jobAxis s a
   | .hold => !jobAxis s a
   | _ => false)

/-- A user position has a place in both coordinates, which are signed 48-bit values (R335). -/
def Axis.reaches (x : Axis) (user : Int) : Bool :=
  let raw := user - x.refOffset
  decide (-(2 ^ 47) ≤ user) && decide (user < 2 ^ 47) && decide (-(2 ^ 47) ≤ raw) && decide (raw < 2 ^ 47)

/-- The move a command names, or its refusal (R341, R342, R508): RELATIVE counts from the target of the move in progress, not from that of a move that has
yet to be taken up. A target outside the signed 48 bits of either coordinate (R335) is a value outside its range:
BAD_ARG (DESIGN CHOICE, log 20: the spec names no status for it). -/
def namedMove (s : State) (a mode speed : Nat) (value : Int) : Except (Status × Nat) Move :=
  let x := nthOr s.axes a {}
  if !x.referenced && (mode != 1 || decide ((pnat (axisCfg s a) 10 0 0 : Int) < value) || decide (value < -(pnat (axisCfg s a) 10 0 0 : Int))) then
    .error (.notReferenced, a)
  else match mode with
    | 0 => if x.reaches value then .ok (.target value speed) else .error (.badArg, 8)
    | 1 =>
      let base := match x.move with | some (.target t _) => t | _ => userPos x
      if x.reaches (base + value) then .ok (.target (base + value) speed) else .error (.badArg, 8)
    | _ => .ok (.velocity value)

/-- `axis.move` (R341 to R345, R350): ranges come before the axis's own state (R507). -/
def axisMove (p : List Byte) (s : State) : Reply × State :=
  let a := uAt p 0 1; let mode := uAt p 1 1; let speed := uAt p 4 4; let value := iAt p 8 8
  let x := nthOr s.axes a {}
  if 8 ≤ a then refuse .badArg 0 s
  else if 2 < mode then refuse .badArg 1 s
  else if x.lim.v < speed then refuse .badArg 4 s
  else if decide (value < -(2 ^ 47)) || decide (2 ^ 47 ≤ value) ||
      (mode == 2 && (decide ((x.lim.v : Int) < value) || decide (value < -(x.lim.v : Int)))) then refuse .badArg 8 s
  else if !motionLegal s a then refuse .badState 0 s
  else match namedMove s a mode speed value with
    | .error (st, d) => refuse st d s
    | .ok m =>
      if !moveOk s a m then refuse .badTarget 0 s
      else if x.holds.isEmpty || x.holds == [.host] then
        okWith [] (startMove a m (setAxis a (fun x => { x with holds := [], heldMove := none, stopping := false }) s))
      else okWith [] (setAxis a (fun x => { x with heldMove := some m }) s)

/-- AXIS_MOVE (R341). -/
def execAxisMove (s : State) : Host.Outcome State Fault Refusal := .next (runCommand 0x0D03 axisMove s)

/-- A stop with ABORT: the held move is dropped, and the axis comes to rest with no move (R350). -/
def abortAxis (a : Nat) (s : State) : State :=
  let x := nthOr s.axes a {}
  let had := x.move.isSome || x.pending.isSome || x.heldMove.isSome
  let atRest := decide (x.v = 0) && decide (x.a = 0)
  let s := setAxis a (fun x => { x with
    move := none, pending := none, heldMove := none, stopping := !atRest, endReason := if had && !atRest then 4 else x.endReason }) s
  if had && atRest then evAxisDone a 4 s else s

/-- HOME ends by `axis.stop`: every searching axis stops, and the mode returns to IDLE (R364, Table 2.3). -/
def stopHoming (s : State) : State :=
  let s := (List.range 8).foldl (fun s a =>
    let h := homingOf s a
    if h = .search ∨ h = .park ∨ h = .drive then
      setAxis a (fun x => { x with move := none, pending := none, heldMove := none, homing := .none_, stopping := !(decide (x.v = 0) && decide (x.a = 0)) }) s
    else s) s
  bgEnd .homing (changeMode .idle 0x0D04 s)

/-- `axis.stop` (R348, R350, R364). -/
def axisStop (p : List Byte) (s : State) : Reply × State :=
  let a := uAt p 0 1; let kind := uAt p 1 1
  let legal (b : Nat) : Bool := motionLegal s b || (s.sys.mode == .safestop && axisOn s b && kind == 1)
  if 8 ≤ a ∧ a ≠ 0xFF then refuse .badArg 0 s
  else if 1 < kind then refuse .badArg 1 s
  else if s.sys.mode = .home then okWith [] (stopHoming s)
  else
    let axes := if a = 0xFF then (List.range 8).filter legal else [a]
    if (s.sys.mode = .safestop && kind = 0) || !axes.all legal then refuse .badState 0 s
    else okWith [] (axes.foldl (fun s b => if kind = 0 then holdAxis b .host s else abortAxis b s) s)

/-- AXIS_STOP (R350). -/
def execAxisStop (s : State) : Host.Outcome State Fault Refusal := .next (runCommand 0x0D04 axisStop s)

/-- `axis.resume` (R349). -/
def axisResume (p : List Byte) (s : State) : Reply × State :=
  let a := uAt p 0 1
  if 8 ≤ a then refuse .badArg 0 s
  else if !motionLegal s a then refuse .badState 0 s
  else okWith [] (clearHold a .host s)

/-- AXIS_RESUME (R349). -/
def execAxisResume (s : State) : Host.Outcome State Fault Refusal := .next (runCommand 0x0D05 axisResume s)

/-! ## Referencing -/

/-- q of an axis whose FB_SRC is CHANNEL, at a channel position (R366). -/
def measuredAt (s : State) (a : Nat) (x : Int) : Int :=
  x * pget (axisCfg s a) 5 0 1 / pget (axisCfg s a) 6 0 1 + (nthOr s.axes a {}).q0

/-- The position of the channel of an axis. -/
def axisChannelPos (s : State) (a : Nat) : Int := toSigned 48 (nthOr s.fbk (pnat (axisCfg s a) 4 0 0) {}).pos.toNat

/-- Q0 is set so that q equals the raw position (R366), once. -/
def setQ0 (a : Nat) (s : State) : State :=
  let x := axisChannelPos s a
  setAxis a (fun y => { y with q0Set := true, q0 := y.p / 2 ^ 32 - x * pget (axisCfg s a) 5 0 1 / pget (axisCfg s a) 6 0 1 }) s

/-- HOME ends when every axis named has been referenced and is at standstill (R363, Table 2.3). -/
def homeCheck (s : State) : State :=
  if s.sys.mode = .home ∧ ((List.range 8).all fun a =>
      let x := nthOr s.axes a {}; x.homing == .none_ || (x.homing == .done && x.standstill)) then
    bgEnd .homing (changeMode .idle causeComplete { s with axes := s.axes.map fun x => { x with homing := .none_ } })
  else s

/-- An axis is referenced: REF_OFFSET, held to the 48 bits of a position (R335), and REFERENCED (R363). -/
def setReference (a : Nat) (off : Int) (h : Homing) (s : State) : State :=
  evAxisRef a (setAxis a (fun x => { x with refOffset := wrapTo 48 off, referenced := true, homing := h }) s)

/-- The capture of a channel on which axes search (R363): REF_OFFSET is set, and the axis stops; it is referenced where its stopping point lies within the
virtual limits, else HOME_FAIL (R364). -/
def homeCapture (ch : Nat) (pos : Int) (s : State) : State :=
  (List.range 8).foldl (fun s a =>
    if homingOf s a = .search ∧ pnat (axisCfg s a) 4 0 0 = ch then
      let park := pon (axisCfg s a) 23 0 false
      let off := pget (axisCfg s a) 22 0 0 - measuredAt s a pos
      let s := setAxis a (fun x => { x with move := none, pending := none, heldMove := none, stopping := true, refOffset := wrapTo 48 off }) s
      let x := nthOr s.axes a {}
      if pon (axisCfg s a) 9 0 true && !x.within x.lim (x.stopPos x.lim.d x.lim.j) then homeFail a s
      else setReference a off (if park then .park else .done) s
    else s) s

/-- The start of an axis's referencing (R363). A search ends at the last raw position there is, where HOME_DIST would pass it (DESIGN CHOICE, log 20). -/
def startHoming (s : State) (a : Nat) : State :=
  let c := axisCfg s a; let x := nthOr s.axes a {}
  let s := setAxis a (fun x => { x with referenced := false, homeAt := s.clock }) s
  match pnat c 17 0 0 with
  | 1 =>
    let far : Int := pnat c 21 0 1
    let s := { s with fbk := updAt s.fbk (pnat c 4 0 0) fun f => { f with capt := some (pon c 19 0 false, false) } }
    let raw := x.p / 2 ^ 32 + (if pon c 18 0 false then -far else far)
    giveMove a (.target (max (-(2 ^ 47)) (min (2 ^ 47 - 1) raw) + x.refOffset) (pnat c 20 0 1))
      (setAxis a (fun x => { x with homing := .search }) s)
  | 2 => setAxis a (fun x => { x with homing := .drive, standstill := false }) s
  | _ => setReference a (pget c 22 0 0 - x.p / 2 ^ 32) .done s

/-- An axis that `axis.home` may name. -/
def homeable (s : State) (a : Nat) : Bool :=
  let c := axisCfg s a; let m := pnat c 17 0 0
  axisOn s a && (nthOr s.axes a {}).standstill && m != 0 && (m != 1 || pnat c 3 0 0 == 1)

/-- `axis.home` (R363). -/
def axisHome (p : List Byte) (s : State) : Reply × State :=
  let mask := uAt p 0 1
  let axes := (List.range 8).filter (bitOf mask)
  if mask = 0 || !axes.all (homeable s) then refuse .badArg 0 s
  else match axes.findSome? fun a => if pnat (axisCfg s a) 17 0 0 = 1 then missingParam [20, 21] (axisCfg s a) else none with
    | some d => refuse .badArg d s
    | none =>
      let s := { s with axes := s.axes.map fun x => { x with homing := .none_ } }
      let s := bgStart .homing (changeMode .home 0x0D06 s)
      okWith [] (homeCheck (axes.foldl startHoming s))

/-- AXIS_HOME (R363). -/
def execAxisHome (s : State) : Host.Outcome State Fault Refusal := .next (runCommand 0x0D06 axisHome s)

/-- HOME_TIMEOUT (R364): a DRIVE referencing has waited longer than HOME_TIME seconds. -/
def execHomeTimeout (a : Fin 8) (s : State) : Host.Outcome State Fault Refusal :=
  let x := s.axes[a]
  .next (if homingOf s a.val = .drive ∧ x.homeAt + 800000000 * pnat (axisCfg s a.val) 24 0 60 < s.clock then homeFail a.val s else s)

/-! ## The servo period -/

/-- The outputs of the axes are on in this mode (Table 2.2). -/
def outputsOn (s : State) : Bool :=
  match s.sys.mode with
  | .idle | .home | .maintain | .print | .hold | .audit | .safestop => true
  | _ => false

/-- Set-point frames go out in this mode (R358), except while a handover has not yet brought the bar (Table 15.6). -/
def framesOn (s : State) : Bool :=
  outputsOn s && (s.sys.mode == .safestop || (match s.twin.hand with | some h => h.step != .received && h.step != .passed | none => true))

/-- SERVO_K in force for an axis: that of the lowest configured axis of its link (R337). -/
def servoK (s : State) (a : Nat) : Nat := match lowestAxis (axisOn s) (linkAxes a) with | some l => pnat (axisCfg s l) 2 0 4 | none => 4

/-- The change of state over one period follows R339 to within one unit of the stored fractions, with a jerk of at most J. q is the period in
units of 0.1 µs. -/
def profileStep (x : Axis) (n : ServoNext) (q : Int) (j : Nat) : Bool :=
  let da := n.a - x.a
  let ev := (n.v - x.v) * 20000000 - (x.a + n.a) * 65536 * q
  let ep := (n.p - x.p) * 600000000000000 - 6 * x.v * q * 10000000 - (2 * x.a + n.a) * 65536 * q * q
  decide ((da.natAbs : Int) * 10000000 ≤ (j : Int) * 65536 * q) && decide (ev.natAbs < 20000000) && decide (ep.natAbs < 600000000000000)

/-- The greatest speed of a move in units of 2⁻³² AU/s. -/
def Axis.speedLimit (x : Axis) : Int :=
  match x.move with
  | some (.target _ sp) => (if sp = 0 then x.lim.v else min sp x.lim.v : Nat) * 2 ^ 32
  | some (.velocity v) => (min v.natAbs x.lim.v : Nat) * 2 ^ 32
  | none => x.lim.v * 2 ^ 32

/-- Speed and acceleration stay within their limits through the period (R339). Above a lowered speed an acceleration falls at J, and then the speed falls;
above a lowered A or D the acceleration falls to it at J (R346). -/
def limitsStep (x : Axis) (n : ServoNext) (q : Int) : Bool :=
  let vmax := x.speedLimit
  let step : Int := (x.jerk : Int) * 65536 * q / 10000000
  let falls : Int := max 0 (x.a.natAbs - step) + 1
  let speedOk := decide ((n.v.natAbs : Int) ≤ vmax) ||
    (decide (vmax < x.v.natAbs) && (if 0 < x.v * x.a then decide (x.v.sign * n.a ≤ falls) else decide (n.v.natAbs ≤ x.v.natAbs)))
  let da := n.a - x.a
  let turns := decide (x.a * n.a < 0)
  let topOk := !turns || decide (vmax < x.v.natAbs) ||
    decide (((x.v * 2 * da * 10000000 - x.a * x.a * 65536 * q).natAbs : Int) ≤ vmax * 2 * da.natAbs * 10000000)
  let bound : Nat := if 0 ≤ n.v * n.a then x.lim.a else x.decel
  speedOk && topOk && decide ((n.a.natAbs : Int) ≤ max ((bound : Int) * 65536) falls)

/-- Where the move of an axis brings it to rest, in raw position: its target, or for a VELOCITY move the virtual limit ahead of it (R344). -/
def restPlace (s : State) (a : Nat) (x : Axis) : Option Int :=
  match x.move with
  | some (.target t _) => some (x.rawOf t)
  | some (.velocity v) => if !limitsOn s a || v == 0 then none else some (x.rawOf (if 0 < v then x.lim.hi else x.lim.lo))
  | none => none

/-- The least time, in 2⁻³² s, from the state of an axis to the end of its profile: at rest at the place of its move, at the speed of a VELOCITY move, or
at rest where it stops (R339, R344, R345, R348). -/
def profileTime (s : State) (a : Nat) (x : Axis) : Int :=
  let acc := x.a * 2 ^ 16
  match restPlace s a x with
  | some r =>
    let dir := if x.dir ≠ 0 then x.dir else if 0 ≤ r - x.p then 1 else -1
    if x.v = 0 ∧ x.a = 0 ∧ r = x.p then 0 else reachTime (dir * x.v) (dir * acc) (dir * (r - x.p)) x.speedLimit x.lim.a x.decel x.jerk
  | none =>
    match x.move with
    | some (.velocity v) =>
      if x.v = v.sign * x.speedLimit ∧ x.a = 0 then 0
      else (ramp x.v acc (v.sign * x.speedLimit) (max x.lim.a x.decel) (max x.lim.a x.decel) x.jerk).1
    | _ => if x.v = 0 ∧ x.a = 0 then 0 else (ramp (x.dir * x.v) (x.dir * acc) 0 x.lim.a x.decel x.jerk).1

/-- A servo period in 2⁻³² s, rounded down. -/
def periodTime (s : State) (a : Nat) : Int := 625 * servoK s a * 2 ^ 32 / 10000000

/-- What an axis heads for. -/
def Axis.goal (s : State) (a : Nat) (x : Axis) : Goal :=
  { move := x.move, stopping := x.stopping, lim := x.lim, dec := x.decel, jerk := x.jerk, bounded := limitsOn s a }

/-- The time left to the profile of an axis: from a boundary at which it heads for something new, that of the continuous profile and two periods more, reckoned
to within 1 µs (R339; for a stop and for the speed of a VELOCITY move DEDUCED, log 20). -/
def Axis.timeLeft (s : State) (a : Nat) (x : Axis) : Int :=
  let fresh := profileTime s a x + 2 * periodTime s a + 4295
  match x.plan with
  | some (g, left) => if g = x.goal s a then left else fresh
  | none => fresh

/-- The next state lets the profile end in its time (R339). -/
def inTime (s : State) (a : Nat) (x : Axis) (n : ServoNext) : Bool :=
  decide (profileTime s a { x with p := n.p, v := n.v, a := n.a } ≤ max 0 (x.timeLeft s a - periodTime s a))

/-- An axis that stops, or whose target lies behind its stopping point, keeps its direction and gains no speed but from an acceleration that falls (R345,
R348). -/
def slowing (x : Axis) (n : ServoNext) : Bool :=
  decide (0 ≤ x.dir * n.v) && (decide (n.v.natAbs ≤ x.v.natAbs) || decide (0 < x.a * x.dir))

/-- The move's own conditions: the place where it ends is not passed, except on the reversal of R345; an axis without a move rests or stops (R339, R344,
R348). -/
def moveStep (s : State) (a : Nat) (x : Axis) (n : ServoNext) : Bool :=
  match restPlace s a x with
  | some r =>
    if x.dir ≠ 0 ∧ liesBehind (x.dir * (r - x.p)) (x.dir * (x.stopPos x.lim.d x.lim.j - x.p)) then slowing x n
    else (decide (x.p ≤ r) && decide (n.p ≤ r) && decide (0 ≤ n.v)) || (decide (r ≤ x.p) && decide (r ≤ n.p) && decide (n.v ≤ 0))
  | none => x.move.isSome || (x.stopping && slowing x n) || (n.p == x.p && n.v == 0 && n.a == 0)

/-- The axis as it stands at a boundary before its profile advances: a waiting move is taken up, but a reduced axis first gets its current back
for one period (R341, R362). -/
def Axis.atBoundary (x : Axis) (now : Nat) : Axis :=
  let x := { x with p0 := x.p, boundaryAt := now, curBack := false }
  match x.pending with
  | some m => if x.reduced then { x with reduced := false, curBack := true } else { x with move := some m, pending := none, standstill := false, endReason := 0 }
  | none => x

/-- The next state proposed for an axis is one that the generator may choose. -/
def mayChoose (s : State) (a : Nat) (n : ServoNext) : Bool :=
  let x := (nthOr s.axes a {}).atBoundary s.clock
  !axisOn s a || homingOf s a == .drive ||
    (profileStep x n (625 * servoK s a) x.jerk && limitsStep x n (625 * servoK s a) && moveStep s a x n && inTime s a x n)

/-- A move that has reached its end (R342, R344, R363, R364). -/
def endMove (a : Nat) (s : State) : State :=
  let x := nthOr s.axes a {}
  match x.move with
  | some (.target t _) =>
    if x.p = x.rawOf t then
      let s := setAxis a (fun x => { x with move := none }) s
      match homingOf s a with
      | .search => homeFail a s
      | .park => setAxis a (fun x => { x with homing := .done }) s
      | _ => evAxisDone a 1 s
    else s
  | some (.velocity v) =>
    if limitsOn s a && ((decide (0 < v) && x.p == x.rawOf x.lim.hi) || (decide (v < 0) && x.p == x.rawOf x.lim.lo)) then
      evAxisDone a 3 (setAxis a (fun x => { x with move := none }) s)
    else s
  | none => s

/-- A stop that has come to rest: the hold is reported, or the end of the move that was aborted; a held move whose holds have all been cleared meanwhile
starts (R348, R349, R350, R363). -/
def endStop (a : Nat) (s : State) : State :=
  let x := nthOr s.axes a {}
  if !x.stopping then s
  else
    let s := setAxis a (fun x => { x with stopping := false, endReason := 0 }) s
    let s := if x.endReason ≠ 0 then evAxisDone a x.endReason s else s
    let s := match x.holds.head? with | some src => evAxisHeld a src (nthOr s.axes a {}) s | none => s
    let s := holdToHost a .abort s
    let s := if x.holds.isEmpty then (match x.heldMove with | some m => startMove a m (setAxis a (fun x => { x with heldMove := none }) s) | none => s) else s
    if homingOf s a = .park then startMove a (.target (pget (axisCfg s a) 22 0 0) 0) s else s

/-- An axis that has rested through the whole period, with no move in it, is at standstill (R340); limits that were deferred apply (R346). -/
def toStandstill (a : Nat) (rested : Bool) (s : State) : State :=
  let x := nthOr s.axes a {}
  if x.standstill || !rested || x.move.isSome || x.pending.isSome || x.stopping || homingOf s a == .drive then s
  else
    let s := setAxis a (fun x => { x with standstill := true, stillAt := s.clock }) s
    let s := match x.deferred with
      | some (d, j) =>
        emit { code := 0x0D03, source := 0x48 + a, payload := leBytes 1 a ++ zeros 3 ++ leBytes 4 d ++ leBytes 8 j }
          (setAxis a (fun x => { x with lim := { x.lim with d := d, j := j }, deferred := none }) s)
      | none => s
    homeCheck s

/-- An AXIS record (Table 15.5): the move held, or the one in progress. -/
def axisRecord (a : Nat) (x : Axis) : List Byte :=
  let m := match x.heldMove with | some m => some m | none => if x.pending.isSome then x.pending else x.move
  let (t, v) : Int × Int := match m with
    | some (.target t sp) => (t, sp)
    | some (.velocity v) => (0, v)
    | none => (userPos x, 0)
  [5] ++ leBytes 1 (a + bitAt x.referenced 3 + bitAt (!x.holds.isEmpty) 4 + bitAt x.standstill 5) ++ leBytes 6 (ofSigned 48 (x.p / 2 ^ 32)) ++
    leBytes 6 (ofSigned 48 x.refOffset) ++ zeros 2 ++ leBytes 6 (ofSigned 48 t) ++ zeros 2 ++ leBytes 4 (ofSigned 32 v) ++ zeros 4

/-- The following error of a period, given q at its boundary (R366): FOLLOW_N periods in a row beyond FOLLOW_MAX are AXIS_FOLLOW. -/
def followCheck (a : Nat) (raw q : Int) (s : State) : State :=
  let most := pnat (axisCfg s a) 7 0 0
  if most = 0 || (nthOr s.axes a {}).curBack then s
  else if (most : Int) * 2 ^ 32 < (wrapTo 80 (raw - q * 2 ^ 32)).natAbs then
    let n := (nthOr s.axes a {}).followRun + 1
    let s := setAxis a (fun x => { x with followRun := n }) s
    if pnat (axisCfg s a) 8 0 4 ≤ n then axisFault .axisFollow a (setAxis a (fun x => { x with followRun := 0 }) s) else s
  else setAxis a (fun x => { x with followRun := 0 }) s

/-- One servo period of a configured axis (R339 to R345). A raw position that passes the end of its 48 bits wraps (R335; DESIGN CHOICE, log 20). -/
def servoAxis (a : Nat) (n : ServoNext) (s : State) : State :=
  if !axisOn s a then s
  else
    let s := if pnat (axisCfg s a) 3 0 0 = 1 then followCheck a (nthOr s.axes a {}).p (measuredAt s a (axisChannelPos s a)) s else s
    let s := setAxis a (fun x => x.atBoundary s.clock) s
    if homingOf s a = .drive then
      let s := setAxis a (fun x => { x with p := x.actPos * 2 ^ 32, v := 0, a := 0 }) s
      mirror (axisRecord a (nthOr s.axes a {})) s
    else
      let x := nthOr s.axes a {}
      let rested := decide (x.v = 0) && decide (x.a = 0) && decide (n.v = 0) && decide (n.a = 0) && x.move.isNone && !x.stopping
      let plan := (x.goal s a, x.timeLeft s a - periodTime s a)
      let s := setAxis a (fun x => { x with p := wrapTo 80 n.p, v := n.v, a := n.a, plan := some plan }) s
      let s := if n.v = 0 ∧ n.a = 0 then endStop a (endMove a s) else s
      let s := toStandstill a rested s
      mirror (axisRecord a (nthOr s.axes a {})) s

/-! ## Drive links -/

/-- One slot of a set-point frame (Table 12.5). -/
def setPointSlot (s : State) (enable : Bool) (a : Nat) : List Byte :=
  let x := nthOr s.axes a {}
  let ctrl := if axisOn s a then bitAt enable 0 + bitAt x.reduced 1 + bitAt (homingOf s a = .drive && x.holds.isEmpty) 2 + bitAt x.referenced 3 + bitAt (!x.holds.isEmpty) 4
    else 0
  let v := max (-(2 ^ 31)) (min (2 ^ 31 - 1) (x.v / 2 ^ 32))
  leBytes 1 ctrl ++ leBytes 6 (ofSigned 48 (x.p / 2 ^ 32)) ++ leBytes 2 (x.p % 2 ^ 32 / 65536).toNat ++ leBytes 4 (ofSigned 32 v)

/-- A set-point frame (Table 12.5). -/
def setPointFrame (s : State) (dl : Nat) : List Byte :=
  let d := nthOr s.drive dl {}
  let body := [0xA7, 0x01] ++ leBytes 2 d.cycle.toNat ++ leBytes 1 (bitAt (s.sys.mode = .safestop) 0) ++ [0] ++
    (List.range 3).flatMap fun k => setPointSlot s (decide (9 ≤ d.startup)) (3 * dl + k)
  body ++ leBytes 2 (crc16 body).toNat

/-- One drive link changed. -/
def setDrive (dl : Nat) (f : DriveLink → DriveLink) (s : State) : State := { s with drive := updAt s.drive dl f }

/-- Frames start on a link (R358); Q0 is set when they first start (R366). -/
def startDrive (dl : Nat) (s : State) : State :=
  let s := setDrive dl (fun d => { d with running := true, startup := if d.skipStartup then 9 else 0, skipStartup := false }) s
  [3 * dl, 3 * dl + 1, 3 * dl + 2].foldl (fun s a =>
    let s := setAxis a (fun x => { x with gotReply := false }) s
    if pnat (axisCfg s a) 3 0 0 = 1 ∧ (nthOr s.axes a {}).q0Set = false then setQ0 a s else s) s

/-- After the eighth cycle the axes with FB_SRC DRIVE take the drive's position, or raise DRIVE_SILENT (R358). -/
def endStartup (dl : Nat) (s : State) : State :=
  [3 * dl, 3 * dl + 1, 3 * dl + 2].foldl (fun s a =>
    let x := nthOr s.axes a {}
    if axisOn s a ∧ pnat (axisCfg s a) 3 0 0 = 2 then
      if x.gotReply then setAxis a (fun x => { x with p := x.actPos * 2 ^ 32 }) s else axisFault .driveSilent a s
    else s) (setDrive dl (fun d => { d with startup := 9 }) s)

/-- A drive link at a boundary, before its profiles advance: frames start where they do not run, and the eighth cycle of the start ends (R358). -/
def linkBoundary (dl : Fin 2) (s : State) : State :=
  let s := if s.drive[dl].running then s else startDrive dl.val s
  if (nthOr s.drive dl.val {}).startup = 8 then endStartup dl.val s else s

/-- A cycle of a drive link: the profiles of its axes advance and the set-point frame is sent (R353, R356). -/
def driveCycle (dl : Fin 2) (n : List ServoNext) (s : State) : State :=
  let s := (n.zipIdx.foldl (fun s e => servoAxis (3 * dl.val + e.2) e.1 s) s)
  let f := setPointFrame s dl.val
  let s := send (.drive dl) f s
  let s := cvuUnit 8 (fun u => u.sel == dl.val) (f.take 45) s
  setDrive dl.val (fun d => { d with cycle := d.cycle + 1, startup := if d.startup < 8 then d.startup + 1 else d.startup }) s

/-- The servo period of an axis, and of its link, has passed since the last boundary (Table 12.1, R337). -/
def boundaryDue (s : State) (a : Nat) : Bool :=
  (linkAxes a).all fun b => let x := nthOr s.axes b {}; !axisOn s b || x.boundaryAt == 0 || decide (x.boundaryAt + 50000 * servoK s a ≤ s.clock)

/-- A servo boundary of a drive link, with the next states of its three axes (R339, R353). -/
def linkPeriod (dl : Fin 2) (n0 n1 n2 : ServoNext) (s : State) : State :=
  let t := linkBoundary dl s
  let may (k : Nat) (n : ServoNext) : Bool := mayChoose t (3 * dl.val + k) n
  if framesOn s && !isStopped s (0x50 + dl.val) && may 0 n0 && may 1 n1 && may 2 n2 then driveCycle dl [n0, n1, n2] t else s

/-- SERVO_PERIOD (R339): a servo boundary of DL0, DL1, AX6 or AX7 (u = 0 to 3), with the next states that the generators choose; a choice outside
R339 is not made. Outside the modes of R358 the outputs are off, and a stopped drive link sends nothing (R405). -/
def execServoPeriod (u : Fin 4) (n0 n1 n2 : ServoNext) (s : State) : Host.Outcome State Fault Refusal :=
  .next (if !(outputsOn s && boundaryDue s (match u with | 0 => 0 | 1 => 3 | 2 => 6 | 3 => 7)) then s
    else match u with
      | 0 => linkPeriod 0 n0 n1 n2 s
      | 1 => linkPeriod 1 n0 n1 n2 s
      | 2 => if mayChoose s 6 n0 then servoAxis 6 n0 s else s
      | 3 => if mayChoose s 7 n0 then servoAxis 7 n0 s else s)

/-- A reply is missed (R357): MISSED wraps (Table 19.10), and the run of a configured axis ends in DRIVE_SILENT when it reaches DRIVE_MISS. -/
def missReply (a : Nat) (s : State) : State :=
  let run := if axisOn s a then (nthOr s.axes a {}).missRun + 1 else 0
  let s := touchGroup 4 (setAxis a (fun x => { x with missed := wrapAdd 32 x.missed 1, missRun := run, followRun := 0 }) s)
  if axisOn s a ∧ run = pnat (axisCfg s a) 11 0 3 then axisFault .driveSilent a s else s

/-- A reply that is valid for a slot (R357). -/
def replyOk (s : State) (dl : Fin 2) (slot : Nat) (f : List Byte) : Bool :=
  f.length == 15 && uAt f 0 1 == 0xA7 && uAt f 1 1 == 0x80 + slot && uAt f 2 2 == (s.drive[dl].cycle - 1).toNat && decide (uAt f 4 1 < 64) &&
    uAt f 12 1 == 0 && (crc16 (f.take 13)).toNat == uAt f 13 2

/-- `ev.drive_warn` (Table 19.5). -/
def evDriveWarn (a : Nat) (f : List Byte) (s : State) : State :=
  emitLimited a { code := 0x0D04, source := 0x48 + a, payload := leBytes 1 a ++ (f.drop 11).take 1 ++ (f.drop 4).take 1 ++ [0] ++ (f.drop 2).take 2 ++ zeros 10 } s

/-- A valid reply (R354, R357, R363, R366). -/
def takeReply (a : Nat) (f : List Byte) (s : State) : State :=
  let x := nthOr s.axes a {}
  let st := uAt f 4 1; let act := iAt f 5 6
  let s := setAxis a (fun x => { x with actPos := act, gotReply := true, missRun := 0, driveStatus := st, warning := bitOf st 3 }) s
  if !axisOn s a then s
  else
    let s := if bitOf st 3 && !bitOf x.driveStatus 3 then evDriveWarn a f s else s
    let s := if homingOf s a = .drive ∧ bitOf st 4 ∧ !bitOf x.driveStatus 4 then
        setReference a (pget (axisCfg s a) 22 0 0) .done (setAxis a (fun x => { x with p := act * 2 ^ 32, v := 0, a := 0 }) s)
      else s
    let s := if pnat (axisCfg s a) 3 0 0 = 2 ∧ homingOf s a ≠ .drive then followCheck a x.p0 act s else s
    if bitOf st 2 then axisFault .axisDrive a s else s

/-- The bytes of a reply in the samples of its window: it starts within 1.0 µs of the window's opening and ends within 8.5 µs (Table 12.7). -/
def windowBytes (rx : List Bool) : List Byte := if (rx.take 200).all id then [] else uartBytes (rx.take 1700)

/-- DRIVE_REPLY (R354): the line in the window of a slot, sampled at 200 MHz from the window's opening. -/
def execDriveReply (dl : Fin 2) (slot : Fin 3) (rx : List Bool) (s : State) : Host.Outcome State Fault Refusal :=
  let a := 3 * dl.val + slot.val
  let f := windowBytes rx
  .next (if !(s.drive[dl].running && framesOn s) then s else if replyOk s dl slot.val f then takeReply a f s else missReply a s)

/-- DRIVE_REPLY_MISSED (R357): no start bit came in the window. -/
def execDriveReplyMissed (dl : Fin 2) (slot : Fin 3) (s : State) : Host.Outcome State Fault Refusal :=
  .next (if s.drive[dl].running && framesOn s then missReply (3 * dl.val + slot.val) s else s)

/-! ## Microstep outputs and current -/

/-- The raw position between two boundaries (R360). -/
def interpolated (s : State) (x : Axis) (a : Nat) : Int :=
  let t : Int := 50000 * servoK s a
  x.p0 + wrapTo 80 (x.p - x.p0) * min ((s.clock - x.boundaryAt : Nat) : Int) t / t

/-- MICROSTEP_UPDATE (R360, R361): AX6 (0) or AX7 (1). While RESET_N is low the outputs are in high impedance, and the enable is pulled down. -/
def execMicrostepUpdate (i : Fin 2) (s : State) : Host.Outcome State Fault Refusal :=
  let a := 6 + i.val
  let c := axisCfg s a
  let idx (x : Axis) : Int := ((pnat c 13 0 0 : Int) + interpolated s x a / 2 ^ 32 * (1024 / pnat c 12 0 256 : Nat)) % 1024
  .next (setAxis a (fun x =>
    if axisOn s a && outputsOn s && s.sys.resetN then
      { x with msEn := true, msIdx := BitVec.ofNat 10 (idx x).toNat, msCur := BitVec.ofNat 4 (if x.reduced then pnat c 15 0 8 else pnat c 14 0 15) }
    else { x with msEn := false }) s)

/-- CURRENT_REDUCTION (R362): an axis has been at standstill for REDUCE_DELAY. -/
def execCurrentReduction (a : Fin 8) (s : State) : Host.Outcome State Fault Refusal :=
  let d := pnat (axisCfg s a.val) 16 0 500
  .next (setAxis a.val (fun x =>
    if axisOn s a.val && x.standstill && x.pending.isNone && d != 0 && decide (x.stillAt + 800000 * d ≤ s.clock) then { x with reduced := true } else x) s)

end Sys2Proof.Machine
end

