-- ==== Sys2Proof/Machine/PaceCore.lean ====
section
/-! DEFINITION. Print pacing: swath origins and arming (R290, R293), the high-water mark and the reversed state (R294, R295), due lines and
overspeed (R291, R299, R300), the gate (R302), and line tokens with what the swath engine prepares on them (R160, R288, R298). -/
namespace Sys2Proof.Machine

/-! ## Parameters -/

/-- The pacing parameters in force: those of the audit pass, else the job's (Table 10.1). -/
def pacePars (s : State) : ParamSet := if s.pace.params.isEmpty then s.job.params else s.pace.params

def paceChannel (s : State) : Nat := pnat (pacePars s) 1 0 0
def paceNum (s : State) : Nat := pnat (pacePars s) 3 0 0
def paceDen (s : State) : Nat := pnat (pacePars s) 4 0 1
def paceOriginMode (s : State) : Nat := pnat (pacePars s) 7 0 0

/-- The threshold of firing line f on port p in sub-counts (R291). -/
def paceThreshold (s : State) (p f : Nat) : Int := (f * paceNum s + pnat (pacePars s) 5 p 0 : Nat)

/-- σ (R290). -/
def paceSigma (s : State) : Int := if s.pace.dirRev then -1 else 1

/-- u of the medium against the armed origin, the position difference taken on 48 bits (R290). -/
def paceU (s : State) (origin : Int) : Int :=
  let m : Int := paceDen s * 2 ^ 48
  let d := (paceDen s * pacingX s - origin) % m
  paceSigma s * (if 2 * d < m then d else d - m)

/-- The mode is one in which the pacing channel's position is followed: the job's or the pass's swaths, and the hold (R293, R303). -/
def paceFollows (s : State) : Bool := s.sys.mode = .print || s.sys.mode = .hold || (s.sys.mode = .audit && s.audit.pass.isSome)

/-- The swath engine is running the swath that pacing has armed. -/
def swathIsArmed (s : State) : Bool := s.swath.active && s.swath.no == s.pace.armedNo

/-- Firing line f is within the swath pacing issues lines of, as far as is known. -/
def paceInSwath (s : State) (f : Nat) : Bool :=
  match s.pace.source with
  | .timer | .sched => decide (f < s.pace.mLines)
  | _ => !swathIsArmed s || inSwath s f

/-- Line f of port p has come due: by U (R291), or by the maintenance source (R287). -/
def lineDue (s : State) (p f : Nat) : Bool :=
  match s.pace.source with
  | .timer | .sched => decide (f < s.pace.mDue)
  | _ => s.pace.armed && decide (paceThreshold s p f ≤ s.pace.hi)

/-- One port's pacing changed. -/
def setPacePort (p : Nat) (f : PacePort → PacePort) (s : State) : State := { s with pace := { s.pace with port := updAt s.pace.port p f } }

/-! ## When a token may be issued -/

/-- Frame 0 has been shifted completely on every configured port, 40 ns ago when `after` is 32 clocks (R301). -/
def frame0Shifted (after : Nat) (s : State) : Bool :=
  (portsOn s).all fun p =>
    decide (0 < (nthOr s.pace.port p {}).next) ||
      (match (nthOr s.swath.line p {}).shifted with | some (h, at_) => h.first && decide (at_ + after ≤ s.clock) | none => false)

/-- The head line of firing line f that stands in a port. -/
def headLineOf (l : PortLine) (f : Nat) : Option HeadLine :=
  let hit (o : Option HeadLine) : Option HeadLine := o.filter fun h => h.f == f
  (hit (l.shifted.map (·.1))).or ((hit (if l.dead then none else l.shifting.map (·.1))).or (hit l.ready))

/-- Every condition of R298 on the token of a port's next line holds at this clock. -/
def tokenReady (s : State) (p : Nat) : Bool :=
  let q := nthOr s.pace.port p {}
  portOn s p && portFires s p && s.swath.active && !isWithheld s && q.dueAt.isSome && paceInSwath s q.next &&
    (match q.lastAt with | some t => decide (t + tMin s p * 4 / 5 ≤ s.clock) | none => true) &&
    (match s.pace.source with
     | .channel => s.pace.armed && swathIsArmed s && !s.pace.held && !s.pace.reversed
     | .timer | .sched => !s.pace.mStop
     | .none_ => false) &&
    (decide (0 < q.next) || frame0Shifted 32 s) && (headLineOf (nthOr s.swath.line p {}) q.next).isSome

/-! ## Due lines -/

/-- OVERSPEED, or START_LATE before line 0, naming the port, line f and its lag (R299, R301). -/
def overspeed (p f : Nat) (s : State) : State :=
  let c : FClass := if f = 0 then .startLate else .overspeed
  let lag := (s.clock - (nthOr s.pace.port p {}).dueAt.getD s.clock) * 5 / 4
  engineFault c 0x24 0xFFFF (nameFault { cls := c, port := p, line := f, lag := lag } s)

/-- A line skipped on a port: it counts in SKIPPED and, where the swath engine stands, in f_job and in the guard's history (R184, R300). -/
def skipLine (p : Nat) (s : State) : State :=
  setPacePort p (fun q => { q with skip := q.skip + 1 }) (countSkips p 1 { s with job := { s.job with skipped := satAdd 64 s.job.skipped 1 } })

/-- A port judged after U or the maintenance count has moved: its next line may have come due, and a line due behind it makes overspeed, or
is skipped (R291, R299, R300). -/
def judgePort (s : State) (p : Nat) : State :=
  let q := nthOr s.pace.port p {}
  if !(paceInSwath s q.next && lineDue s p q.next) then s
  else
    let s := if q.dueAt.isNone then setPacePort p (fun q => { q with dueAt := some s.clock }) s else s
    let first := q.next + 1 + q.skip + (if tokenReady s p then 1 else 0)
    if !(paceInSwath s first && lineDue s p first) || s.pace.held || s.pace.reversed then s
    else if s.pace.mSkip && s.sys.mode = .maintain then skipLine p s
    else overspeed p q.next s

/-- Every port judged. -/
def judgePorts (s : State) : State := (portsOn s).foldl (fun s p => if isWithheld s then s else judgePort s p) s

/-! ## The gate -/

/-- `ev.pace_gate` (Table 19.5). -/
def evPaceGate (axis : Nat) (s : State) : State :=
  emit { code := 0x0A04, source := 0x24, payload := leBytes 4 s.pace.armedNo ++ leBytes 1 axis ++ zeros 3 ++ leBytes 8 (ofSigned 64 s.pace.u) }  s

/-- The axis that the gate of a pass holds, or holds no more. -/
def notePassGate (a : Option Nat) (s : State) : State :=
  if s.sys.mode = .audit then { s with audit := { s.audit with pass := s.audit.pass.map fun q => { q with gateAxis := a } } } else s

/-- The gate is asked for before line 0 (R302). -/
def gateAsk (s : State) : State :=
  let g := pnat (pacePars s) 12 0 0; let a := pnat (pacePars s) 13 0 0xFF
  let met := swathIsArmed s && frame0Shifted 32 s
  if s.pace.armed && !s.pace.gateDone && g != 0 && decide (a < 8) && decide (-(g * paceDen s : Nat) ≤ s.pace.u) then
    let s := { s with pace := { s.pace with gateDone := true } }
    if met then s
    else evPaceGate a (holdAxis a .gate (notePassGate (some a) { s with pace := { s.pace with gateHeld := true } }))
  else s

/-- The gate's hold is released (R302). -/
def gateRelease (s : State) : State :=
  if s.pace.gateHeld then clearHold (pnat (pacePars s) 13 0 0xFF) .gate (notePassGate none { s with pace := { s.pace with gateHeld := false } }) else s

/-- The gate at the clock at which R301 comes to be met: its hold is released (R302). -/
def gateMet (s : State) : State := if s.pace.gateHeld && swathIsArmed s && frame0Shifted 32 s then gateRelease s else s

/-! ## The audit's trigger -/

/-- The divided output that triggers the camera for the sequence being paced (R313). -/
def triggerOutput (s : State) : Option Nat :=
  match s.sys.mode, s.audit.pass with
  | .audit, some a => some (pnat a.params 14 0 0)
  | .audit, none => none
  | _, _ => if s.job.isOpen && s.job.inspect then some s.job.trigOut else none

/-- U has first reached 0 in the swath: O₀ is latched (R314); that of a job's swath set aside for a pass is kept apart from the pass's own. -/
def latchOrigin (s : State) : State :=
  match triggerOutput s with
  | none => s
  | some t =>
    let first :=
      if s.sys.mode = .audit then 0
      else if swathIsArmed s then s.swath.first
      else if s.swath.active then (s.swath.plans.tail.head?.map (·.first)).getD s.codec.nextLine
      else (s.swath.plans.head?.map (·.first)).getD s.job.pacLine.toNat
    let e := ((nthOr s.fbo t {}).o, first)
    { s with audit := if s.sys.mode ≠ .audit ∧ s.audit.pass.isSome then { s.audit with jobOrigins := e :: s.audit.jobOrigins }
                      else { s.audit with origins := e :: s.audit.origins } }

/-! ## Arming -/

/-- A swath is armed with an origin and a direction (R293, R294). -/
def armWith (origin : Int) (rev : Bool) (s : State) : State :=
  let s := { s with pace := { s.pace with
    armed := true, origin := origin, dirRev := rev, reversed := false, begun := true, owed := false, waitCapture := false
    gateDone := false, ended := false
    armedNo := if s.swath.active && s.pace.ended then s.swath.no + 1 else s.swath.no
    port := s.pace.port.map fun q => { q with next := 0, dueAt := none, skip := 0 } } }
  let u := paceU s origin
  let s := if 0 ≤ u then latchOrigin s else s
  judgePorts (gateAsk { s with pace := { s.pace with hi := u, u := u } })

/-- The next swath is armed as far as its origin is known (R290, R293, R304, Table 10.3). -/
def armNext (s : State) : State :=
  if s.pace.armed || !(s.pace.source == .channel) || !paceFollows s then s
  else
    let mode := paceOriginMode s
    if mode = 2 then
      { s with
        pace := { s.pace with waitCapture := true }
        fbk := updAt s.fbk (paceChannel s) fun f => { f with capt := some (pon (pacePars s) 10 0 false, false) } }
    else if mode = 1 ∨ s.pace.owed then
      match s.pace.queue with
      | (o, r) :: rest => armWith (paceDen s * o) r { s with pace := { s.pace with queue := rest } }
      | [] => s
    else
      let o := if s.pace.begun then s.pace.prevOrigin + paceSigma s * ((s.pace.prevLines + pnat (pacePars s) 9 0 0) * paceNum s : Nat)
        else paceDen s * pget (pacePars s) 8 0 0
      armWith o s.pace.dirRev s

/-- The capture that CAPTURE waits for: the edge of FB_Cc, and the position at it (Table 10.3). -/
def paceCapture (ch : Nat) (falling : Bool) (pos : Int) (s : State) : State :=
  if s.pace.waitCapture && paceChannel s == ch && falling == pon (pacePars s) 10 0 false && paceFollows s then
    armWith (paceDen s * (pos + paceSigma s * pget (pacePars s) 8 0 0)) s.pace.dirRev s
  else s

/-! ## The position moves -/

/-- `ev.reversal` (R295, Table 19.5): STATUS counts the reversals not reported since the last entry. -/
def evReversal (s : State) : State :=
  let c := paceChannel s
  let n := match s.evr.limits.find? fun r => r.code == 0x0A01 && r.inst == c with
    | some r => match r.suppressed with | some q => min 4095 (q.status / 16 + 1) | none => 0
    | none => 0
  emitLimited c { code := 0x0A01, source := 0x24, status := c + 16 * n
                  payload := leBytes 8 (ofSigned 64 s.pace.hi) ++ leBytes 8 (ofSigned 64 s.pace.u) } s

/-- U rises: the reversed state ends, waiting lines count their lag from now, and lines come due (R294, R295). -/
def paceRise (u : Int) (s : State) : State :=
  let back := s.pace.reversed
  let s := if s.pace.hi < 0 ∧ 0 ≤ u then latchOrigin s else s
  judgePorts { s with pace := { s.pace with
    hi := u, u := u, reversed := false
    port := if back then s.pace.port.map fun q => { q with dueAt := q.dueAt.map fun _ => s.clock } else s.pace.port } }

/-- The job's pacing goes on as in HOLD while its swath is set aside for MAINTAIN or AUDIT (R303, log 27). -/
def underParked (f : State → State) (s : State) : State :=
  match s.parked with
  | none => s
  | some (w, q) =>
    let t := f { s with swath := w, pace := q, parked := none, sys := { s.sys with mode := .hold } }
    { t with parked := some (t.swath, t.pace), swath := s.swath, pace := s.pace, sys := { t.sys with mode := s.sys.mode } }

/-- The position of a channel has changed: u is formed again, U rises, or the reversed state is entered (R294, R295, R302). -/
def paceFollow (ch : Nat) (s : State) : State :=
  if !(s.pace.armed && paceFollows s && paceChannel s == ch) then s
  else
    let u := paceU s s.pace.origin
    let s := if s.pace.hi < u then paceRise u s
      else
        let s := { s with pace := { s.pace with u := u } }
        if !s.pace.reversed && decide (u < s.pace.hi - (pnat (pacePars s) 6 0 2 * paceDen s : Nat)) then
          evReversal { s with pace := { s.pace with reversed := true, revAt := s.clock }, job := { s.job with reversals := satAdd 64 s.job.reversals 1 } }
        else s
    gateAsk s

/-- The position of a channel has changed, for the swath being paced and for one that is set aside. -/
def paceMoved (ch : Nat) (s : State) : State := paceFollow ch (underParked (paceFollow ch) s)

/-- The pacing channel raises FBK_ILLEGAL while a swath is armed (R305). -/
def paceSourceFault (ch : Nat) (s : State) : State :=
  let aside := s.parked.any fun q => q.2.armed && pnat s.job.params 1 0 0 == ch
  if (s.pace.armed && paceFollows s && paceChannel s == ch) || aside then engineFault .paceSource 0x24 0xFFFF s else s

/-! ## Tokens -/

/-- The swath engine prepares firing line f of a port on a token (R160, R172, R288); the lines skipped before it have counted as they were skipped. -/
def prepareNext (p f : Nat) (e : PrepErr) (s : State) : State :=
  if !inSwath s f || isWithheld s then s
  else
    let (bad, s) := prepFault e p f s
    if bad then s
    else match underrunHead s f with
      | some h => raiseUnderrun h f s
      | none => deliverLine p f s

/-- `ev.pace_late` for the first late line of a swath, and the lag counters (R298). -/
def noteLag (p f lag : Nat) (s : State) : State :=
  if lag = 0 then s
  else
    let s := { s with job := { s.job with late := satAdd 64 s.job.late 1, maxLag := max s.job.maxLag lag } }
    if s.swath.lateReported then s
    else emit { code := 0x0A02, source := 0x24
                payload := leBytes 1 p ++ zeros 3 ++ leBytes 4 f ++ leBytes 4 (min lag (2 ^ 32 - 1)) ++ leBytes 4 s.swath.no }
      { s with swath := { s.swath with lateReported := true } }

/-- `ev.pace_skip` for the first skip of a `maint.start` (R300). -/
def noteSkip (p f n : Nat) (s : State) : State :=
  if n = 0 ∨ s.pace.mSkipReported then s
  else emit { code := 0x0A03, source := 0x24, payload := leBytes 1 p ++ [0] ++ leBytes 2 (min n 65535) ++ leBytes 4 f ++ zeros 8 }
    { s with pace := { s.pace with mSkipReported := true } }

/-- Every configured port has issued or skipped every line of the swath. -/
def paceAllIssued (s : State) : Bool :=
  let n := match s.pace.source with | .timer | .sched => some s.pace.mLines | _ => if swathIsArmed s then swathLines s else none
  match n with
  | some n => (portsOn s).all fun p => decide (n ≤ (nthOr s.pace.port p {}).next)
  | none => false

/-- The last token of a swath has been issued on every port: the swath is over for pacing and the next is armed (R293). -/
def paceEnd (s : State) : State :=
  if s.pace.ended || !paceAllIssued s then s
  else match s.pace.source with
    | .channel =>
      let last := s.swath.last || s.swath.kind != .job
      let s := { s with
        pace := { s.pace with ended := true, armed := false, prevOrigin := s.pace.origin, prevLines := (swathLines s).getD 0 }
        audit := if s.sys.mode = .audit then { s.audit with pass := s.audit.pass.map fun q => { q with lastToken := some s.clock } } else s.audit }
      if last then s else armNext s
    | _ => { s with pace := { s.pace with ended := true } }

/-- The token of a port's next line is issued (R195, R205, R288, R298). -/
def issueToken (p : Nat) (e : PrepErr) (s : State) : State :=
  let q := nthOr s.pace.port p {}
  let f := q.next; let n := q.skip
  let lag := (s.clock - q.dueAt.getD s.clock) * 5 / 4
  let s := noteSkip p f n (noteLag p f lag s)
  let s := setWave p (fun w => { w with token := (headLineOf (nthOr s.swath.line p {}) f).map fun h => { h with skip := n } }) s
  let s := setPacePort p (fun q => { q with next := f + 1 + n, lastAt := some s.clock, dueAt := none, skip := 0 }) s
  let s := swapSubstDue .token (swapPort .token (f + 1 + n) p s)
  let s := prepareNext p (f + 1 + n) e s
  let s := if isWithheld s then s else judgePort s p
  paceEnd s

/-- LINE_TOKEN (R298): pacing issues the token of a port's next line, and the swath engine prepares the line it names. -/
def execLineToken (p : Fin 16) (err : PrepErr) (s : State) : Host.Outcome State Fault Refusal :=
  .next (if tokenReady s p.val then issueToken p.val err s else s)

/-- A maintenance line falls due (R287). -/
def maintLineDue (s : State) : State :=
  if s.sys.mode = .maintain && decide (s.pace.mDue < s.pace.mLines) && !s.pace.mStop then
    judgePorts { s with pace := { s.pace with mDue := s.pace.mDue + 1 } }
  else s

/-- t₀: the clock at which line 0 could first be issued, 40 ns after the last frame 0 was complete (R287, R301). -/
def frame0At (s : State) : Nat :=
  ((portsOn s).map fun p => match (nthOr s.swath.line p {}).shifted with | some (_, at_) => at_ + 32 | none => 0).foldl max 0

/-- MAINTAIN_TIMER_LINE (R287): line k is due at t₀ + k × PERIOD. -/
def execMaintainTimerLine (s : State) : Host.Outcome State Fault Refusal :=
  .next (if s.pace.source = .timer && s.swath.active then
      match s.pace.mT0 with
      | none => if frame0Shifted 32 s then maintLineDue { s with pace := { s.pace with mT0 := some (frame0At s) } } else s
      | some t => if 5 * t + 4 * (s.pace.mDue * s.pace.mPeriod) ≤ 5 * s.clock then maintLineDue s else s
    else s)

end Sys2Proof.Machine
end

