-- ==== Sys2Proof/Machine/Feedback.lean ====
section
/-! DEFINITION. The feedback interface: settings (R264, R265), counting (R266 to R271), position and capture (R272 to R274), speed windows
(R275 to R278), illegal transitions (R279, R280), snapshots (R281) and divided outputs (R282 to R285). -/
namespace Sys2Proof.Machine

/-! ## One channel -/

/-- One feedback channel changed. -/
def setFbk (c : Nat) (f : Fbk → Fbk) (s : State) : State := { s with fbk := updAt s.fbk c f }

/-- The settings of a channel (Table 9.1). -/
def Fbk.mode (f : Fbk) : Nat := pnat f.params 1 0 0
def Fbk.filter (f : Fbk) : Nat := pnat f.params 2 0 4
def Fbk.inverted (f : Fbk) : Bool := pon f.params 3 0 false
def Fbk.illThresh (f : Fbk) : Nat := pnat f.params 5 0 0

/-- The channels count (Table 2.2). -/
def feedbackOn (s : State) : Bool := s.sys.phase == .running && s.sys.mode != .keepalive && s.sys.mode != .boot

/-- A channel is claimed: by the open job, a running pass, or an axis not at standstill (R264, R289, R336). -/
def channelClaimed (s : State) (c : Nat) : Bool :=
  (s.job.isOpen && pnat s.job.params 1 0 0 == c) || (s.audit.pass.any fun q => pnat q.params 1 0 0 == c) ||
    (List.range 8).any fun a => axisOn s a && pnat (axisCfg s a) 3 0 0 == 1 && pnat (axisCfg s a) 4 0 0 == c && !(nthOr s.axes a {}).standstill

/-- REFERENCED goes on the axes whose measured position is the channel's (R365). -/
def clearReferences (c : Nat) (s : State) : State :=
  (List.range 8).foldl (fun s a =>
    if pnat (axisCfg s a) 3 0 0 = 1 ∧ pnat (axisCfg s a) 4 0 0 = c then setAxis a (fun x => { x with referenced := false }) s else s) s

/-- The Hall code of the filtered levels and its sector (R270, Table 9.3). -/
def Fbk.hall (f : Fbk) : Nat := bitAt f.c 2 + bitAt f.b 1 + bitAt f.a 0
def hallSector (h : Nat) : Option Nat := [1, 3, 2, 6, 4, 5].findIdx? (· == h)

/-- The channel restarts at a clock: the present levels are the reference, the window in progress is discarded and a new one begins (R265, R275,
R280). -/
def Fbk.restart (now : Nat) (f : Fbk) : Fbk :=
  { f with
    winAt := now, sector := hallSector f.hall, badBefore := f.hall == 0 || f.hall == 7, net := 0, counts := 0, illWin := 0, winSeq := 0, reported := false
    hadReversal := false, counted := false, firstHere := false, illSeen := false }

/-! ## Divided outputs -/

/-- The settings of an output (Table 9.6). -/
def Fbo.enabled (o : Fbo) : Bool := pon o.params 1 0 false
def Fbo.spacing (o : Fbo) : Nat := pnat o.params 8 0 8

/-- One output changed. -/
def setFbo (i : Nat) (f : Fbo → Fbo) (s : State) : State := { s with fbo := updAt s.fbo i f }

/-- The accumulator after one source count, the output position and the backlog held to ±65 535; steps beyond that are lost (R283, R285). -/
def Fbo.count (o : Fbo) (d : Int) : Fbo :=
  let n : Int := pnat o.params 3 0 1; let m : Int := pnat o.params 4 0 1
  let t := o.acc + d * n
  let k := t / m
  let b := max (-65535) (min 65535 (o.backlog + k))
  { o with acc := t % m, o := o.o + k, backlog := b, lost := satAdd 32 o.lost (o.backlog + k - b).natAbs }

/-- `ev.fbo_overflow` (Table 19.5). -/
def evFboOverflow (i lost : Nat) (s : State) : State :=
  emitLimited i { code := 0x0903, source := 0x40, payload := leBytes 1 i ++ zeros 3 ++ leBytes 4 lost ++ zeros 8 } s

/-- A count of a channel passed to the outputs that divide it. A step that moves O and not the backlog is dropped (R285). -/
def outputsCount (c : Nat) (d : Int) (s : State) : State :=
  [0, 1].foldl (fun s i =>
    let o := nthOr s.fbo i {}
    if o.enabled && pnat o.params 2 0 0 == c then
      let o' := o.count d
      let s := setFbo i (fun _ => o') s
      if o'.o - o.o = o'.backlog - o.backlog then s else evFboOverflow i o'.lost (touchGroup 8 s)
    else s) s

/-- One place along 00, 10, 11, 01 (R284). -/
def quadNext (fwd : Bool) (a b : Bool) : Bool × Bool := if fwd then (!b, a) else (b, !a)

/-- One step of the backlog sent (R284). In STEP_DIR, FBO_A is high for ⌊SPACING / 2⌋ HPORT clocks from the step on (`fboLevelA`). -/
def Fbo.step (o : Fbo) (now : Nat) : Fbo :=
  let up : Bool := decide (0 < o.backlog)
  let fwd := up != pon o.params 7 0 false
  let q := if pnat o.params 6 0 0 = 1 then (true, !fwd) else quadNext fwd o.a o.b
  { o with a := q.1, b := q.2, backlog := if up then o.backlog - 1 else o.backlog + 1, stepAt := now }

/-- The level on FBO_A (R284). -/
def fboLevelA (s : State) (i : Nat) : Bool :=
  let o := nthOr s.fbo i {}
  o.a && (pnat o.params 6 0 0 != 1 || decide (s.clock < o.stepAt + 4 * (o.spacing / 2)))

/-- FBO_STEP (R284). -/
def execFboStep (i : Fin 2) (s : State) : Host.Outcome State Fault Refusal :=
  let o := s.fbo[i]
  .next (if o.enabled && o.backlog != 0 && (o.stepAt == 0 || decide (o.stepAt + 4 * o.spacing ≤ s.clock)) then
      setFbo i.val (fun o => o.step s.clock) s
    else s)

/-! ## Counts -/

/-- A count of +1 or −1 before DIR_INV applied to a channel: position, window, divided outputs, pacing (R266, R272, R277, R278). -/
def applyCount (c : Nat) (raw : Int) (s : State) : State :=
  let d := if (nthOr s.fbk c {}).inverted then -raw else raw
  let s := setFbk c (fun f => { f with
    pos := f.pos + BitVec.ofInt 48 d, net := f.net + d, counts := f.counts + 1
    hadReversal := f.hadReversal || (f.lastSign != 0 && f.lastSign != d), lastSign := d
    firstHere := f.firstHere || !f.counted, counted := true }) s
  paceMoved c (outputsCount c d s)

/-- `ev.quad_illegal` of a channel, SINCE counted from a value of ILLEGAL (R279, Table 19.5). -/
def quadIllegal (c : Nat) (f : Fbk) (base : Nat) : Event :=
  { code := 0x0902, source := 0x40 + c
    payload := leBytes 1 c ++ leBytes 1 f.mode ++ leBytes 6 f.pos.toNat ++ leBytes 4 f.illegal ++ leBytes 4 ((f.illegal + 2 ^ 32 - base) % 2 ^ 32) }

/-- `ev.quad_illegal` (R279): the first after the settings at once, later ones at most once in 100 ms. Where this transition ends the period of a
suppressed report, that report is the entry before it, and SINCE counts from it; an event that is dropped is no entry. -/
def evQuadIllegal (c : Nat) (s : State) : State :=
  let f := nthOr s.fbk c {}
  let s := if f.illSeen then s
    else { s with evr := { s.evr with limits := s.evr.limits.filter fun r => !(r.code == 0x0902 && r.inst == c) } }
  let last := match limitedEntry c (quadIllegal c f f.illAtEvent) s with
    | some w => if takesEvent w s then uAt w.payload 8 4 else f.illAtEvent
    | none => f.illAtEvent
  emitLimited c (quadIllegal c f (if last = f.illegal then f.illAtEvent else last))
    (setFbk c (fun f => { f with illSeen := true, illAtEvent := last }) s)

/-- An illegal transition (R267, R271, R279, R280): counted, reported, and FBK_ILLEGAL at the threshold. -/
def illegalTransition (c : Nat) (s : State) : State :=
  let s := setFbk c (fun f => { f with illegal := wrapAdd 32 f.illegal 1, illWin := satAdd 16 f.illWin 1 }) s
  let s := evQuadIllegal c s
  let f := nthOr s.fbk c {}
  if f.illThresh ≠ 0 ∧ f.illThresh ≤ f.illWin ∧ !f.chFault then
    let s := raiseFault .fbkIllegal (0x40 + c) 0xFFFF (setFbk c (fun f => { f with chFault := true }) s)
    paceSourceFault c (clearReferences c s)
  else s

/-- The place of a quadrature state in the forward sequence 00, 10, 11, 01 (R266). -/
def quadPlace (a b : Bool) : Nat := match a, b with | false, false => 0 | true, false => 1 | true, true => 2 | false, true => 3

/-- The count of a quadrature change, or none where it is illegal (Table 9.2): in X2 the steps between places 0 and 1 and places 2 and 3
count, in X1 that between 0 and 1. -/
def quadCount (mode : Nat) (old new_ : Nat) : Option Int :=
  let d := (new_ + 4 - old) % 4
  let low := if d = 1 then old else new_
  let counts : Bool := mode == 3 || low == 0 || (mode == 2 && low == 2)
  if d = 2 then none else if d = 0 ∨ !counts then some 0 else if d = 1 then some 1 else some (-1)

/-- The decoder's answer to new filtered levels of FB_A and FB_B (R266 to R269). -/
def decodeCount (f : Fbk) (a b : Bool) : Option Int :=
  match f.mode with
  | 1 | 2 | 3 => quadCount f.mode (quadPlace f.a f.b) (quadPlace a b)
  | 4 => some (if !f.a && a then (if f.b then -1 else 1) else 0)
  | 5 => some ((if !f.a && a then 1 else 0) + (if !f.b && b then -1 else 0))
  | _ => some 0

/-! ## Input filters (R262) -/

/-- Consecutive samples that an input has held a level before the samples that now come. -/
def InFilter.held (k : InFilter) (level : Bool) : Nat := if k.sample == level then k.run else 0

/-- A filter after n samples of one level; the run counts up to 255, the greatest FILTER. -/
def InFilter.take (k : InFilter) (level : Bool) (n : Nat) : InFilter := if n = 0 then k else ⟨level, min 255 (k.held level + n)⟩

/-- The sample, of n of one level, at which the filtered level takes it: once it has held for FILTER samples. -/
def InFilter.takesAt (k : InFilter) (filter : Nat) (out level : Bool) (n : Nat) : Option Nat :=
  if n ≠ 0 ∧ level ≠ out ∧ filter ≤ k.held level + n then some (max 1 (filter - k.held level)) else none

/-- A change is rejected: the sampled level changes back before the filtered level has taken it. -/
def InFilter.rejects (k : InFilter) (out level : Bool) (n : Nat) : Bool := n != 0 && k.sample != out && level == out

/-- The filtered levels of FB_A and FB_B change in one sample, and the decoder counts (R266 to R269). -/
def decodeLevels (c : Nat) (a b : Bool) (s : State) : State :=
  let r := decodeCount (nthOr s.fbk c {}) a b
  let s := setFbk c (fun f => { f with a := a, b := b }) s
  if !feedbackOn s then s
  else match r with
    | none => illegalTransition c s
    | some 0 => s
    | some d => applyCount c d s

/-- FEEDBACK_COUNT (R266): FB_A and FB_B are sampled at two levels for n samples; a filtered level that changes is decoded at its own sample, both
together where they change in the same one. While the interface does not run the filters follow their inputs and nothing is counted. -/
def execFeedbackCount (c : Fin 8) (a b : Bool) (n : Nat) (s : State) : Host.Outcome State Fault Refusal :=
  let f := s.fbk[c]
  let lost := bitAt (f.fa.rejects f.a a n) 0 + bitAt (f.fb.rejects f.b b n) 0
  let s := setFbk c.val (fun f => { f with
    fa := f.fa.take a n, fb := f.fb.take b n, glitch := if feedbackOn s then wrapAdd 32 f.glitch lost else f.glitch }) s
  .next (match f.fa.takesAt f.filter f.a a n, f.fb.takesAt f.filter f.b b n with
    | none, none => s
    | some _, none => decodeLevels c.val a f.b s
    | none, some _ => decodeLevels c.val f.a b s
    | some i, some j =>
      if i = j then decodeLevels c.val a b s
      else if i < j then decodeLevels c.val a b (decodeLevels c.val a f.b s)
      else decodeLevels c.val a b (decodeLevels c.val f.a b s))

/-- The move between two Hall sectors (Table 9.4). -/
def hallMove (old new_ : Nat) : Option Int :=
  match (new_ + 6 - old) % 6 with
  | 0 => some 0 | 1 => some 1 | 5 => some (-1) | _ => none

/-- HALL_EVALUATE (R270, R271). -/
def execHallEvaluate (c : Fin 8) (s : State) : Host.Outcome State Fault Refusal :=
  let f := s.fbk[c]
  if !(feedbackOn s && f.mode == 6) then .next s
  else match hallSector f.hall with
    | none =>
      let s := setFbk c.val (fun f => { f with badBefore := true }) s
      .next (if f.badBefore then s else illegalTransition c.val s)
    | some k =>
      let s := setFbk c.val (fun f => { f with badBefore := false, sector := some k }) s
      .next (match f.sector with
        | none => s
        | some o => match hallMove o k with
          | none => illegalTransition c.val s
          | some 0 => s
          | some d => applyCount c.val d s)

/-! ## Capture -/

/-- An edge of filtered FB_C (R274): the position is copied where the edge is armed; pacing and the referencing take theirs. -/
def captureEdge (c : Nat) (falling : Bool) (s : State) : State :=
  let s := setFbk c (fun f => { f with c := !falling }) s
  let f := nthOr s.fbk c {}
  match f.capt with
  | none => s
  | some (edge, every) =>
    if edge ≠ falling ∨ f.mode = 0 ∨ f.mode = 6 then s
    else
      let sq := (f.captSeq + 1) % 2 ^ 32
      let s := setFbk c (fun f => { f with captPos := f.pos, captSeq := sq, capt := if every then f.capt else none }) s
      let s := if every then s
        else emit { code := 0x0901, source := 0x40 + c
                    payload := leBytes 1 c ++ zeros 3 ++ leBytes 4 sq ++ leBytes 8 (ofSigned 64 (toSigned 48 f.pos.toNat)) } s
      let pos := toSigned 48 f.pos.toNat
      paceCapture c falling pos (underParked (paceCapture c falling pos) (homeCapture c pos s))

/-- FBK_CAPTURE_EDGE (R274): FB_C is sampled at a level for n samples, and its filtered level may change (R262). In HALL it is part of the code that
HALL_EVALUATE reads, and while the interface does not run it is only followed. -/
def execFbkCaptureEdge (c : Fin 8) (h : Bool) (n : Nat) (s : State) : Host.Outcome State Fault Refusal :=
  let f := s.fbk[c]
  let s := setFbk c.val (fun f => { f with
    fc := f.fc.take h n, glitch := if feedbackOn s then wrapAdd 32 f.glitch (bitAt (f.fc.rejects f.c h n) 0) else f.glitch }) s
  .next (if f.fc.takesAt f.filter f.c h n = none then s
    else if feedbackOn s && f.mode != 6 then captureEdge c.val (!h) s
    else setFbk c.val (fun f => { f with c := h }) s)

/-! ## Windows -/

/-- The length of a channel's windows: WINDOW × 2000 HPORT clocks, of four CORE clocks each (R275, Table 9.1). -/
def Fbk.window (f : Fbk) : Nat := pnat f.params 4 0 100 * 8000

/-- SPEED_WINDOW_END (R275 to R278): the window in progress has run its length, and the next follows it without a gap. -/
def execSpeedWindowEnd (c : Fin 8) (s : State) : Host.Outcome State Fault Refusal :=
  .next (if !(feedbackOn s && s.fbk[c].mode != 0 && decide (s.fbk[c].winAt + s.fbk[c].window ≤ s.clock)) then s
    else setFbk c.val (fun f => { f with
      winAt := f.winAt + f.window
      report := { net := f.net, counts := f.counts, illWin := f.illWin, seq := f.winSeq, standstill := f.counts == 0
                  settling := f.counts != 0 && (f.firstHere || (f.reported && f.report.standstill)), reversed := f.hadReversal }
      net := 0, counts := 0, illWin := 0, winSeq := (f.winSeq + 1) % 2 ^ 32, hadReversal := false, firstHere := false, reported := true }) s)

/-! ## Commands -/

/-- The parameters of `fbk.config` (Table 9.1). -/
def fbkSpecs : List PSpec := [⟨1, 1, 0, 6, some 0⟩, ⟨2, 1, 1, 255, some 4⟩, ⟨3, 1, 0, 1, some 0⟩, ⟨4, 1, 1, 10000, some 100⟩, ⟨5, 1, 0, 65535, some 0⟩]

/-- `fbk.config` (R264, R265). -/
def fbkConfig (p : List Byte) (s : State) : Reply × State :=
  let c := listTarget p 0
  if 8 ≤ c then refuse .badArg 0 s
  else match judgeList fbkSpecs noRelation (nthOr s.fbk c {}).params (listItems p 0) with
    | .error d => refuse .badArg d s
    | .ok m => if channelClaimed s c then refuse .badState 0 s else okWith [] (setFbk c (fun f => Fbk.restart s.clock { f with params := m }) s)

/-- FBK_CONFIG (R264). -/
def execFbkConfig (s : State) : Host.Outcome State Fault Refusal := .next (runCommand 0x0901 fbkConfig s)

/-- `fbk.set` (R273). -/
def fbkSet (p : List Byte) (s : State) : Reply × State :=
  let c := uAt p 0 1; let v := iAt p 8 8
  if 8 ≤ c then refuse .badArg 0 s
  else if v < -(2 ^ 47) ∨ 2 ^ 47 ≤ v then refuse .badArg 8 s
  else if channelClaimed s c then refuse .badState 0 s
  else okWith [] (clearReferences c (setFbk c (fun f => { f with pos := BitVec.ofInt 48 v }) s))

/-- FBK_SET (R273). -/
def execFbkSet (s : State) : Host.Outcome State Fault Refusal := .next (runCommand 0x0902 fbkSet s)

/-- `fbk.capture` (R274, R289). -/
def fbkCapture (p : List Byte) (s : State) : Reply × State :=
  let c := uAt p 0 1; let e := uAt p 1 1; let r := uAt p 2 1
  let m := (nthOr s.fbk c {}).mode
  if 8 ≤ c then refuse .badArg 0 s
  else if 1 < e then refuse .badArg 1 s
  else if 2 < r then refuse .badArg 2 s
  else if m = 0 ∨ m = 6 then refuse .badArg 0 s
  else if (s.job.isOpen && pnat s.job.params 1 0 0 == c && pnat s.job.params 7 0 0 == 2) ||
      (s.audit.pass.any fun q => pnat q.params 1 0 0 == c && pnat q.params 7 0 0 == 2) then refuse .badState 0 s
  else okWith [] (setFbk c (fun f => { f with capt := if r = 2 then none else some (e == 1, r == 1) }) s)

/-- FBK_CAPTURE (R274). -/
def execFbkCapture (s : State) : Host.Outcome State Fault Refusal := .next (runCommand 0x0903 fbkCapture s)

/-- The snapshot of Table 18.10 (R281). -/
def snapshot (f : Fbk) (now : BitVec 64) : List Byte :=
  let r := f.report
  leBytes 8 (ofSigned 64 (toSigned 48 f.pos.toNat)) ++ leBytes 4 (ofSigned 32 r.net) ++ leBytes 4 r.counts ++ leBytes 2 r.illWin ++
    leBytes 1 (bitAt r.standstill 0 + bitAt r.settling 1 + bitAt r.reversed 2 + bitAt (r.illWin != 0) 3) ++
    leBytes 1 (bitAt f.a 0 + bitAt f.b 1 + bitAt f.c 2 + bitAt f.chFault 3) ++ leBytes 4 r.seq ++ leBytes 4 f.illegal ++ leBytes 4 f.glitch ++
    leBytes 8 (ofSigned 64 (toSigned 48 f.captPos.toNat)) ++ leBytes 4 f.captSeq ++ zeros 4 ++ leBytes 8 now.toNat

/-- `fbk.read` (R281). -/
def fbkRead (p : List Byte) (s : State) : Reply × State :=
  if 8 ≤ uAt p 0 1 then refuse .badArg 0 s else okWith (snapshot (nthOr s.fbk (uAt p 0 1) {}) s.time.tb) s

/-- FBK_READ (R281). -/
def execFbkRead (s : State) : Host.Outcome State Fault Refusal := .next (runCommand 0x0904 fbkRead s)

/-- The parameters of `fbk.out` (Table 9.6). -/
def fboSpecs : List PSpec :=
  [⟨1, 1, 0, 1, some 0⟩, ⟨2, 1, 0, 7, some 0⟩, ⟨3, 1, 1, 65535, some 1⟩, ⟨4, 1, 1, 65535, some 1⟩, ⟨5, 1, 0, 65534, some 0⟩, ⟨6, 1, 0, 1, some 0⟩,
    ⟨7, 1, 0, 1, some 0⟩, ⟨8, 1, 8, 255, some 8⟩]

/-- PHASE below M, and a source channel that is not OFF (R282). -/
def fboRelation (s : State) (its : List PItem) (m : ParamSet) : Option (List Nat) :=
  if pnat m 4 0 1 ≤ pnat m 5 0 0 then some [4, 5]
  else if ((pon m 1 0 false) || its.any fun i => i.id == 2) && (nthOr s.fbk (pnat m 2 0 0) {}).mode == 0 then some [2]
  else none

/-- An output is enabled, at its starting phase (R283). -/
def Fbo.start (o : Fbo) : Fbo := { o with acc := pnat o.params 5 0 0, o := 0, backlog := 0, a := false, b := false, stepAt := 0, lost := 0 }

/-- An output is disabled: both balls low. -/
def Fbo.halt (o : Fbo) (now : Nat) : Fbo := { o with a := false, b := false, backlog := 0, disabledAt := now }

/-- The settings the part gives the trigger output: one step per line pitch of the pacing parameters (R313). -/
def triggerParams (ps : ParamSet) : ParamSet :=
  [⟨1, 0, 1⟩, ⟨2, 0, pget ps 1 0 0⟩, ⟨3, 0, pget ps 4 0 1⟩, ⟨4, 0, pget ps 3 0 1⟩, ⟨5, 0, 0⟩, ⟨6, 0, 1⟩, ⟨7, 0, pget ps 2 0 0⟩, ⟨8, 0, 8⟩]

/-- The trigger output is disabled at the end of its pass or job (R313); it stays the part's own while the job may still need it. An output that the
host has taken over with `fbk.out` is left alone. -/
def triggerOff (i : Nat) (s : State) : State :=
  setFbo i (fun o =>
    let mine := o.byAudit
    let o := { o with byAudit := s.job.isOpen && s.job.inspect && s.job.trigOut == i }
    if o.enabled && mine then { o.halt s.clock with params := pset o.params ⟨1, 0, 0⟩ } else o) s

/-- `fbk.out` (R282). ENABLE = 0 on an output that the part has enabled for a pass, and ENABLE = 1 on one that it has reserved, make it the host's: the
part enables it no more (DESIGN CHOICE, log 32). -/
def fbkOut (p : List Byte) (s : State) : Reply × State :=
  let i := listTarget p 0; let its := listItems p 0
  let o := nthOr s.fbo i {}
  let onlyOff := match its with | [x] => x.id == 1 && x.value == 0 | _ => false
  if 2 ≤ i then refuse .badArg 0 s
  else match judgeList fboSpecs (if onlyOff then noRelation else fboRelation s its) o.params its with
    | .error d => refuse .badArg d s
    | .ok m =>
      if o.enabled && !onlyOff then refuse .badState 0 s
      else
        let on := pon m 1 0 false
        okWith [] (setFbo i (fun o =>
          let o' := { o with params := m, byAudit := o.byAudit && on == o.enabled }
          if on then o'.start else if o.enabled then o'.halt s.clock else o') s)

/-- FBK_OUT (R282). -/
def execFbkOut (s : State) : Host.Outcome State Fault Refusal := .next (runCommand 0x0905 fbkOut s)

end Sys2Proof.Machine
end

