-- ==== Sys2Proof/Machine/Heads.lean ====
section
/-! DEFINITION. The head ports: shift, latch and fire strobe (R232 to R239), the head memory and its record (R241 to R248, R251), head
presence and head fault (R249, R250), the usage block (R246) and the bar-ownership pair (R254, R255). -/
namespace Sys2Proof.Machine

/-! ## Shift, latch and windows -/

/-- A shifted line that will never be latched: its token has been issued and neither the token nor a cycle is left (R239). -/
def neverLatched (s : State) (p : Nat) (h : HeadLine) : Bool :=
  let w := nthOr s.wave p {}
  decide (h.f < (nthOr s.pace.port p {}).next) && !(w.token.any fun t => t.f == h.f) && !(w.cycles.any fun c => c.line.f == h.f && !c.latched)

/-- FRAME_SHIFT_START (R232): the head line is complete, the port may fire, and the latch of the line before fell 10 ns ago. -/
def execFrameShiftStart (p : Fin 16) (s : State) : Host.Outcome State Fault Refusal :=
  let l := s.swath.line[p]
  match l.ready with
  | none => .next s
  | some h =>
    let free := h.first ||
      ((match l.shifted with | some (g, _) => neverLatched s p.val g | none => true) && decide (l.latchFall + 8 ≤ s.clock))
    .next (if portFires s p.val && l.shifting.isNone && free then
        setLine p.val (fun l => { l with ready := none, shifting := some (h, s.clock) }) s
      else s)

/-- A frame with the zero byte that goes out on the last falling edge when its length is odd (R228). -/
def padEven (f : List Byte) : List Byte := if f.length % 2 = 1 then f ++ [0] else f

/-- The bytes of a frame, with those a check-value unit on point 0x05 is fed. -/
def shiftBytes (s : State) (p : Nat) (h : HeadLine) : List Byte × List Byte :=
  if s.sys.legacy then (legacyFrame h, h.rows.flatMap legacyRow)
  else
    match ((nthOr s.wave p {}).banks[h.bank]?).join with
    | some b => let f := nativeFrame s h.bank b h; (padEven f, f.take (f.length - 4))
    | none => ([], [])

/-- FRAME_SHIFT_DONE (R228): the frame stands in the head's shift register. -/
def execFrameShiftDone (p : Fin 16) (s : State) : Host.Outcome State Fault Refusal :=
  match s.swath.line[p].shifting with
  | none => .next s
  | some (h, _) =>
    let fb := shiftBytes s p.val h
    let s := setLine p.val (fun l => { l with shifting := none, dead := false, shifted := if l.dead then none else some (h, s.clock) }) s
    .next (cvuUnit 5 (fun u => u.sel == p.val) fb.2 (send (.shift p) fb.1 s))

/-- The oldest cycle of a port changed, or taken away once its windows are over. -/
def setHeadCycle (p : Nat) (f : Cycle → Option Cycle) (s : State) : State :=
  setWave p (fun w => { w with cycles := match w.cycles with
    | [] => []
    | c :: cs => match f c with | some c => c :: cs | none => cs }) s

/-- The latch is issued: the head's fire register takes the line; with no windows the line counts as fired (R233, R238). -/
def issueLatch (p : Nat) (h : HeadLine) (nwin : Nat) (s : State) : State :=
  let s := setLine p (fun l => { l with shifted := none, latched := some h, latchFall := s.clock + 16 }) s
  if nwin = 0 then lineFired p h (setHeadCycle p (fun _ => none) s)
  else setHeadCycle p (fun c => some { c with latched := true }) s

/-- LATCH_ISSUE (R233): T_lat after sample 0 of the cycle. SHIFT_LATE where the frame is not complete 40 ns before (R235), LINE_CHECK in Markhor where
the port's own check value differs (R231), whose outcome is given. -/
def execLatchIssue (p : Fin 16) (checkOk : Bool) (s : State) : Host.Outcome State Fault Refusal :=
  match s.wave[p].cycles with
  | [] => .next s
  | c :: _ =>
    if c.latched || c.cut || !portFires s p.val || decide (s.clock + 64 < c.startAt + 32 * ampLatencyOf s p.val + 8) then .next s
    else
      let ok := match s.swath.line[p].shifted with
        | some (h, at_) => decide (h.f = c.line.f) && decide (at_ + 32 ≤ s.clock)
        | none => false
      if !ok then .next (engineFault .shiftLate (0x30 + p.val) 0xFFFF (nameFault { cls := .shiftLate, port := p.val, line := c.line.lineId } s))
      else if s.sys.profile = .markhor ∧ !checkOk then
        .next (engineFault .lineCheck (0x30 + p.val) 0xFFFF (nameFault { cls := .lineCheck, port := p.val, line := c.line.lineId } s))
      else .next (issueLatch p.val c.line ((cycleBank s.wave[p] c).elim 0 (·.nwin)) s)

/-- Window w of a cycle opens; with window 0 the line counts as fired (R238). -/
def openWindow (p w : Nat) (c : Cycle) (s : State) : State :=
  let s := setHeadCycle p (fun c => some { c with opened := c.opened + 2 ^ w, next := w + 1, open_ := some w, counted := true }) s
  if w = 0 then lineFired p c.line s else s

/-- The clock of a sample of a cycle at the head: AMP_LATENCY samples after it leaves the part (R196). -/
def headSampleAt (s : State) (p : Nat) (c : Cycle) (sample : Nat) : Nat := c.startAt + 32 * (ampLatencyOf s p + sample)

/-- START and END of a window of the bank a cycle plays. -/
def windowOf (w : WavePort) (c : Cycle) (i : Nat) : Nat × Nat := (((cycleBank w c).map (·.wins)).getD []).getD i (0, 0)

/-- FIRE_WINDOW_OPEN (R234): at START of window w (R196), HS_FIRE rises for the cycle that has been latched; 5 ns later where the window before closes at
that sample. The row acts once the HPORT clock of the opening edge is over, since a window whose edge falls in the same HPORT clock as a fall of the
permit does not open (R239). -/
def execFireWindowOpen (p : Fin 16) (w : Fin 7) (s : State) : Host.Outcome State Fault Refusal :=
  match s.wave[p].cycles with
  | [] => .next s
  | c :: _ =>
    let nwin := (cycleBank s.wave[p] c).elim 0 (·.nwin)
    let at_ := headSampleAt s p.val c (windowOf s.wave[p] c w.val).1
    let abuts : Bool := w.val ≠ 0 ∧ (windowOf s.wave[p] c (w.val - 1)).2 = (windowOf s.wave[p] c w.val).1
    .next (if c.latched && !c.cut && c.open_.isNone && c.next == w.val && decide (w.val < nwin) && portFires s p.val &&
        decide ((at_ + (if abuts then 4 else 0)) / 4 < s.clock / 4)
      then openWindow p.val w.val c s else s)

/-- FIRE_WINDOW_CLOSE (R234): HS_FIRE falls at the END of the window that is open (R196); after the last one the cycle is over. -/
def execFireWindowClose (p : Fin 16) (w : Fin 7) (s : State) : Host.Outcome State Fault Refusal :=
  match s.wave[p].cycles with
  | [] => .next s
  | c :: _ =>
    let nwin := (cycleBank s.wave[p] c).elim 0 (·.nwin)
    .next (if c.open_ = some w.val ∧ headSampleAt s p.val c (windowOf s.wave[p] c w.val).2 ≤ s.clock then
        setHeadCycle p.val (fun c => if c.cut || decide (nwin ≤ w.val + 1) then none else some { c with open_ := none }) s
      else s)

/-- FIRE_PERMIT_FALL (R239): a port that may no longer fire finishes the window that is open and nothing else. -/
def execFirePermitFall (p : Fin 16) (s : State) : Host.Outcome State Fault Refusal :=
  .next (if portFires s p.val then s else cutPort p.val s)

/-! ## The head-memory bus (R241) -/

/-- A transfer to or from the head memory, given by what the controller sends from one START to the next, tried up to three times: 0, or the bus cause of
Table 8.12 when every try fails, and the tries left. A bus whose SDA is held low is freed. Tries that are not given succeed. -/
def busTransfer (p : Fin 16) (slow : Bool) (bytes : List (List Byte)) : Nat → Nat → List BusTry → State → Nat × List BusTry × State
  | 0, cause, ts, s => (cause, ts, s)
  | n + 1, _, ts, s =>
    let s := bytes.foldl (fun s b => send (.i2c p slow) b s) s
    match ts with
    | [] => (0, [], s)
    | .done :: ts => (0, ts, s)
    | .noAck :: ts => busTransfer p slow bytes n 1 ts s
    | .stuck :: ts => busTransfer p slow bytes n 2 ts (send (.i2cFree p) [] s)
    | .arbitration :: ts | .stretch :: ts => busTransfer p slow bytes n 2 ts s

/-- The word address of a place in the memory, after the 7-bit address 0x50 of a write. -/
def headAddress (a : Nat) : List Byte := [0xA0, BitVec.ofNat 8 (a / 256), BitVec.ofNat 8 (a % 256)]

/-- Blocks read in order, as far as the first that fails every try: the address written, then a repeated START and a sequential read. -/
def readBlocks (p : Fin 16) (slow : Bool) : List Nat → List BusTry → State → Nat × List BusTry × State
  | [], ts, s => (0, ts, s)
  | k :: ks, ts, s =>
    let x := busTransfer p slow [headAddress (256 * k), [0xA1]] 3 0 ts s
    if x.1 = 0 then readBlocks p slow ks x.2.1 x.2.2 else x

/-- A read of blocks in fast mode, the whole of which is repeated once in standard mode when a block fails. -/
def readHead (p : Fin 16) (ks : List Nat) (ts : List BusTry) (s : State) : Nat × List BusTry × State :=
  let x := readBlocks p false ks ts s
  if x.1 = 0 then x else readBlocks p true ks x.2.1 x.2.2

/-- Bytes written from a place on, in pages of 32 bytes, each followed by acknowledge polling, of which one address byte stands for the run (log 57). A
memory that has not answered within 10 ms of it has not acknowledged. -/
def writePages (p : Fin 16) (a : Nat) (b : List Byte) (ts : List BusTry) (s : State) : Nat × List BusTry × State :=
  busTransfer p false ((List.range (b.length / 32)).flatMap fun i => [headAddress (a + 32 * i) ++ (b.drop (32 * i)).take 32, [0xA0]]) 3 0 ts s

/-! ## The head record (R242 to R247) -/

/-- A block of the head memory. -/
def headBlock (d : List Byte) (k : Nat) : List Byte := padTo 256 ((d.drop (256 * k)).take 256)

/-- A block's CV over its first 252 bytes (R243 to R245). -/
def blockCvOk (b : List Byte) : Bool := cvOk b 252

/-- The excluded nozzles, or none where the exclusion block fails (R245). -/
def exclusions (b : List Byte) : Option (List Nat) :=
  let n := uAt b 0 2
  if 120 < n ∨ !blockCvOk b ∨ ((b.take 252).drop (2 + 2 * n)).any (· ≠ 0) then none
  else some ((List.range n).map fun i => uAt b (2 + 2 * i) 2)

/-- A usage copy of the usage block (R246), and its validity. -/
def usageCopyOf (b : List Byte) (i : Nat) : List Byte := (b.drop (128 * i)).take 128
def usageValid (b : List Byte) (i : Nat) : Bool := cvOk (usageCopyOf b i) 124

/-- ORDER is a permutation of 0 to R − 1 with zero entries above (R243, Table 8.12). -/
def orderOk (order rows : Nat) : Bool :=
  (List.range rows).all (fun r => (List.range rows).any fun k => order / 16 ^ k % 16 == r) && decide (order < 16 ^ rows)

/-- The geometry the engine serves (R164). -/
def geometryOk (n r : Nat) : Bool := decide (8 ≤ n) && decide (n ≤ 8192) && decide (1 ≤ r) && decide (r ≤ 8) && n % 8 == 0 && n % r == 0

/-- A MIN_DIV or SHIFT_DIV value. -/
def divOk (d : Nat) : Bool := d == 1 || d == 2 || d == 4 || d == 8

/-- The record in the identity and drive blocks. -/
def recordOfBytes (a d : List Byte) : HeadRecord :=
  { serial := uAt a 40 8, typeId := uAt a 48 4, nozzles := uAt a 52 2, rows := uAt a 54 1, order := uAt a 56 4, framing := uAt a 64 1
    minDiv := uAt a 65 1, rankScale := uAt d 0 2, minPeriod := uAt d 4 4 }

/-- The cause of a record read, in the order of Table 8.12. -/
def recordCause (legacy : Bool) (bus : Nat) (data : List Byte) : Nat :=
  let a := headBlock data 0; let d := headBlock data 1; let r := recordOfBytes a d
  if bus ≠ 0 then bus
  else if uAt a 0 4 ≠ 0x43455248 then 3
  else if uAt a 4 1 ≠ 1 then 4
  else if !blockCvOk a || uAt a 5 3 != 0 || uAt a 55 1 != 0 || decide (3 < r.framing) || ((a.take 252).drop 66).any (· ≠ 0) then 5
  else if !blockCvOk d || ((d.take 252).drop 12).any (· ≠ 0) then 6
  else if !geometryOk r.nozzles r.rows || !orderOk r.order r.rows then 7
  else if !bitOf r.framing (if legacy then 1 else 0) || !divOk r.minDiv then 8
  else if r.rankScale = 0 ∨ r.minPeriod < 1000 ∨ 1000000 < r.minPeriod then 9
  else 0

/-- The comparison of R251 with the committed record: (new head, mismatch). -/
def compareHead (s : State) (p : Nat) (r : HeadRecord) : Bool × Bool :=
  match recordOf s p with
  | none => (false, false)
  | some c =>
    if c.serial = r.serial then (false, false)
    else
      let same := c.nozzles == r.nozzles && c.rows == r.rows && c.order == r.order && c.framing == r.framing &&
        decide (r.minDiv ≤ shiftDivIn (headCfg s p))
      (same, !same)

/-- The usage copies as read: which is current, with its counts (R246). -/
def readUsage (b : List Byte) (h : Head) : Head :=
  match currentCopy (usageValid b) (fun i => uAt (usageCopyOf b i) 0 4) with
  | some i =>
    let u := usageCopyOf b i
    { h with usageRead := true, usageOk := true, usageCopy := i, usageSeq := uAt u 0 4, usageFires := uAt u 4 8, usageMin := uAt u 12 4 }
  | none => { h with usageRead := true, usageOk := false, usageCopy := 1, usageSeq := 0, usageFires := 0, usageMin := 0 }

/-- The exclusion list as continuation payload, padded to whole entries. -/
def exclusionPayload (xs : List Nat) : List Byte := padTo (16 * ceilDiv xs.length 8) (xs.flatMap (leBytes 2))

/-- `ev.head_in` (Table 19.3). A read that failed on the bus has checked no block, so it reports none bad (R247). -/
def evHeadIn (p cause : Nat) (data : List Byte) (isNew mism : Bool) (s : State) : State :=
  let a := headBlock data 0; let d := headBlock data 1; let u := headBlock data 3
  let bus := cause == 1 || cause == 2
  let ex := if bus then some [] else exclusions (headBlock data 2)
  let usageBad := !bus && !usageValid u 0 && !usageValid u 1
  emit { code := 0x0801, source := 0x30 + p
         status := (ex.getD []).length + bitAt ex.isNone 8 + bitAt usageBad 9
         flags := bitAt isNew 0 + bitAt mism 1 + bitAt usageBad 2
         payload := leBytes 1 p ++ leBytes 1 cause ++ leBytes 8 (uAt a 40 8) ++ leBytes 4 (uAt a 48 4) ++ leBytes 2 (uAt d 0 2) ++
           exclusionPayload (ex.getD []) } s

/-- The head history when a head with a readable identity is seen (R486). -/
def noteSerial (p : Nat) (r : HeadRecord) (s : State) : State :=
  setHeadHist p (fun h =>
    if h.serial = r.serial then { h with typeId := r.typeId }
    else { h with serial := r.serial, prevSerial := h.serial, typeId := r.typeId, insertions := h.insertions + 1, firstSeen := s.time.tb.toNat }) s

/-- One head changed. -/
def setHead (p : Nat) (f : Head → Head) (s : State) : State := { s with heads := updAt s.heads p f }

/-- A record read ends (R247): checked, taken into use, on presence compared (R251), and reported. A larger MIN_PERIOD raises T_port
(R297). A read by command while the read on presence is under way compares too, and leaves that read its end. -/
def headReadDone (p bus : Nat) (data : List Byte) (presence : Bool) (s : State) : State :=
  let cause := recordCause s.sys.legacy bus data
  let r := recordOfBytes (headBlock data 0) (headBlock data 1)
  let fresh := presence || (nthOr s.heads p {}).reading
  let cmp := if fresh && cause == 0 then compareHead s p r else (false, false)
  let s := setHead p (fun h =>
    let h := if bus = 0 then readUsage (headBlock data 3) h else h
    let h := if fresh && h.serial != r.serial then { h with fires := 0, firingTicks := 0, usageRest := 0 } else h
    { h with
      reading := h.reading && !presence, record := if cause = 0 then some r else none, geomBad := cause == 7 && !geometryOk r.nozzles r.rows, serial := r.serial, mismatch := h.mismatch || cmp.2
      tPort := if cause = 0 ∧ h.committed.isSome then max h.tPort r.minPeriod else h.tPort }) (countTime s)
  let s := if fresh && (cause == 0 || decide (6 ≤ cause)) then noteSerial p r s else s
  evHeadIn p cause data cmp.1 cmp.2 s

/-- The record read again (R247): the four blocks over the bus, and the 1024 bytes found. -/
def readRecord (p : Fin 16) (tries : List BusTry) (data : List Byte) (presence : Bool) (s : State) : State :=
  let x := readHead p [0, 1, 2, 3] tries s
  headReadDone p.val x.1 data presence x.2.2

/-- HEAD_RECORD_READ_DONE (R247): what the bus does with the tries, and the 1024 bytes read. -/
def execHeadRecordReadDone (p : Fin 16) (tries : List BusTry) (data : List Byte) (s : State) : Host.Outcome State Fault Refusal :=
  .next (if s.heads[p].reading && s.heads[p].present then readRecord p tries data true s else s)

/-! ## Presence and head fault (R249, R250) -/

/-- A port that the part has and whose filters run: from PLL lock on. -/
def filtersRun (s : State) (p : Nat) : Bool :=
  decide (p < Config.ports) && s.sys.phase != .inReset && s.sys.phase != .locking && s.sys.mode != .keepalive

/-- HEAD_PRESENT (R249): the head becomes present and its record is read. -/
def execHeadPresent (p : Fin 16) (s : State) : Host.Outcome State Fault Refusal :=
  .next (if filtersRun s p.val && !s.heads[p].present then
      setHead p.val (fun h => { h with present := true, reading := true, usageRead := false }) (countTime s)
    else s)

/-- An event of a head port, which is raised in every mode after BOOT (R250). -/
def afterBoot (f : State → State) (s : State) : State := if s.sys.mode = .boot then s else f s

/-- A standby becomes unfit with the condition of a Firing-region class on a configured port (R437). -/
def unfitInFollow (on : Bool) (c : FClass) (s : State) : State := if on && s.sys.mode == .follow then becomeUnfit 9 c.code s else s

/-- HEAD_ABSENT (R250): the record becomes invalid; HEAD_LOST on a configured port in a firing mode, else `ev.head_out`. -/
def execHeadAbsent (p : Fin 16) (s : State) : Host.Outcome State Fault Refusal :=
  let h := s.heads[p]
  if !(filtersRun s p.val && h.present) then .next s
  else
    let s := setHead p.val (fun h => { h with present := false, reading := false, record := none, geomBad := false }) (countTime s)
    let on := portOn s p.val
    let s := if on then setHeadHist p.val (fun h => { h with headLosses := h.headLosses + 1 }) s else s
    .next (if on && s.sys.mode.firing then engineFault .headLost (0x30 + p.val) 0xFFFF s
      else
        unfitInFollow on .headLost (afterBoot (emit
          { code := 0x0802, source := 0x30 + p.val, payload := leBytes 1 p.val ++ leBytes 1 (bitAt on 0) ++ leBytes 8 h.serial ++ zeros 6 }) s))

/-- `ev.head_fault` (Table 19.3), at most once in 10 ms for each port. -/
def evHeadFault (p : Nat) (asserted : Bool) (s : State) : State :=
  afterBoot (emitLimited p { code := 0x0803, source := 0x30 + p, flags := bitAt asserted 0, payload := leBytes 1 p ++ leBytes 1 s.sys.mode.code ++ zeros 14 }) s

/-- HEAD_FAULT_ASSERT (R250). -/
def execHeadFaultAssert (p : Fin 16) (s : State) : Host.Outcome State Fault Refusal :=
  if !(filtersRun s p.val && !s.heads[p].fault) then .next s
  else
    let s := setHead p.val (fun h => { h with fault := true }) s
    let s := setHeadHist p.val (fun h => { h with headFaults := h.headFaults + 1 }) s
    .next (if portOn s p.val && s.sys.mode.firing then engineFault .headFault (0x30 + p.val) 0xFFFF s
      else unfitInFollow (portOn s p.val) .headFault (evHeadFault p.val true s))

/-- HEAD_FAULT_CLEAR (R250). -/
def execHeadFaultClear (p : Fin 16) (s : State) : Host.Outcome State Fault Refusal :=
  .next (if filtersRun s p.val && s.heads[p].fault then evHeadFault p.val false (setHead p.val (fun h => { h with fault := false }) s) else s)

/-! ## The usage block (R246) -/

/-- The part may write a head's usage block: it has read that of the head now present, whose counts it adds to. -/
def mayWriteUsage (s : State) (p : Nat) : Bool :=
  usageWriteOf s p && barOwn s && s.sys.pwrFailN && (nthOr s.heads p {}).present && (nthOr s.heads p {}).usageRead

/-- A usage copy (Table 8.11). -/
def usageBytes (sq fires minutes : Nat) : List Byte := withCv (leBytes 4 sq ++ leBytes 8 fires ++ leBytes 4 minutes ++ zeros 108)

/-- The copy that is not current is written, with SEQ one higher (R241, R246). A write that fails every try leaves the current copy current, and its
counts to the next write (DEDUCED, log 57). -/
def writeUsage (p : Fin 16) (tries : List BusTry) (s : State) : State :=
  let s := countTime s
  if mayWriteUsage s p.val then
    let h := s.heads[p]
    let k := 1 - h.usageCopy
    let fires := h.usageFires + h.fires / 256
    let minutes := h.usageMin + h.firingTicks / 48000000000
    let sq := (h.usageSeq + 1) % 2 ^ 32
    let x := writePages p (0x300 + 0x80 * k) (usageBytes sq fires minutes) tries s
    if x.1 = 0 then
      setHead p.val (fun h => { h with
        usageOk := true, usageCopy := k, usageSeq := sq, usageFires := fires, usageMin := minutes, fires := h.fires % 256
        firingTicks := h.firingTicks % 48000000000, usageRest := h.firingTicks % 48000000000 }) x.2.2
    else setHead p.val (fun h => { h with usageRest := h.firingTicks }) x.2.2
  else s

/-- 15 minutes of firing, which are 720·10⁹ clocks, have passed on a port since its usage was last written (R246). -/
def usageDue (p : Nat) (s : State) : Bool := let h := nthOr (countTime s).heads p {}; decide (h.usageRest + 720000000000 ≤ h.firingTicks)

/-- HEAD_USAGE_WRITE (R246): every 15 minutes while the port fires. -/
def execHeadUsageWrite (p : Fin 16) (tries : List BusTry) (s : State) : Host.Outcome State Fault Refusal :=
  .next (if portFires s p.val && usageDue p.val s then writeUsage p tries s else s)

/-! ## `head.read` and `head.write` (R248) -/

/-- The CV result of a block of a record image, as `head.read` reports it. -/
def blockOk (data : List Byte) (k : Nat) : Bool :=
  let b := headBlock data k
  if k = 2 then (exclusions b).isSome else if k = 3 then usageValid b 0 || usageValid b 1 else blockCvOk b

/-- `head.read`: what the bus does with the tries and the bytes of the memory are given. Blocks 0 and 1 read the record again (R247). -/
def headRead (tries : List BusTry) (data : List Byte) (p : List Byte) (s : State) : Reply × State :=
  let port := uAt p 0 1; let k := uAt p 1 1
  if h : port < 16 then
    if 3 < k then refuse .badArg 1 s
    else if !(nthOr s.heads port {}).present then refuse .badState 0 s
    else
      let x := readHead ⟨port, h⟩ (if k < 2 then [0, 1, 2, 3] else [k]) tries s
      let cause := if k < 2 then recordCause s.sys.legacy x.1 data else x.1
      okWith (leBytes 1 cause ++ leBytes 1 (bitAt (x.1 == 0 && blockOk data k) 0) ++ zeros 6 ++ headBlock data k)
        (if k < 2 then headReadDone port x.1 data false x.2.2 else x.2.2)
  else refuse .badArg 0 s

/-- HEAD_READ (R248). -/
def execHeadRead (tries : List BusTry) (data : List Byte) (s : State) : Host.Outcome State Fault Refusal :=
  .next (runCommand 0x0801 (headRead tries data) s)

/-- `head.write`: the block is written and read back. After PWR_FAIL_N has fallen no head memory is written (R490); the answer BUSY is that of the
commands R490 names (DEDUCED, log 57). What the bus does with the tries is given, with the 1024 bytes that a read finds afterwards. A
read-back that differs gives NO_SPACE, and the record is taken from it. A write or read-back that fails on the bus gives NO_SPACE, and the record is read
again. -/
def headWrite (tries : List BusTry) (back : List Byte) (p : List Byte) (s : State) : Reply × State :=
  let port := uAt p 0 1; let k := uAt p 1 1; let b := (p.drop 8).take 256
  if h : port < 16 then
    let q : Fin 16 := ⟨port, h⟩
    if 2 < k then refuse .badArg 1 s
    else if !blockCvOk b then refuse .badArg 8 s
    else if !(nthOr s.heads port {}).present then refuse .badState 0 s
    else if !s.sys.pwrFailN then refuse .busy 0 s
    else
      let w := writePages q (0x100 * k) b tries s
      let x := if w.1 = 0 then readHead q [k] w.2.1 w.2.2 else w
      if x.1 ≠ 0 then ({ status := .noSpace }, readRecord q x.2.1 back false x.2.2)
      else if headBlock back k = b then okWith [] x.2.2
      else ({ status := .noSpace }, headReadDone port 0 back false x.2.2)
  else refuse .badArg 0 s

/-- HEAD_WRITE (R248). -/
def execHeadWrite (tries : List BusTry) (back : List Byte) (s : State) : Host.Outcome State Fault Refusal :=
  .next (runCommand 0x0802 (headWrite tries back) s)

/-! ## The bar-ownership pair -/

/-- OWN_READBACK (R254): the permit is removed until `fault.clear`, and the fault is raised. -/
def execOwnReadback (s : State) : Host.Outcome State Fault Refusal :=
  .next (if s.sys.mode = .keepalive ∨ s.sys.mode = .boot then s
    else raiseFault .ownReadback 0x61 0xFFFF { s with bar := { s.bar with readbackCut := true } })

/-- `ev.bar_contention` (Table 19.3). -/
def evContention (s : State) : State :=
  emit { code := 0x0805, source := 0x61, flags := bitAt (!s.sys.straps.unitId) 0
         payload := leBytes 1 (bitAt s.sys.straps.unitId 0) ++ [0] ++ leBytes 2 s.twin.epoch.toNat ++ zeros 12 } s

/-- BAR_CONTENTION (R255): both balls have been high for 200 ns. A paired secondary enters NONE (R450). Contention that comes again while the latch
stands repeats the class (R402). -/
def execBarContention (s : State) : Host.Outcome State Fault Refusal :=
  .next (if contending s && (!s.bar.contention || decide (s.bar.contAt < s.bar.peerSince)) then
      let s := raiseFault .barContention 0x61 0xFFFF (evContention { s with bar := { s.bar with contention := true, contAt := s.clock } })
      if pairOn s && s.sys.straps.unitId then { s with twin := { s.twin with lease := .none_, hand := none } } else s
    else s)

end Sys2Proof.Machine
end

