-- ==== Sys2Proof/Machine/Jobs.lean ====
section
/-! DEFINITION. Jobs, pacing commands and maintenance: `job.open` to `job.close` (R32, R46, R303, R410, R513, R514), `pace.config`, `pace.origin`
and `pace.read` (R289, R290, R298), the checks of R306, and MAINTAIN (R162, R287, R517). -/
namespace Sys2Proof.Machine

/-! ## Checks -/

/-- The checks of Table 1.9 for a line rate (R32): the detail of the first that fails. -/
def capacityError (s : State) (f : Nat) : Option Nat :=
  let k := (s.codec.decoders.toList.filter fun d => d.use = .inService).length
  let line := lineBytes s
  if Config.cells < cellSlices s ∨ 100000 < passes s * f then some 0x11
  else if k * 800000000 < line * f then some 0x12
  else if (portsOn s).any fun p => decide (800000000 < nozzlesOf s p * bitsPerDrop s / 8 * f) then some 0x13
  else if line ≠ 0 ∧ 6291456 / line < 64 then some 0x14
  else none

/-- PACE_RATE and COUNT_RATE (Table 10.5). -/
def paceRateError (s : State) (ps : ParamSet) (f : Nat) : Option Nat :=
  let v := pnat ps 11 0 0
  if (portsOn s).any fun p => decide (pnat ps 3 0 0 * 1000000000 < v * pnat ps 4 0 1 * tMinFor s p (some f)) then some 0x21
  else if 25000000 < v ∨ ((nthOr s.fbk (pnat ps 1 0 0) {}).mode = 6 ∧ 1000000 < v) then some 0x22
  else none

/-- A port has passed medium: the line after its first unissued one is due (R303). -/
def pacePassed (s : State) : Bool :=
  s.pace.armed && (portsOn s).any fun p => decide (paceThreshold s p ((nthOr s.pace.port p {}).next + 1) ≤ s.pace.hi)

/-- The pacing checks of `job.start` and `job.resume` (Table 10.5). -/
def paceStartError (s : State) (resume : Bool) : Option Nat :=
  let ps := s.job.params
  match paceRateError s ps s.job.fMax with
  | some d => some d
  | none =>
    if (nthOr s.fbk (pnat ps 1 0 0) {}).chFault then some 0x23
    else if !s.pace.armed && s.pace.queue.isEmpty && (pnat ps 7 0 0 == 1 || (s.pace.owed && pnat ps 7 0 0 == 0)) then some 0x24
    else if resume && pacePassed s then some 0x25
    else none

/-- The checks of `job.start` and `job.resume` in their order (Table 2.3, R32, R306, R331). -/
def startError (s : State) (resume : Bool) : Option (Status × Nat) :=
  match (capacityError s s.job.fMax).or (paceStartError s resume) with
  | some d => some (.overCapacity, d)
  | none =>
    match (List.range 8).find? fun a => jobAxis s a && !(nthOr s.axes a {}).referenced with
    | some a => some (.notReferenced, a)
    | none =>
      if pairOn s && s.twin.lease == .none_ then some (.badState, 0)
      else if s.job.inspect && s.audit.laneUp == 0 then some (.badState, 0)
      else none

/-! ## Pacing parameters -/

/-- The parameters of Table 10.2. -/
def paceSpecs : List PSpec :=
  [ ⟨1, 1, 0, 7, none⟩, ⟨2, 1, 0, 1, some 0⟩, ⟨3, 1, 1, 4294967295, none⟩, ⟨4, 1, 1, 65535, some 1⟩, ⟨5, 16, 0, 4294967294, some 0⟩,
    ⟨6, 1, 0, 15, some 2⟩, ⟨7, 1, 0, 2, some 0⟩, ⟨8, 1, -(2 ^ 47), 2 ^ 47 - 1, some 0⟩, ⟨9, 1, 0, 4294967295, some 0⟩, ⟨10, 1, 0, 1, some 0⟩,
    ⟨11, 1, 1, 25000000, none⟩, ⟨12, 1, 0, 4294967295, some 0⟩, ⟨13, 1, 0, 255, some 255⟩ ]

/-- The relations of Table 10.2 and R289; `axes` are those the pacing may gate. -/
def paceRelation (s : State) (axes : Nat) (m : ParamSet) : Option (List Nat) :=
  let mode := (nthOr s.fbk (pnat m 1 0 0) {}).mode
  let g := pnat m 13 0 255
  if pnat m 3 0 0 < pnat m 4 0 1 then some [3, 4]
  else if (List.range 16).any fun p => decide (pnat m 3 0 0 ≤ pnat m 5 p 0) then some [3, 5]
  else if mode = 0 then some [1]
  else if mode = 6 ∧ pnat m 7 0 0 = 2 then some [1, 7]
  else if g ≠ 255 ∧ (8 ≤ g ∨ !bitOf axes g) then some [13]
  else none

/-- Pacing items judged against a set: each by itself, then the parameters without a default, then the relations (R508, R511). -/
def judgePace (s : State) (specs : List PSpec) (axes : Nat) (ps : ParamSet) (its : List PItem) : Except Nat ParamSet :=
  match judgeList specs noRelation ps its with
  | .error d => .error d
  | .ok m =>
    match missingParam [1, 3, 11] m with
    | some d => .error d
    | none => match paceRelation s axes m with
      | some ids => .error (0x8000 + itemOf its ids)
      | none => .ok m

/-! ## `job.open` and `job.close` -/

/-- The state with a job opened: counters, commitment, history and expectations start afresh (R134, R174, R184, Table 19.10). -/
def openJob (j : Job) (s : State) : State :=
  { s with
    job := j
    pace := { port := s.pace.port }
    swath := { s.swath with
      no := 0, plans := [], ls := none, marksPending := false, marksInForce := false
      line := s.swath.line.map fun l => { l with
        readLine := 0, fJob := 0, hist := [], subst := 0, lost := 0, clipNozzle := 0, clipEnergy := 0, rowFired := Vector.replicate 8 none
        marks := Vector.replicate 8 none } }
    codec := { s.codec with
      nextNo := 0, nextLine := 0, anyNo := false, anyLine := false, needStart := true, lastAccepted := false, lastReleased := 0xFFFFFFFF }
    fbo := if j.inspect then updAt s.fbo j.trigOut fun o => { o with byAudit := true } else s.fbo
    audit := if j.inspect then { s.audit with framing := 0, crc := 0, format := 0, dup := 0, lost := 0, accepted := 0, windows := [], winDone := 0, origins := [] } else s.audit }

/-- `job.open` (R514). A bit of FLAGS that its row does not list is a value out of range (DESIGN CHOICE, log 25). -/
def jobOpen (p : List Byte) (s : State) : Reply × State :=
  let id := uAt p 0 4; let f := uAt p 4 4; let axes := uAt p 8 1; let fl := uAt p 9 1
  if id = 0 ∨ id = s.job.lastId then refuse .badArg 0 s
  else if f = 0 ∨ 100000 < f then refuse .badArg 4 s
  else if 1 < fl then refuse .badArg 9 s
  else if fl = 1 ∧ 1 < uAt p 10 1 then refuse .badArg 10 s
  else if listTarget p 16 ≠ 0 then refuse .badArg 16 s
  else match judgePace s paceSpecs axes [] (listItems p 16) with
    | .error d => refuse .badArg d s
    | .ok m =>
      if fl = 1 ∧ 65535 < pnat m 3 0 0 then refuse .badArg (0x8000 + itemOf (listItems p 16) [3]) s
      else if s.job.isOpen || (fl == 1 && (nthOr s.fbo (uAt p 10 1) {}).enabled) then refuse .badState 0 s
      else match (capacityError s f).or (paceRateError s m f) with
        | some d => refuse .overCapacity d s
        | none =>
          okWith (leBytes 4 id) (openJob
            { isOpen := true, id := id, lastId := id, fMax := f, axes := axes, inspect := fl == 1, trigOut := uAt p 10 1, camDist := uAt p 12 4, params := m } s)

/-- JOB_OPEN (R32). -/
def execJobOpen (s : State) : Host.Outcome State Fault Refusal := .next (runCommand 0x0301 jobOpen s)

/-- The job ends: its posted slices are released as discarded, pacing and the swath engine hold nothing of it, the usage blocks are written and
the counters reported (R246, R513, R533). What the head-memory buses do with the writes is given by port. The answer is the number of slices
discarded. -/
def closeJob (tries : List (List BusTry)) (s : State) : Nat × State :=
  let (s, _, n) := releasePosted (gateRelease s)
  let s : State := { s with
    job := { s.job with isOpen := false, started := false }
    pace := { port := s.pace.port }
    swath := { s.swath with plans := [], active := false, held := [], line := s.swath.line.map fun l => { l with ready := none } }
    codec := { s.codec with staging := [] } }
  let s := if s.job.inspect then triggerOff s.job.trigOut s else s
  let s := (List.finRange 16).foldl (fun s p => if portOn s p.val then writeUsage p (tries.getD p.val []) s else s) s
  (n, reportCounters s)

/-- `job.close` (R513). -/
def jobClose (tries : List (List BusTry)) (_ : List Byte) (s : State) : Reply × State :=
  if !s.job.isOpen then refuse .badState 0 s
  else let (n, s) := closeJob tries s; okWith (leBytes 4 n) s

/-- JOB_CLOSE (R513). -/
def execJobClose (tries : List (List BusTry)) (s : State) : Host.Outcome State Fault Refusal := .next (runCommand 0x0306 (jobClose tries) s)

/-! ## Start, hold, resume, abort -/

/-- `job.start` applied (R46, R293). -/
def jobStartWith (slot : Nat) (s : State) : Reply × State :=
  if !s.job.isOpen then refuse .badState 0 s
  else match startError s false with
    | some (st, d) => refuse st d s
    | none =>
      let pc : Pace := if s.job.started then { s.pace with source := .channel, held := false, params := [] }
        else { source := .channel, port := s.pace.port, queue := s.pace.queue, owed := s.pace.owed, dirRev := pon s.job.params 2 0 false }
      let s := { s with job := { s.job with started := true }, pace := pc }
      okWith [] (armNext (changeModeBy slot .print 0x0302 s))

/-- `job.start`. -/
def jobStart (_ : List Byte) (s : State) : Reply × State := jobStartWith 0xFF s

/-- JOB_START (R46). -/
def execJobStart (s : State) : Host.Outcome State Fault Refusal := .next (runCommand 0x0302 jobStart s)

/-- The axes of the job folded over. -/
def overJobAxes (f : Nat → State → State) (s : State) : State := (List.range 8).foldl (fun s a => if jobAxis s a then f a s else s) s

/-- The job has lines left to fire (Table 2.3). -/
def linesLeft (s : State) : Bool := !(s.swath.active && s.swath.last && swathDone s)

/-- `job.hold` applied (R303): no further token, and the JOB hold on the job's axes. -/
def jobHoldWith (slot : Nat) (s : State) : Reply × State :=
  if !linesLeft s then refuse .badState 0 s
  else
    let s := { s with pace := { s.pace with held := true, heldAt := s.clock } }
    okWith [] (overJobAxes (fun a s => holdAxis a .job s) (changeModeBy slot .hold 0x0303 s))

/-- `job.hold`. -/
def jobHold (_ : List Byte) (s : State) : Reply × State := jobHoldWith 0xFF s

/-- JOB_HOLD (R303). -/
def execJobHold (s : State) : Host.Outcome State Fault Refusal := .next (runCommand 0x0303 jobHold s)

/-- `job.resume` applied (R303, R349): lines that fell due in the hold count their lag from now. -/
def jobResumeWith (slot : Nat) (s : State) : Reply × State :=
  match startError s true with
  | some (st, d) => refuse st d s
  | none =>
    let s := { s with pace := { s.pace with
      held := false, port := s.pace.port.map fun q => { q with dueAt := q.dueAt.map fun t => if s.pace.heldAt ≤ t then s.clock else t } } }
    okWith [] (armNext (overJobAxes (fun a s => clearHold a .job s) (changeModeBy slot .print 0x0304 s)))

/-- `job.resume`. -/
def jobResume (_ : List Byte) (s : State) : Reply × State := jobResumeWith 0xFF s

/-- JOB_RESUME (R303). -/
def execJobResume (s : State) : Host.Outcome State Fault Refusal := .next (runCommand 0x0304 jobResume s)

/-- The ABORT hold in place of the JOB hold (Table 12.4); at rest it is HOST at once. -/
def abortHold (a : Nat) (s : State) : State :=
  let s := setAxis a (fun x => { x with holds := x.holds.map fun h => if h = .job then .abort else h }) s
  let s := holdAxis a .abort s
  let x := nthOr s.axes a {}
  if x.v = 0 ∧ x.a = 0 ∧ !x.stopping then holdToHost a .abort s else s

/-- `job.abort` (R410): the work in flight is discarded, motion stops, and the mode is IDLE; the job stays open (R413). -/
def jobAbort (_ : List Byte) (s : State) : Reply × State :=
  let s := startDiscard true 0x0305 s
  okWith [] (overJobAxes abortHold (changeMode .idle 0x0305 { s with pace := { s.pace with held := false } }))

/-- JOB_ABORT (R410). -/
def execJobAbort (s : State) : Host.Outcome State Fault Refusal := .next (runCommand 0x0305 jobAbort s)

/-! ## Pacing commands -/

/-- `pace.config` (R289). -/
def paceConfig (p : List Byte) (s : State) : Reply × State :=
  if !s.job.isOpen || s.job.started then refuse .badState 0 s
  else if listTarget p 0 ≠ 0 then refuse .badArg 0 s
  else match judgePace s paceSpecs s.job.axes s.job.params (listItems p 0) with
    | .error d => refuse .badArg d s
    | .ok m =>
      if s.job.inspect && decide (65535 < pnat m 3 0 0) then refuse .badArg (0x8000 + itemOf (listItems p 0) [3]) s
      else okWith [] { s with job := { s.job with params := m } }

/-- PACE_CONFIG (R289). -/
def execPaceConfig (s : State) : Host.Outcome State Fault Refusal := .next (runCommand 0x0A01 paceConfig s)

/-- `pace.origin` (R290, R304). -/
def paceOrigin (p : List Byte) (s : State) : Reply × State :=
  let o := iAt p 0 8; let d := uAt p 8 1
  if o < -(2 ^ 47) ∨ 2 ^ 47 ≤ o then refuse .badArg 0 s
  else if 1 < d then refuse .badArg 8 s
  else if !s.job.isOpen || (pnat s.job.params 7 0 0 != 1 && !(s.pace.owed && s.pace.queue.isEmpty && pnat s.job.params 7 0 0 == 0)) then
    refuse .badState 0 s
  else if 16 ≤ s.pace.queue.length then refuse .noSpace 0 s
  else
    let s := armNext { s with pace := { s.pace with queue := s.pace.queue ++ [(o, d == 1)] } }
    okWith (leBytes 1 s.pace.queue.length ++ zeros 3) s

/-- PACE_ORIGIN (R290). -/
def execPaceOrigin (s : State) : Host.Outcome State Fault Refusal := .next (runCommand 0x0A02 paceOrigin s)

/-- `pace.read` (R298). -/
def paceRead (_ : List Byte) (s : State) : Reply × State :=
  let j := s.job
  okWith (leBytes 8 j.late ++ leBytes 4 (min j.maxLag (2 ^ 32 - 1)) ++ zeros 4 ++ leBytes 8 j.skipped ++ leBytes 8 j.reversals) s

/-- PACE_READ (R298). -/
def execPaceRead (s : State) : Host.Outcome State Fault Refusal := .next (runCommand 0x0A03 paceRead s)

/-! ## Maintenance -/

/-- The job's swath and pacing are set aside while MAINTAIN or AUDIT runs (log 27). -/
def park (s : State) : State := { s with parked := some (s.swath, s.pace) }

/-- The swath engine with no swath, for a sequence of its own; without an open job the guard's history starts afresh (R184). -/
def sequenceSwath (s : State) : Swath :=
  { s.swath with
    active := false, held := [], ls := none
    line := s.swath.line.map fun l =>
      let l := { l with ready := none, prep := 0, shifted := none, dead := l.shifting.isSome }
      if s.job.isOpen then l else { l with fJob := 0, hist := [] } }

/-- `maint.start` (R287, R517). -/
def maintStart (p : List Byte) (s : State) : Reply × State :=
  let ports := uAt p 0 2; let src := uAt p 2 1; let pol := uAt p 3 1; let period := uAt p 4 4; let lines := uAt p 8 4; let level := uAt p 12 1
  let stride := uAt p 13 1
  if (List.range 16).any fun i => bitOf ports i && !portOn s i then refuse .badArg 0 s
  else if 1 < src then refuse .badArg 2 s
  else if 1 < pol then refuse .badArg 3 s
  else if src = 0 ∧ ((portsOn s).any fun i => decide (period < tMin s i)) then refuse .badArg 4 s
  else if lines = 0 then refuse .badArg 8 s
  else if level = 0 ∨ (if s.sys.legacy then 3 else 7) < level then refuse .badArg 12 s
  else if stride = 0 ∨ 64 < stride then refuse .badArg 13 s
  else if (s.sys.mode == .idle && s.job.isOpen) ||
      (s.sys.mode == .hold && (List.range 8).any fun a => jobAxis s a && !(nthOr s.axes a {}).standstill) then refuse .badState 0 s
  else
    let from_ := s.sys.mode
    let s := if from_ = .hold then park s else s
    let s := { s with
      sys := { s.sys with maintFrom := from_ }
      swath := sequenceSwath s
      pace := { source := if src = 0 then .timer else .sched, mPorts := ports, mSkip := pol == 1, mPeriod := period, mLines := lines, mLevel := level
                mStride := stride, port := s.pace.port.map fun q => { lastAt := q.lastAt } } }
    okWith [] (bgStart .maint (changeMode .maintain 0x0B01 s))

/-- MAINT_START (R517). -/
def execMaintStart (s : State) : Host.Outcome State Fault Refusal := .next (runCommand 0x0B01 maintStart s)

/-- `maint.stop` (R517): no further token; the sequence ends after the cycle in progress. -/
def maintStop (_ : List Byte) (s : State) : Reply × State := okWith [] { s with pace := { s.pace with mStop := true } }

/-- MAINT_STOP (R517). -/
def execMaintStop (s : State) : Host.Outcome State Fault Refusal := .next (runCommand 0x0B02 maintStop s)

/-- The sequence is complete: its lines are issued or skipped, or `maint.stop` was sent, and the last cycle has ended with its last sample
sent (R517). -/
def maintComplete (s : State) : Bool :=
  s.sys.mode = .maintain && (s.pace.mStop || s.pace.ended) &&
    s.wave.toList.all fun w => w.token.isNone && w.cycles.isEmpty && !cycleSending w s.clock

/-- MAINT_SEQUENCE_COMPLETE (R517): the mode returns to the one MAINTAIN came from. -/
def execMaintSequenceComplete (s : State) : Host.Outcome State Fault Refusal :=
  .next (if maintComplete s then
      let cause := if s.pace.mStop then 0x0B02 else causeComplete
      let s := if s.swath.active && s.swath.kind == .maint then endSwath s else s
      let s := match s.parked with
        | some _ => unpark s
        | none => { s with pace := { s.pace with source := .none_, mStop := false, ended := false } }
      bgEnd .maint (changeMode s.sys.maintFrom cause s)
    else s)

end Sys2Proof.Machine
end

