-- ==== Sys2Proof/Machine/Clock.lean ====
section
/-! DEFINITION. The timebase: its rate (R454), the disciplines (R457, R465, R477), steps and the slots they re-judge (R457, R471), and the
occurrences of the scheduler (R466 to R469). -/
namespace Sys2Proof.Machine

/-! ## Parameters (Table 16.1) -/

def timeSourcePtp (s : State) : Bool := pon s.time.params 1 0 false
def slewMax (s : State) : Nat := pnat s.time.params 2 0 100
def stepT (s : State) : Nat := pnat s.time.params 3 0 100000
def lockT (s : State) : Nat := pnat s.time.params 4 0 100

/-- SOURCE of the timebase and scheduler (Table 14.1). -/
def timeSourceBlock : Nat := 0x63

/-! ## Rate -/

/-- INC for a rate in units of 10⁻¹² (R454), to the nearest. -/
def incOf (r : Int) : Nat := ((2 * 0x140000000 * (1000000000000 + r) + 1000000000000) / 2000000000000).toNat

/-- A rate kept within ±1000 ppm (R454, R457). -/
def clampRate (r : Int) : Int := max (-1000000000) (min 1000000000 r)

/-- r with the slew's rate added while a slew has an offset left to remove (R457). -/
def rateNow (s : State) : Int :=
  let m : Int := slewMax s * 1000000
  if s.time.slewing ∧ s.time.slew ≠ 0 then clampRate (s.time.r + (if 0 < s.time.slew then m else -m)) else s.time.r

/-- An offset to be removed by slewing replaces what is left of the last (R458); it is given in units of 2⁻¹⁶ ns. -/
def startSlew (off : Int) (s : State) : State := { s with time := { s.time with slew := off * 65536, slewing := true } }

/-- The next value of TB with its fraction, and what is left of the slew, after one CORE clock (R454, R457). -/
def advanceTb (s : State) : State :=
  let inc := incOf (rateNow s)
  let whole := s.time.tb.toNat * 2 ^ 32 + s.time.frac.toNat + inc
  let got : Int := (inc : Int) - incOf s.time.r
  let left := if s.time.slewing then (if 0 < s.time.slew then max 0 (s.time.slew - got) else min 0 (s.time.slew - got)) else s.time.slew
  { s with time := { s.time with tb := BitVec.ofNat 64 (whole / 2 ^ 32), frac := BitVec.ofNat 32 whole, slew := left } }

/-- TIME_SLEW_END (R457): the offset has been removed, and r alone stands again. -/
def execTimeSlewEnd (s : State) : Host.Outcome State Fault Refusal :=
  .next (if s.time.slewing ∧ s.time.slew = 0 then { s with time := { s.time with slewing := false } } else s)

/-! ## Disciplines (Table 16.2) -/

/-- The four disciplines. -/
inductive Discipline where
  | free | ptp | holdover | twin
deriving DecidableEq, Repr

/-- The discipline in force. -/
def discipline (s : State) : Discipline :=
  if pairOn s && s.twin.lease == .none_ && s.twin.linkAt.isSome then .twin
  else if !timeSourcePtp s then .free
  else if s.time.ptp.master.isSome then .ptp else .holdover

/-- ETH_STATUS.PTP_LOCKED (R464, R476). -/
def ptpLocked (s : State) : Bool :=
  if discipline s = .twin then s.time.exchange && s.time.activeLocked && decide (s.time.twinTheta.natAbs ≤ 100)
  else s.time.ptp.state == .locked

/-- The PTP slave changed. -/
def setPtp (f : Ptp → Ptp) (s : State) : State := { s with time := { s.time with ptp := f s.time.ptp } }

/-- `ev.ptp_state` (Table 19.7): 1 ACQUIRING, 2 LOCKED, 3 HOLDOVER, with the master's clockIdentity and the last θ in ns. -/
def evPtpState (status port : Nat) (s : State) : State :=
  emit { code := 0x1302, source := timeSourceBlock, status := status, payload := leBytes 8 (port / 65536) ++ leBytes 8 (ofSigned 64 (s.time.ptp.theta / 65536)) } s

/-- HOLDOVER is entered (R465): no master is selected; unless TWIN steers, r keeps the integral term and a slew stops. -/
def enterHoldover (s : State) : State :=
  match s.time.ptp.master with
  | none => s
  | some m =>
    let steers := discipline s = .ptp
    let s := evPtpState 3 m (setPtp (fun q => { q with state := .none_, master := none, awaiting := none, syncs := 0, good := 0, bad := 0 }) s)
    if steers then { s with time := { s.time with r := clampRate s.time.ptp.integral, slew := 0, slewing := false } } else s

/-- A unit becomes the active (R477): PTP goes on where it is LOCKED, its offset slewed; else HOLDOVER or FREE. r stays in every case, and what PTP
finds of the difference afterwards is slewed too (DEDUCED, log 33). -/
def clockAsActive (s : State) : State :=
  let s : State := { s with time := { s.time with exchange := false, pingOut := false, slewOnly := true } }
  if !timeSourcePtp s then s
  else if s.time.ptp.state = .locked then startSlew (-s.time.ptp.theta) s
  else
    let r := s.time.r; let slew := s.time.slew; let on := s.time.slewing
    let t := enterHoldover s
    { t with time := { t.time with r := r, slew := slew, slewing := on } }

/-- `ev.twin_time` (Table 19.7): 1 STEP, 2 EXCHANGE_LOST, 3 EXCHANGE_RESTORED. -/
def evTwinTime (status sq : Nat) (s : State) : State :=
  emit { code := 0x1304, source := timeSourceBlock, status := status, payload := leBytes 8 (ofSigned 64 s.time.twinTheta) ++ leBytes 4 sq ++ zeros 4 } s

/-- The exchange with the active is lost, if there was one (R476, log 33). -/
def exchangeLost (s : State) : State :=
  let t : State := { s with time := { s.time with exchange := false, pingOut := false } }
  if s.time.exchange then evTwinTime 2 s.time.pingSeq t else t

/-! ## Occurrences -/

/-- One slot changed. -/
def setSlot (i : Nat) (f : Slot → Slot) (s : State) : State := { s with time := { s.time with slots := updAt s.time.slots i f } }

/-- The comparison of an armed slot: the signed 40-bit difference of TB and T has reached 0 (R467). -/
def slotReached (s : State) (x : Slot) : Bool :=
  x.armed && !isStopped s 0x63 && decide (0 ≤ toSigned 40 (ofSigned 40 ((s.time.tb.toNat : Int) - x.t)))

/-- The comparisons of a clock: every slot whose difference has reached 0 falls due in it (R467). -/
def markDue (s : State) : State :=
  { s with time := { s.time with slots := s.time.slots.map fun x => if x.due.isNone && slotReached s x then { x with due := some s.clock } else x } }

/-- A slot's occurrence has fallen due and may run. One that a discard cancels runs in a later clock, since a discard of the clock in which it falls due
cancels it (R469). -/
def slotDue (s : State) (x : Slot) : Bool :=
  x.armed && !isStopped s 0x63 && match x.due with | some t => !firesOrJob x.kind || decide (t < s.clock) | none => false

/-- The signed difference of two 64-bit times. -/
def tbDiff (a b : Nat) : Int := toSigned 64 (ofSigned 64 ((a : Int) - b))

/-- The 3.3 V outputs are driven: RESET_N is high and the PLLs have locked (R459). -/
def outputsDriven (s : State) : Bool := s.sys.resetN && s.sys.mode != .keepalive && s.sys.phase != .inReset && s.sys.phase != .locking

/-- An OUTPUT action on TM_OUTn: 0 SET, 1 CLEAR, 2 TOGGLE, 3 PULSE of WIDTH ns; each replaces a pulse in progress (log 33). A ball that is not driven
takes none (R459). -/
def applyOutput (n op width : Nat) (s : State) : State :=
  if !outputsDriven s then s else
  let now := nthOr s.time.outs n false
  let level := match op with | 1 => false | 2 => !now | _ => true
  { s with time := { s.time with
    outs := updAt s.time.outs n fun _ => level
    pulseEnd := updAt s.time.pulseEnd n fun _ => if op = 3 then some (s.clock + ceilDiv (4 * width) 5) else none } }

/-- A job action judged by the rules of its command and applied (R466, R507). -/
def jobAction (kind slot : Nat) (s : State) : Status × State :=
  let act (op : Nat) (f : Nat → State → Reply × State) : Status × State :=
    match turnedAway op s with
    | some st => (st, s)
    | none => let (r, t) := f slot s; (r.status, t)
  match kind with
  | 4 => act 0x0302 jobStartWith
  | 5 => act 0x0303 jobHoldWith
  | _ => act 0x0304 jobResumeWith

/-- The slot goes on with its next occurrence, or is free after its last (R468). -/
def nextOccurrence (i : Nat) (s : State) : State :=
  setSlot i (fun x =>
    let x := { x with due := none }
    if x.period = 0 then { x with armed := false }
    else match x.left with
      | none => { x with t := (x.t + x.period) % 2 ^ 64 }
      | some n => if n ≤ 1 then { x with armed := false, left := some 0 } else { x with t := (x.t + x.period) % 2 ^ 64, left := some (n - 1) }) s

/-- An occurrence of slot i runs, on time or late by so many ns, and is reported: OK of an OUTPUT or LINE only with NOTIFY (R466, R468). -/
def runOccurrence (i : Nat) (late : Option Nat) (s : State) : State :=
  let x := nthOr s.time.slots i {}
  let lateness := late.getD 0
  let okCode := if late.isSome then Status.late.code else Status.ok.code
  let ran (s : State) : State := setSlot i (fun x => { x with run := satAdd 32 x.run 1 }) s
  let report (s : State) : State := if late.isSome || x.notify then evSched i x okCode 0 lateness s else s
  let s := match x.kind with
    | 1 => evSched i x okCode 0 lateness (ran s)
    | 2 => report (ran (applyOutput x.out x.op x.width s))
    | 3 =>
      if s.sys.mode = .maintain ∧ s.pace.source = .sched then report (ran (maintLineDue s))
      else evSched i x Status.dropped.code 0 lateness (setSlot i (fun x => { x with dropped := satAdd 32 x.dropped 1 }) s)
    | k =>
      let (st, s) := jobAction k i s
      evSched i x (if st = .ok then okCode else st.code) 0 lateness (ran s)
  nextOccurrence i s

/-! ## Steps -/

/-- The occurrences of slot i that a step has passed: each runs LATE within LATE_WIN, else it is skipped, counted and EXPIRED (R471). The first
argument bounds them. -/
def passOccurrences : Nat → Nat → State → State
  | 0, _, s => s
  | n + 1, i, s =>
    let x := nthOr s.time.slots i {}
    let d := tbDiff s.time.tb.toNat x.t
    if !x.armed || decide (d ≤ 0) then s
    else
      let s :=
        if d ≤ x.lateWin then runOccurrence i (some d.toNat) s
        else nextOccurrence i (evSched i x Status.expired.code 0 d.toNat (setSlot i (fun x => { x with expired := satAdd 32 x.expired 1 }) s))
      passOccurrences n i s

/-- The number of occurrences of a slot that lie before now. -/
def passedCount (x : Slot) (s : State) : Nat := if x.period = 0 then 1 else (tbDiff s.time.tb.toNat x.t).toNat / x.period + 1

/-- A slot whose next occurrence lies 2³⁹ ns or more ahead is freed (R471). -/
def freeBeyond (i : Nat) (s : State) : State :=
  let x := nthOr s.time.slots i {}
  if x.armed && decide (2 ^ 39 ≤ tbDiff x.t s.time.tb.toNat) then
    evSched i x Status.expired.code 1 0 (setSlot i (fun x => { x with armed := false, expired := satAdd 32 x.expired 1 }) s)
  else s

/-- A slot whose T lies ahead again after a step waits for it (R471). -/
def waitAgain (s : State) : State :=
  { s with time := { s.time with slots := s.time.slots.map fun x => if slotReached s x then x else { x with due := none } } }

/-- Every armed slot is judged anew at a step (R471). -/
def rejudgeSlots (s : State) : State :=
  (List.range 64).foldl (fun s i => freeBeyond i (passOccurrences (passedCount (nthOr s.time.slots i {}) s) i s)) (waitAgain s)

/-- A step of TB (R457): cause 1 calendar, 2 `time.set`, 3 `time.adjust`, 4 PTP, 5 TWIN. -/
def stepTb (cause new : Nat) (s : State) : State :=
  let old := s.time.tb.toNat
  let s := { s with time := { s.time with tb := BitVec.ofNat 64 new } }
  rejudgeSlots (emit { code := 0x1301, source := timeSourceBlock, status := cause, keep := true, payload := leBytes 8 old ++ leBytes 8 new } s)

/-- A step may be made in this mode by PTP or by host software (R457). -/
def stepAllowed (s : State) : Bool :=
  match s.sys.mode with
  | .maintain | .print | .audit | .hold | .follow => false
  | _ => true

end Sys2Proof.Machine
end

