-- ==== Sys2Proof/Machine/Mailbox.lean ====
section
/-! DEFINITION. Mailboxes: RING and ACK (R70, R73), acceptance and sequence numbers (R72, R74), the order of refusals (R507),
MBX_STALL and CORE_WDOG. -/
namespace Sys2Proof.Machine

/-- Verup has entered CONFIGURE, so that the mailboxes are served. -/
def verupRuns (s : State) : Bool := s.sys.phase == .running && s.sys.mode != .keepalive

/-- The port MBn is bound to (MBX_PORT). -/
def boundPort (s : State) (n : Fin 8) : Port := if s.mbx.port.getLsbD n then .spi else .host

/-- One mailbox changed. -/
def setBox (n : Fin 8) (f : Mailbox → Mailbox) (s : State) : State :=
  { s with mbx := { s.mbx with box := s.mbx.box.set n (f s.mbx.box[n]) } }

/-- A mailbox joins the waiting ones in doorbell order, before those of higher number that rang in the same CTRL clock (R74). -/
def joinOrder (s : State) (n : Fin 8) : List (Fin 8) → List (Fin 8)
  | [] => [n]
  | m :: rest => if s.mbx.box[m].rungAt = s.mbx.box[n].rungAt ∧ n < m then n :: m :: rest else m :: joinOrder s n rest

/-- RING on MBn from a port: PENDING from IDLE; FOREIGN from the unbound port; DB_REJECT outside IDLE, and on MB4 to MB7 in
format 1 (R70, R73, R84). -/
def ringMailbox (port : Port) (n : Fin 8) (s : State) : State :=
  if !verupRuns s then s
  else if boundPort s n ≠ port then setBox n (fun m => { m with foreign := true }) s
  else if s.mbx.box[n].state ≠ .idle || (s.mbx.fmt1 && decide (4 ≤ n.val)) then
    setBox n (fun m => { m with dbReject := true }) s
  else
    let s := setBox n (fun m => { m with state := .pending, rungAt := s.clock / 2 }) s
    { s with mbx := { s.mbx with order := joinOrder s n s.mbx.order } }

/-- ACK on MBn from a port: IDLE from DONE; ignored in any other state, and from the unbound port (R70, R73). -/
def ackMailbox (port : Port) (n : Fin 8) (s : State) : State :=
  if verupRuns s && boundPort s n == port && s.mbx.box[n].state == .done then
    setBox n (fun m => { m with state := .idle }) s
  else s

/-- RING and ACK of one write to MBX_CTLn: ACK takes effect first (R70). -/
def controlMailbox (port : Port) (n : Fin 8) (ring ack : Bool) (s : State) : State :=
  let s := if ack then ackMailbox port n s else s
  if ring then ringMailbox port n s else s

/-- The header fields of the command in the area of MBn (Table 3.6, R84). -/
structure Header where
  opcode : Nat
  flags : Nat
  seq : Nat
  len : Nat
  reserved : Nat
deriving DecidableEq, Repr

/-- The header of the command in the area of MBn, in the format in force. -/
def headerOf (n : Fin 8) (s : State) : Header :=
  let a := cmdArea n
  let m := s.mbx.area
  if s.mbx.fmt1 then
    { opcode := Mem.readLe m a 2, flags := 0, seq := Mem.readLe m (a + 2) 2, len := Mem.readLe m (a + 4) 2,
      reserved := Mem.readLe m (a + 6) 2 }
  else
    { opcode := Mem.readLe m a 2, flags := Mem.readLe m (a + 2) 2, seq := Mem.readLe m (a + 4) 4,
      len := Mem.readLe m (a + 8) 4, reserved := Mem.readLe m (a + 12) 4 }

/-- The longest payload of the format in force (R68, R84), and the offset at which it starts. -/
def maxPayload (s : State) : Nat := if s.mbx.fmt1 then 1016 else 1008
def payloadOffset (s : State) : Nat := if s.mbx.fmt1 then 8 else 16

/-- The payload of the command in the area of MBn, as long as its header says, at most what the format allows. -/
def payloadOf (n : Fin 8) (h : Header) (s : State) : List Byte :=
  Mem.readN s.mbx.area (cmdArea n + payloadOffset s) (min h.len (maxPayload s))

/-- The sequence R72 expects next: one more, modulo 2³² or 2¹⁶. -/
def expectedSeq (n : Fin 8) (s : State) : Word :=
  if s.mbx.fmt1 then ((s.mbx.box[n].seq + 1).setWidth 16).setWidth 32 else s.mbx.box[n].seq + 1

/-- NOT_PRESENT of R507 step 4: the command addresses a unit the part or the legacy behaviour lacks (R4, Table 2.7). -/
def notPresent (op : Nat) (p : List Byte) (s : State) : Bool :=
  let noAudit := !Config.hasAudit || s.sys.legacy
  let portBad (off : Nat) : Bool := decide (Config.ports ≤ uAt p off 1) && decide (uAt p off 1 < 16)
  ((op == 0x0C01 || op == 0x0C02 || op == 0x0C03) && noAudit) ||
    (op == 0x0301 && uAt p 9 1 % 2 == 1 && noAudit) ||
    ((op == 0x0202 || op == 0x0601 || op == 0x0701 || op == 0x0702 || op == 0x0703 || op == 0x0704 || op == 0x0801 ||
      op == 0x0802 || op == 0x1603) && portBad 0) ||
    (op == 0x1101 && (uAt p 0 1 == 0x25 && noAudit ||
      decide (0x30 + Config.ports ≤ uAt p 0 1) && decide (uAt p 0 1 ≤ 0x3F)))

/-- The header error of R507 step 3: reserved flags, an over-long payload, the reserved field, by rising offset (R508). -/
def headerError (h : Header) (s : State) : Option Nat :=
  if s.mbx.fmt1 then
    if maxPayload s < h.len then some 0x4004 else if h.reserved ≠ 0 then some 0x4006 else none
  else if h.flags / 4 ≠ 0 then some 0x4002
  else if maxPayload s < h.len then some 0x4008
  else if h.reserved ≠ 0 then some 0x400C
  else none

/-- The first failure of R507 steps 2 to 6, with its detail; -/
def judgeCommand (h : Header) (p : List Byte) (s : State) : Option (Status × Nat) :=
  match opRow h.opcode with
  | none => some (.badOpcode, 0)
  | some row =>
    match headerError h s with
    | some d => some (.badArg, d)
    | none =>
      match layoutError row s.mbx.fmt1 p with
      | some d => some (.badArg, d)
      | none =>
        if notPresent h.opcode p s then some (.notPresent, 0)
        else (turnedAway h.opcode s).map fun st => (st, 0)

/-- A response that executes nothing: BAD_SEQ (R72). MBX_SEQn and the stored response stay. -/
def answerBadSeq (n : Fin 8) (h : Header) (s : State) : State :=
  let c : Command := { mb := n, opcode := h.opcode, seq := BitVec.ofNat 32 h.seq, payload := [] }
  let r : Reply := { status := .badSeq, detail := (expectedSeq n s).toNat % 65536 }
  markDone n (h.flags % 2 == 1) (putResponse n (responseBytes c r s) s)

/-- A BARRIER may be taken: no command accepted before is without its response, and no background operation that one started is under way. Commands
accepted while it waits come before it too, since it takes its place in the order only when its wait ends (R69, R74; DEDUCED, log 25). -/
def barrierFree (s : State) : Bool := s.mbx.bg.isEmpty && s.mbx.stuck.isEmpty

/-- Verup takes the command of MBn (R72, R507): replay, BAD_SEQ, refusal, or EXEC with the command row to follow. -/
def acceptBox (n : Fin 8) (s : State) : State :=
  let h := headerOf n s
  let m := s.mbx.box[n]
  let sq : Word := BitVec.ofNat 32 h.seq
  let noIrq := h.flags % 2 == 1
  if sq = expectedSeq n s then
    let p := payloadOf n h s
    let c : Command := { mb := n, opcode := h.opcode, noIrq := noIrq, seq := sq, payload := p }
    let s := setBox n (fun m => { m with state := .exec, execAt := s.clock, stalled := false }) s
    let s := { s with mbx := { s.mbx with order := s.mbx.order.filter (· ≠ n) } }
    match judgeCommand h p s with
    | some (st, d) => answerWaiting c { status := st, detail := d } s
    | none => { s with mbx := { s.mbx with current := some c } }
  else if sq = m.seq && m.executed then markDone n noIrq (putResponse n m.stored s)
  else answerBadSeq n h s

/-- The command in MBn is a BARRIER that must still wait (R69). -/
def barrierWaits (n : Fin 8) (s : State) : Bool := !s.mbx.fmt1 && bitOf (headerOf n s).flags 1 && !barrierFree s

/-- The first pending mailbox, in doorbell order, that is not a BARRIER still waiting (R69, R74). A BARRIER whose wait has ended keeps its
doorbell's place (DEDUCED, log 25). -/
def pickPending (order : List (Fin 8)) (s : State) : Option (Fin 8) := order.find? fun n => !barrierWaits n s

/-- A job action fell due no later than a mailbox rang, and goes first (R469). -/
def jobActionFirst (n : Fin 8) (s : State) : Bool :=
  s.time.slots.toList.any fun x => decide (4 ≤ x.kind) && x.armed && !isStopped s 0x63 && decide (x.due.getD (2 * s.mbx.box[n].rungAt + 1) ≤ 2 * s.mbx.box[n].rungAt)

/-- MAILBOX_ACCEPT (R72, R74, R469): with no other command executing, Verup takes the oldest pending command. A commit that waits for
its mode transition leaves Verup free to refuse others with BUSY (R41, R51). `err` is a word of the control SRAM that Verup finds in error:
CTL_ECC where it cannot be corrected (R380, Table 13.7). -/
def execMailboxAccept (err : Option WordErr) (s : State) : Host.Outcome State Fault Refusal :=
  if verupRuns s && s.mbx.current.isNone then
    let (bad, s) := match err with
      | some e => ownerFinds 0x74 5 ((416 + e.bank.val) * 8192 + e.word.val) e.synd s
      | none => (false, s)
    if bad then .next (raiseFault .ctlEcc 0x74 0xFFFF s)
    else match pickPending s.mbx.order s with
      | some n => .next (if jobActionFirst n s then s else acceptBox n s)
      | none => .next s
  else .next s

/-- MBX_RING (R70): a RING write to MBX_CTLn. -/
def execMbxRing (port : Port) (n : Fin 8) (s : State) : Host.Outcome State Fault Refusal := .next (ringMailbox port n s)

/-- MBX_ACK (R70): an ACK write to MBX_CTLn. -/
def execMbxAck (port : Port) (n : Fin 8) (s : State) : Host.Outcome State Fault Refusal := .next (ackMailbox port n s)

/-- MBn has been in EXEC for longer than MBX_WDOG.LIMIT, and this stay has not been reported (R76). -/
def overdue (s : State) (n : Fin 8) : Bool :=
  s.mbx.box[n].state == .exec && !s.mbx.box[n].stalled && decide (s.mbx.box[n].execAt + s.mbx.wdog.toNat * 800000 < s.clock)

/-- A command that has passed its limit holds its own mailbox only, and Verup goes on to the others (Table 14.5). -/
def setAside (n : Fin 8) (s : State) : State :=
  match s.mbx.current with
  | some c => if c.mb = n then { s with mbx := { s.mbx with current := none, stuck := s.mbx.stuck ++ [c] } } else s
  | none => s

/-- MBX_STALL (R76): the mailbox in EXEC, executing or waiting for a mode transition, has passed MBX_WDOG.LIMIT; TIMEOUT and the interrupt
bit are set, the Control region takes MBX_STALL, and the other mailboxes are served. -/
def execMbxStall (s : State) : Host.Outcome State Fault Refusal :=
  match (List.finRange 8).find? (overdue s) with
  | none => .next s
  | some n => .next (raiseFault .mbxStall 0x71 0xFFFF (raiseIrq irqMbxWdog
      (setAside n (setBox n (fun m => { m with timeout := true, timeoutAt := some (ctrlClock s), stalled := true }) s))))

/-- CORE_WDOG (R54): a control-core watchdog expires while Verup runs. -/
def execCoreWdog (s : State) : Host.Outcome State Fault Refusal :=
  if s.sys.phase = .running ∨ s.sys.phase = .starting then
    .next (raiseFault .coreWdog 0x70 0xFFFF (raiseIrq irqCoreWdog s))
  else .next s

/-- The oldest unread entry of the ring has waited AGE × 10 µs, AGE not being zero (R80). -/
def agedOut (s : State) : Bool :=
  s.evr.age != 0 && s.evr.unread != 0 &&
    match s.evr.ring[s.evr.unread - 1]? with
    | some e => decide (e.at_ + s.evr.age * 8000 ≤ s.clock)
    | none => false

/-- EVR_AGE_THRESHOLD (R80): the oldest unread entry has waited its limit. -/
def execEvrAgeThreshold (s : State) : Host.Outcome State Fault Refusal :=
  .next (if agedOut s then raiseIrq irqEvrThresh s else s)

/-- RING_OVERFLOW_WRITEOUT (R530). -/
def execRingOverflowWriteout (s : State) : Host.Outcome State Fault Refusal :=
  .next (if s.sys.phase = .running then writeOut s else s)

/-- SUPPRESSED_EVENT_REPORT (R531): once the period since the last written entry of an instance has passed with occurrences
suppressed, one entry reports the latest, with SUPPRESSED, and starts a new period unless the ring drops it. -/
def execSuppressedEventReport (code instNo : Nat) (s : State) : Host.Outcome State Fault Refusal :=
  let isMe (r : LimitRec) : Bool := r.code == code && r.inst == instNo
  match s.evr.limits.find? isMe with
  | none => .next s
  | some r =>
    match r.suppressed with
    | none => .next s
    | some q =>
      if s.clock < r.written + limitPeriod code then .next s
      else .next (emitAt { q with flags := q.flags + 0x20 } { s with
        fbk := if code = 0x0902 ∧ takesEvent q s then updAt s.fbk instNo fun f => { f with illAtEvent := uAt q.payload 8 4 } else s.fbk
        evr := { s.evr with limits :=
          ⟨code, instNo, if takesEvent q s then s.clock else r.written, none⟩ :: s.evr.limits.filter fun x => !isMe x } })

end Sys2Proof.Machine
end

