-- ==== Sys2Proof/Machine/Window.lean ====
section
/-! DEFINITION. The register window: every register's value and what a write to it does (3.8), the mailbox areas and the event
ring as bytes (R63, R64), the management SPI port (3.3), and the live registers of BOOT (R67). -/
namespace Sys2Proof.Machine

/-! ## Block status registers (Table 3.14) -/

/-- A lane is trained and in use. -/
def Lane.isUp (l : Lane) : Bool := l.use = .active

/-- LANE_UP of a link as a number, bit i for physical lane i. -/
def laneUp (k : Link) : Nat := ((List.range 9).map fun i => bitAt (nthOr (k.lanes.map Lane.isUp) i false) i).sum

/-- HLNK_STATUS. -/
def hlnkStatus (s : State) : Nat := laneUp s.host + s.host.spareFor * 2 ^ 9 + bitAt s.host.linkUp 16

/-- The FLT_ registers by index: the chip, then regions 1 to 5 (Table 3.13). -/
def fltReg (s : State) (i : Nat) : Nat :=
  (recOf s (if i = 0 then chipInst else { level := .region, source := i })).word

/-- Bits lo + i for every i below n that a test picks. -/
def maskOf (n lo : Nat) (f : Nat → Bool) : Nat := ((List.range n).map fun i => bitAt (f i) (lo + i)).sum

/-- TWIN_STATUS. LEASE_VALID is the unit's view of the lease: its own until E, or the one it has of the peer's (R429). CONTENTION reads 1 while the
condition of R255 lasts. -/
def twinStatus (s : State) : Nat :=
  let w := s.twin
  let valid := match w.lease with | .holder => decide (s.clock < w.e) | .solo => true | .none_ => w.vValid
  bitAt w.paired 0 + bitAt (w.paired && w.lease != .none_) 1 + bitAt (w.paired && valid) 2 + bitAt w.linkAt.isSome 3 + bitAt w.wireAt.isSome 4 +
    bitAt (barOwn s) 5 + bitAt s.bar.peer 6 + bitAt (contending s) 7

/-- DRC_INITn. -/
def drcInit (s : State) (i : Nat) : Nat := nthOr s.mem.init i 0 + bitAt s.mem.sweepBusy 31

/-- SRM_STATUS: BANKS_REPAIRED counts the banks that use a spare row or column. -/
def srmStatus (s : State) : Nat :=
  bitAt s.sys.sweepDone 0 + bitAt s.sys.repairLoaded 1 + ((s.mem.repairs.map (·.bank)).eraseDups).length * 2 ^ 16

/-- COD_STATUS. -/
def codStatus (s : State) : Nat :=
  let on (i : Nat) : Bool := decide ((nthOr s.codec.decoders i {}).use = .inService)
  let busy (u : Nat) : Bool := s.codec.requests.any fun r => r.unit == u
  maskOf 9 0 on + min 8 ((List.range 9).filter on).length * 2 ^ 9 + bitAt (busy 0x10) 16 + bitAt (busy 0x11) 17

/-- A table swap waits for a boundary (R188). -/
def tablePending (s : State) : Bool := s.swath.subst.pending.isSome || (List.range 16).any fun p => (nthOr s.swath.grey p {}).pending.isSome

/-- SWE_STATUS: STAGED_MIN over the configured heads (R169), 0 with none. -/
def sweStatus (s : State) : Nat :=
  let counts := (portsOn s).map (stagedCount s)
  min 1024 (counts.foldl min (if counts.isEmpty then 0 else 1024)) + bitAt s.swath.active 16 + bitAt (tablePending s) 17

/-- WAV_BANK. -/
def wavBank (s : State) : Nat :=
  maskOf 16 0 (fun p => (nthOr s.wave p {}).active == 1) + maskOf 16 16 (fun p => (nthOr s.wave p {}).pending.isSome)

/-- HPT_PRESENT. -/
def hptPresent (s : State) : Nat := maskOf 16 0 (fun p => (nthOr s.heads p {}).present) + maskOf 16 16 (fun p => (nthOr s.heads p {}).fault)

/-- FBK_STATUS: a channel is configured when its MODE is not OFF. -/
def fbkStatus (s : State) : Nat :=
  maskOf 8 0 (fun c => (nthOr s.fbk c {}).chFault) + maskOf 8 8 (fun c => pnat (nthOr s.fbk c {}).params 1 0 0 != 0)

/-- AUD_STATUS: the correlator is active while a pass is measured or inspection runs. -/
def audStatus (s : State) : Nat :=
  let pass := s.sys.mode == .audit && s.audit.pass.any fun a => a.result.isNone
  s.audit.laneUp % 4 + bitAt (pass || inspecting s) 4

/-- MOT_STATUS. -/
def motStatus (s : State) : Nat :=
  let x (a : Nat) : Axis := nthOr s.axes a {}
  maskOf 8 0 (fun a => (x a).standstill) + maskOf 8 8 (fun a => (x a).referenced) + maskOf 8 16 (fun a => (x a).axisFault)

/-- ETH_STATUS. -/
def ethStatus (s : State) : Nat := bitAt s.eth.link 0 + s.eth.speed % 4 * 2 + bitAt (ptpLocked s) 4

/-- LIF_STATUS: DIRTY while an accumulator is not zero (R484). -/
def lifStatus (s : State) : Nat := bitAt s.life.headerOk 0 + bitAt (!s.life.acc.isEmpty) 1 + bitAt s.life.flush.isSome 2

/-- CVU_STATUS: a unit is busy from START until STOP (R395). -/
def cvuStatus (s : State) : Nat := maskOf 8 0 fun u => (nthOr s.mem.cvu u {}).running

/-- Block status by offset from 0x200 in words. -/
def blockReg (s : State) (i : Nat) : Nat :=
  match i with
  | 0 => hlnkStatus s
  | 1 => twinStatus s
  | 2 => drcInit s 0
  | 3 => drcInit s 1
  | 4 => srmStatus s
  | 5 => codStatus s
  | 6 => sweStatus s
  | 7 => wavBank s
  | 8 => hptPresent s
  | 9 => fbkStatus s
  | 10 => s.job.pacLine.toNat
  | 11 => audStatus s
  | 12 => motStatus s
  | 13 => ethStatus s
  | 14 => lifStatus s
  | 15 => cvuStatus s
  | _ => 0

/-! ## Reading -/

/-- SYS_MODE. -/
def sysMode (s : State) : Nat :=
  s.sys.mode.code + bitAt (s.sys.profile = .markhor) 4 + bitAt s.sys.legacy 5 + bitAt (moving s) 8

/-- SYS_STRAPS. -/
def sysStraps (s : State) : Nat :=
  bitAt s.sys.straps.lgcySel 0 + bitAt s.sys.straps.unitId 1 + bitAt s.sys.straps.bootHold 2 + bitAt s.sys.straps.bootSlot1 3

/-- SYS_BOOT_STATUS. -/
def sysBootStatus (s : State) : Nat :=
  s.sys.stage + s.sys.result * 2 ^ 8 + s.sys.slot * 2 ^ 16 + bitAt s.sys.fallback 17

/-- The codes of Table 3.7. -/
def MbxState.code : MbxState → Nat
  | .idle => 0 | .pending => 1 | .exec => 2 | .done => 3

/-- MBX_STATn. -/
def mbxStat (m : Mailbox) : Nat :=
  m.state.code + bitAt m.dbReject 4 + bitAt m.foreign 5 + bitAt m.lockedWrite 6 + bitAt m.timeout 7

/-- MBX_EVR_CTRL. -/
def evrCtrl (s : State) : Nat := s.evr.thresh + s.evr.age * 2 ^ 16 + bitAt s.evr.rdBad 24

/-- The registers that are live in BOOT (R67). -/
def liveInBoot (o : Nat) : Bool :=
  o == 0x00 || o == 0x04 || o == 0x0C || o == 0x10 || o == 0x18 || o == 0x20 || o == 0x24 || o == 0x28 || o == 0x2C ||
    o == 0x30 || o == 0x40 || o == 0x44 || o == 0x210

/-- What a register that is not live in BOOT reads: its reset value (R67, Tables 3.10 to 3.16). MBX_SEQn with LGCY_SEL high reads that of version 1
(DEDUCED from R84, log 25). -/
def resetReg (s : State) (o : Nat) : Nat :=
  if o = 0x08 then 1 + bitAt s.sys.straps.lgcySel 5
  else if o = 0x200 then 0xF * 2 ^ 9
  else if o = 0x230 then 0xFF
  else if 0x1000 ≤ o ∧ o < 0x1080 ∧ o % 16 = 8 then (if s.sys.straps.lgcySel then 0x0000FFFF else 0xFFFFFFFF)
  else if o = 0x1080 then 0x80
  else if o = 0x1084 then 10
  else if o = 0x1088 then (if s.sys.straps.lgcySel then 1 else 2)
  else if o = 0x10C8 then 1
  else 0

/-- The value of the register at an offset, without the side effect of R66; 0 where no register stands (R11). -/
def regValue (s : State) (o : Nat) : Nat :=
  if o = 0x00 then Config.partCode + Config.stepCode * 2 ^ 16
  else if o = 0x04 then sysStraps s
  else if o = 0x08 then sysMode s
  else if o = 0x0C then sysBootStatus s
  else if o = 0x10 then s.sys.bootDetail.toNat
  else if o = 0x14 then s.sys.verupVer.toNat
  else if o = 0x20 then s.sys.scratch.toNat
  else if o = 0x24 then s.sys.tj.toNat + bitAt s.sys.tempValid 16
  else if o = 0x28 then s.sys.irqStatus.toNat
  else if o = 0x2C then s.sys.irqEnHost.toNat
  else if o = 0x30 then s.sys.irqEnMgt.toNat
  else if o = 0x40 then s.time.tb.toNat % 2 ^ 32
  else if o = 0x44 then s.time.tb.toNat / 2 ^ 32
  else if 0x100 ≤ o ∧ o ≤ 0x114 then fltReg s ((o - 0x100) / 4)
  else if 0x200 ≤ o ∧ o ≤ 0x23C then blockReg s ((o - 0x200) / 4)
  else if 0x1000 ≤ o ∧ o < 0x1080 then
    let m := nthOr s.mbx.box ((o - 0x1000) / 16) {}
    if o % 16 = 4 then mbxStat m else if o % 16 = 8 then m.seq.toNat else 0
  else if o = 0x1080 then s.mbx.port.toNat
  else if o = 0x1084 then s.mbx.wdog.toNat
  else if o = 0x1088 then (if s.mbx.fmt1 then 1 else 2)
  else if o = 0x10C0 then s.evr.wr.toNat
  else if o = 0x10C4 then s.evr.rd.toNat
  else if o = 0x10C8 then evrCtrl s
  else if o = 0x10CC then s.evr.lost
  else 0

/-- The ring entry that slot i shows: the newest one written there. -/
def ringSlot (s : State) (i : Nat) : List Byte :=
  match s.evr.ring[(s.evr.wr - 1 - BitVec.ofNat 16 i).toNat % 1024]? with
  | some e => e.bytes
  | none => zeros 32

/-- One aligned word of the window: register, mailbox area or event ring (Table 3.5, R67). -/
def windowWord (s : State) (o : Nat) : Nat :=
  if 0x8000 ≤ o then (if verupRuns s then uAt (ringSlot s ((o - 0x8000) / 32)) (o % 32) 4 else 0)
  else if 0x4000 ≤ o then (if verupRuns s then Mem.readLe s.mbx.area o 4 else 0)
  else if verupRuns s || liveInBoot o then regValue s o
  else resetReg s o

/-- The upper timebase word a port holds (R66). -/
def holdOf (p : Port) (s : State) : Option Word := match p with | .host => s.win.holdHost | .spi => s.win.holdSpi

/-- The upper timebase word put into a port's holding register (R66). -/
def setHold (p : Port) (h : Option Word) (s : State) : State :=
  { s with win := match p with | .host => { s.win with holdHost := h } | .spi => { s.win with holdSpi := h } }

/-- The word a TIM_NOW read returned on a port. -/
def noteRead (p : Port) (w : Word) (s : State) : State :=
  { s with win := match p with | .host => { s.win with readHost := w } | .spi => { s.win with readSpi := w } }

/-- A read of TIM_NOW_LO by a port (R66). -/
def readNowLo (p : Port) (s : State) : Word × State :=
  let w : Word := s.time.tb.setWidth 32
  (w, noteRead p w (setHold p (some ((s.time.tb >>> 32).setWidth 32)) s))

/-- A read of TIM_NOW_HI by a port: the bits held since its last TIM_NOW_LO read, else the live ones (R66). -/
def readNowHi (p : Port) (s : State) : Word × State :=
  let w : Word := (holdOf p s).getD ((s.time.tb >>> 32).setWidth 32)
  (w, noteRead p w s)

/-- One word read by a port, with the latch of R66. -/
def readWord (p : Port) (o : Nat) (s : State) : Word × State :=
  if o = 0x40 then readNowLo p s
  else if o = 0x44 then readNowHi p s
  else (BitVec.ofNat 32 (windowWord s o), s)

/-- n bytes read by a port from an aligned offset upward, word by word, wrapping at the end of the window. -/
def readWords (p : Port) : Nat → Nat → State → List Byte × State
  | 0, _, s => ([], s)
  | n + 1, o, s =>
    let (w, s) := readWord p (o % 0x10000) s
    let (rest, s) := readWords p n (o + 4) s
    (leBytes 4 w.toNat ++ rest, s)

/-! ## Writing -/

/-- A write to a byte of a command area; locked from RING until DONE (R71). Response areas are read-only (R64). -/
def writeAreaByte (o : Nat) (b : Byte) (s : State) : State :=
  if verupRuns s && decide (0x4000 ≤ o) && decide (o < 0x8000) && decide ((o - 0x4000) % 0x800 < 0x400) then
    if h : (o - 0x4000) / 0x800 < 8 then
      let n : Fin 8 := ⟨(o - 0x4000) / 0x800, h⟩
      match s.mbx.box[n].state with
      | .pending | .exec => setBox n (fun m => { m with lockedWrite := true }) s
      | _ => { s with mbx := { s.mbx with area := Mem.write s.mbx.area o b } }
    else s
  else s

/-- Enabled bytes written into the areas from an offset upward. -/
def writeAreaBytes (o : Nat) : List (Byte × Bool) → State → State
  | [], s => s
  | (b, e) :: bs, s => writeAreaBytes (o + 1) bs (if e then writeAreaByte o b s else s)

/-- A write to MBX_EVR_RD: entries consumed, or ignored with RD_BAD when more than 1024 would then be unread (R79). -/
def writeEvrRd (v : Nat) (s : State) : State :=
  let rd : BitVec 16 := BitVec.ofNat 16 v
  if (s.evr.wr - rd).toNat ≤ 1024 then { s with evr := { s.evr with rd := rd } }
  else { s with evr := { s.evr with rdBad := true } }

/-- A write to MBX_PORT: only the bits of mailboxes that are IDLE change (R73). -/
def writeMbxPort (v : Nat) (s : State) : State :=
  let bitFor (i : Fin 8) : Nat :=
    bitAt (if s.mbx.box[i].state = .idle then bitOf v i.val else s.mbx.port.getLsbD i) i.val
  { s with mbx := { s.mbx with port := BitVec.ofNat 8 ((List.finRange 8).map bitFor).sum } }

/-- A warm reset is asked for (R47), by 0 RESET_N, 1 `sys.reset` or 2 SYS_RESET: firing is inhibited at once and a flush runs first; in BOOT the flush
is skipped, which WARM_RESET_FLUSH_DONE ends at once. A paired holder releases the lease (Table 15.7). A transition under way is overtaken (R41). A
running scrub ends with the reset that leads to BOOT, before the ring is lost (R389; DEDUCED, log 13). -/
def requestReset (kind : Nat) (s : State) : State :=
  if s.sys.resetPending then s
  else
    let s := { dropTransition s with sys := { (dropTransition s).sys with resetPending := true, resetKind := kind, resetTb := s.time.tb } }
    if s.sys.mode = .boot then s else startFlush 3 (bgStart .reset (releaseLease 0 (stopScrub s)))

/-- SYS_SAFESTOP key: SAFESTOP with the cause HOST_REGISTER; ignored in BOOT and SAFESTOP (Table 3.11). -/
def hostSafestop (s : State) : State :=
  if s.sys.mode = .boot ∨ s.sys.mode = .safestop then s else raiseFault .hostRegister 0 0xFFFF s

/-- A 32-bit write by a port to a register (Tables 3.10 to 3.16); offsets without a register ignore it (R11), and in BOOT only
the live registers take it (R67). -/
def writeReg (p : Port) (o v : Nat) (s : State) : State :=
  if !(verupRuns s || liveInBoot o) then s
  else if o = 0x18 then (if v % 65536 = 0xA5C3 then requestReset 2 s else s)
  else if o = 0x1C then (if v % 65536 = 0x3C5A then hostSafestop s else s)
  else if o = 0x20 then { s with sys := { s.sys with scratch := BitVec.ofNat 32 v } }
  else if o = 0x28 then setIrq (s.sys.irqStatus &&& ~~~ (BitVec.ofNat 15 v &&& ~~~ freshIrq s)) s.sys.irqEnHost s
  else if o = 0x2C then setIrq s.sys.irqStatus (BitVec.ofNat 15 v) s
  else if o = 0x30 then { s with sys := { s.sys with irqEnMgt := BitVec.ofNat 15 v } }
  else if h : 0x1000 ≤ o ∧ o < 0x1080 then
    let n : Fin 8 := ⟨(o - 0x1000) / 16, by omega⟩
    if o % 16 = 0 then controlMailbox p n (bitOf v 0) (bitOf v 1) s
    else if o % 16 = 4 then setBox n (fun m => { m with
      dbReject := m.dbReject && !bitOf v 4, foreign := m.foreign && !bitOf v 5
      lockedWrite := m.lockedWrite && !bitOf v 6
      timeout := m.timeout && (!bitOf v 7 || m.timeoutAt == some (ctrlClock s)) }) s
    else s
  else if o = 0x1080 then writeMbxPort v s
  else if o = 0x1084 then
    (if v % 256 = 0 then s else { s with mbx := { s.mbx with wdog := BitVec.ofNat 8 v } })
  else if o = 0x10C4 then writeEvrRd v s
  else if o = 0x10C8 then
    { s with evr := { s.evr with
      thresh := if 1 ≤ v % 2048 ∧ v % 2048 ≤ 1024 then v % 2048 else s.evr.thresh
      age := bitsOf v 23 16, rdBad := s.evr.rdBad && !bitOf v 24 } }
  else s

/-- One 32-bit write by a port at an aligned offset of the window. -/
def writeWord (p : Port) (o : Nat) (v : Nat) (s : State) : State :=
  if 0x8000 ≤ o then s
  else if 0x4000 ≤ o then writeAreaBytes o ((leBytes 4 v).map fun b => (b, true)) s
  else writeReg p o v s

/-- Complete words written from an aligned offset upward, wrapping at the end of the window (R61). -/
def writeWords (p : Port) (o : Nat) : List Nat → State → State
  | [], s => s
  | v :: vs, s => writeWords p (o + 4) vs (writeWord p (o % 0x10000) v s)

/-! ## Register rows -/

/-- The window answers: the SRAM sweep has ended and the part has power (R61). -/
def windowReady (s : State) : Bool := s.sys.sweepDone && s.sys.mode != .keepalive

/-- SYS_RESET_WRITE (R47): a write of a value to SYS_RESET. -/
def execSysResetWrite (p : Port) (v : Word) (s : State) : Host.Outcome State Fault Refusal :=
  .next (if windowReady s then writeReg p 0x18 v.toNat s else s)

/-- SYS_SAFESTOP_WRITE (R414): a write of a value to SYS_SAFESTOP. -/
def execSysSafestopWrite (p : Port) (v : Word) (s : State) : Host.Outcome State Fault Refusal :=
  .next (if windowReady s then writeReg p 0x1C v.toNat s else s)

/-- MBX_PORT_WRITE (R73). -/
def execMbxPortWrite (p : Port) (v : Word) (s : State) : Host.Outcome State Fault Refusal :=
  .next (if windowReady s then writeReg p 0x1080 v.toNat s else s)

/-- MBX_EVR_RD_WRITE (R79). -/
def execMbxEvrRdWrite (p : Port) (v : Word) (s : State) : Host.Outcome State Fault Refusal :=
  .next (if windowReady s then writeReg p 0x10C4 v.toNat s else s)

/-- TIM_NOW_LO_READ (R66). -/
def execTimNowLoRead (p : Port) (s : State) : Host.Outcome State Fault Refusal :=
  .next (if windowReady s then (readNowLo p s).2 else s)

/-- TIM_NOW_HI_READ (R66). -/
def execTimNowHiRead (p : Port) (s : State) : Host.Outcome State Fault Refusal :=
  .next (if windowReady s then (readNowHi p s).2 else s)

/-- REGISTER_WRITE (R10): a 32-bit write to an aligned window offset. -/
def execRegisterWrite (p : Port) (o : BitVec 16) (v : Word) (s : State) : Host.Outcome State Fault Refusal :=
  .next (if windowReady s && o.toNat % 4 == 0 then writeWord p o.toNat v.toNat s else s)

/-! ## Management SPI frames -/

/-- LAST_ERR for the frame that has just ended (R62). -/
def setLastErr (e : Bool) (s : State) : State := { s with win := { s.win with spiLastErr := e } }

/-- The words of a byte run; bytes left over are dropped. -/
def wordsOf (n : Nat) (bs : List Byte) : List Nat := (List.range n).map fun i => uAt bs (4 * i) 4

/-- SPI_READ_FRAME (R61): the MOSI bytes of a frame that begins with 0x0B. MISO carries four bytes of 0xFF, STATUS, then window
words; with READY 0 every data byte reads 0xFF, which does not count as a refusal (DEDUCED, log 46). A wrong opcode, a frame too short for its
address or an unaligned address has no effect, and the frame counts as refused (log 46). A frame that ends inside a word sends the bytes of that
word that fit, and that word's read has no effect of its own: it latches nothing (DESIGN CHOICE, log 46). -/
def execSpiReadFrame (mosi : List Byte) (s : State) : Host.Outcome State Fault Refusal :=
  if s.sys.mode = .keepalive then .next s
  else
    let addr := uAt mosi 1 2
    let n := mosi.length - 5
    if uAt mosi 0 1 ≠ 0x0B ∨ mosi.length < 4 ∨ addr % 4 ≠ 0 then .next (setLastErr true s)
    else
      let hdr : List Byte := List.replicate 4 0xFF ++ (if mosi.length < 5 then [] else [if windowReady s then 1 else 0])
      if windowReady s then
        let (d, t) := readWords .spi (n / 4) addr s
        let tail := ((readWords .spi 1 (addr + 4 * (n / 4)) t).1).take (n % 4)
        .next (send .spi (hdr ++ d ++ tail) (setLastErr (n % 4 != 0) t))
      else .next (send .spi (hdr ++ List.replicate n 0xFF) (setLastErr (n % 4 != 0) s))

/-- SPI_WRITE_FRAME (R60, R61): the MOSI bytes of a frame that begins with 0x02; each complete word is written as it arrives, and MISO carries
0xFF throughout. A frame while READY is 0 is refused. -/
def execSpiWriteFrame (mosi : List Byte) (s : State) : Host.Outcome State Fault Refusal :=
  if s.sys.mode = .keepalive then .next s
  else
    let addr := uAt mosi 1 2
    let n := mosi.length - 3
    let s := if uAt mosi 0 1 = 0x02 then send .spi (List.replicate mosi.length 0xFF) s else s
    if uAt mosi 0 1 ≠ 0x02 ∨ mosi.length < 3 ∨ addr % 4 ≠ 0 ∨ windowReady s = false then .next (setLastErr true s)
    else .next (setLastErr (n % 4 != 0) (writeWords .spi addr (wordsOf (n / 4) (mosi.drop 3)) s))

/-- The port status byte (R62). -/
def portStatus (s : State) : Nat := bitAt s.sys.sweepDone 0 + bitAt s.win.spiLastErr 1 + bitAt (intMgt s) 2

/-- SPI_PORT_STATUS (R62): the byte is returned and LAST_ERR is cleared. -/
def execSpiPortStatus (s : State) : Host.Outcome State Fault Refusal :=
  if s.sys.mode = .keepalive then .next s
  else .next (setLastErr false (send .spi [0xFF, BitVec.ofNat 8 (portStatus s)] s))

end Sys2Proof.Machine
end

