-- ==== Sys2Proof/Machine/Links.lean ====
section
/-! DEFINITION. The host link, the twin link and the camera lanes: bring-up (R98 to R103), recovery retrain (R104), link reset (R105), block layer
(R93 to R97, R308, R309), spare lanes (R117 to R121), frames received, acknowledgement and replay (R107 to R109, R114, R115), credits (R110, R111),
tests (R122 to R125), and the link commands. -/
namespace Sys2Proof.Machine

/-! ## Settings in force (R92) -/

/-- The presets of Table 4.2, as (a, b). -/
def preset (n : Nat) : Nat × Nat :=
  [(0, 0), (0, 4), (0, 6), (0, 8), (0, 12), (4, 0), (4, 8), (4, 4), (6, 8), (8, 8)].getD n (4, 4)

/-- A legal coefficient set (R90). -/
def legalCoeff (a b : Nat) : Bool := decide (a ≤ 8) && decide (b ≤ 16) && decide (a + b ≤ 20)

/-- MIN_W in force (R99). -/
def minWidth (l : Fin 2) (k : Link) : Nat := pnat k.inForce 1 0 (fullWidth l)

/-- SPARE_THRESH in force (R92, R118). -/
def spareThresh (k : Link) : Nat := pnat k.inForce 8 0 4

/-- The receivers' equalisers as the settings have them: a fixed peaking, feedback taps off; else adapted, to a free value within R92's range
(log 3). `keep` leaves an adapted peaking as it is. -/
def settleEqualisers (keep : Bool) (free : Nat) (k : Link) : Link :=
  let pk := pnat k.inForce 2 0 255
  { k with lanes := Vector.ofFn fun i =>
    let n := k.lanes[i]
    { n with dfe := pnat k.inForce 3 0 0 != 1
             peaking := if pk ≠ 255 then pk else if keep then n.peaking else Config.freeNat (free + i.val) % 16 } }

/-- The highest rate code below n that both ends advertise (R99); this part advertises all six. -/
def commonBelow (peer : Nat) : Nat → Option Nat
  | 0 => none
  | n + 1 => if bitOf peer n then some n else commonBelow peer n

/-- A rate is the lowest that both ends advertise. -/
def lowestCommon (peer rate : Nat) : Bool := (commonBelow peer rate).isNone

/-! ## Width and mapping (R87, R100) -/

/-- The physical lanes of a mask that stand in a list. -/
def maskLanes (l : Fin 2) (mask : Nat) : List Nat := (List.range (laneCount l)).filter fun i => bitOf mask i

/-- The widest of 8, 4, 2 and 1 that the usable lanes allow; 0 when none does (R100). -/
def widthFor (l : Fin 2) (mask : Nat) : Nat :=
  let n := (maskLanes l mask).length
  if fullWidth l ≤ n then fullWidth l else if l = 0 ∧ 4 ≤ n then 4 else if 2 ≤ n then 2 else n

/-- What a usable lane does at a width, given all the usable lanes (R87, R100). -/
def laneUseFor (l : Fin 2) (mask w i : Nat) : LaneUse × Nat :=
  if w = fullWidth l then
    if i = spareLane l then
      match (List.range w).find? fun j => !bitOf mask j with
      | some j => (.active, j)
      | none => (.standby, 0xF)
    else (.active, i)
  else
    match (maskLanes l mask).findIdx? (· == i) with
    | some j => if j < w then (.active, j) else (.unused, 0xE)
    | none => (.failed, 0xE)

/-- SPARE_FOR after a mapping: the lane the spare carries at full width. -/
def spareForOf (l : Fin 2) (mask w : Nat) : Nat :=
  if w = fullWidth l && bitOf mask (spareLane l) then ((List.range w).find? fun j => !bitOf mask j).getD 0xF else 0xF

/-- A lane that stays as it is until the next bring-up: in a test, left over, replaced, failed or an unusable spare (R87, R117, R119, R124). At a
bring-up only a lane in a test does. -/
def laneStays (retrain : Bool) (u : LaneUse) : Bool := u == .test || (retrain && u != .active && u != .standby)

/-- The mapping of a width put in place; a lane that is tried and not usable has failed. -/
def mapLanes (l : Fin 2) (retrain : Bool) (mask w : Nat) (k : Link) : Link :=
  { k with
    width := w, spareFor := spareForOf l mask w
    lanes := Vector.ofFn fun i =>
      let n := k.lanes[i]
      if laneStays retrain n.use then n
      else
        let u : LaneUse × Nat := if !bitOf mask i.val || decide (laneCount l ≤ i.val) then (.failed, 0xE) else laneUseFor l mask w i.val
        { n with use := u.1, logical := u.2, intervalErr := 0 } }

/-- The lanes of which something holds, as a mask. -/
def laneMask (l : Fin 2) (k : Link) (p : Lane → Bool) : Nat := ((List.range (laneCount l)).map fun i => bitAt (p (laneOf k i)) i).sum

/-- The lanes that locked, in no test (R124). -/
def lockMask (l : Fin 2) (k : Link) : Nat := laneMask l k fun n => n.lock && n.use != .test

/-- The lanes that locked, with the right LINK_ID, and in no test (R100, R101, R124). -/
def lockedMask (l : Fin 2) (k : Link) : Nat := laneMask l k fun n => n.lock && !n.wrongId && n.use != .test

/-- The lanes that both ends report as passed (R100). -/
def usableMask (l : Fin 2) (retrain : Bool) (clock : Nat) (k : Link) : Nat :=
  laneMask l k fun n => lanePassed k clock n && n.peerPassed && !laneStays retrain n.use

/-- Every usable lane has been deskewed over 4 ALIGN sets (Table 4.6). -/
def deskewed (l : Fin 2) (mask : Nat) (k : Link) : Bool := (maskLanes l mask).all fun i => decide (4 ≤ (laneOf k i).aligns)

/-- Verification begins anew on every lane (R99): what either end reported before counts no more, and the next ALIGN is not checked (R97). -/
def beginVerify (clock : Nat) (k : Link) : Link :=
  { k with lanes := k.lanes.map fun n => { n with dirty := false, peerPassed := false, alignSeen := false, trials := 0, reject := false, verifyAt := clock } }

/-! ## Latches that a link coming up releases (Table 14.4, AUTO) -/

/-- LANE_FAIL on every lane, and LINK_DOWN or TWIN_LINK_DOWN, are released. -/
def releaseLinkLatches (l : Fin 2) (s : State) : State :=
  releaseWhere (fun r => r.inst.source == linkSource l &&
    (r.latch == some .laneFail || r.latch == some .linkDown || r.latch == some .twinLinkDown)) .auto_ s

/-! ## Link reset and start -/

/-- Requests on the twin link that no response has come for are waited for no longer once it has reset (log 56); a response already accepted is
carried out (R105). -/
def noRequests (s : State) : State :=
  let come (q : Nat) : Bool := s.twinLink.rxTmb.any fun m => decide (uAt m.2 0 2 < 0xF000) && uAt m.2 4 4 == q
  { s with twin := { s.twin with tmbOut := s.twin.tmbOut.filter fun e => come e.1 } }

/-- What a link reset leaves and reports (R105), with the cause of `ev.link_down`; the loss of the host link is LINK_DOWN (R106). -/
def resetLink (l : Fin 2) (cause : Nat) (s : State) : State :=
  let k := linkOf l s
  let s := setLink l (fun k => { clearedLink k with resets := wrapAdd 32 k.resets 1 }) s
  let s := if l = 1 then noRequests s else s
  let s := evLinkDown l cause (k.unacked.length + k.held.length) s
  if k.linkUp && l = 0 then raiseFault .linkDown 0x10 0xFFFF s else s

/-- A link reset, which is a bring-up from stage 1 (R103, R105). -/
def linkReset (l : Fin 2) (cause : Nat) (s : State) : State := beginBringUp l (resetLink l cause s)

/-- Bring-up begins at stage 1 (R102). -/
def startLink (l : Fin 2) (s : State) : State := beginBringUp l s

/-- A link-start failure (R103): counted, reported for the first and every sixteenth after it, a link reset, and 100 ms wait. -/
def startFailure (l : Fin 2) (stageNo : Nat) (s : State) : State :=
  let k := linkOf l s
  let f := k.failures + 1
  let s := setLink l (fun k => { k with failures := f }) s
  let s := if (f - 1) % 16 = 0 then
      emit { code := 0x1501, source := linkSource l, status := stageNo,
             payload := leBytes 1 l.val ++ [0] ++ leBytes 2 (lockedMask l k) ++ leBytes 4 k.attempts ++ zeros 8 } s
    else s
  setLink l (fun k => { k with stage := .wait }) (resetLink l 3 s)

/-! ## Bring-up rows (Table 4.6) -/

/-- LINK_DETECT (R98): signal above squelch on some lane. -/
def execLinkDetect (l : Fin 2) (s : State) : Host.Outcome State Fault Refusal :=
  .next (if (linkOf l s).stage = .detect then sendTraining l false (setLink l (fun k => { k with stage := .lock }) s) else s)

/-- A lane has taken the TRAIN exchange of LOCK: 8 TRAIN1 and then 8 TRAIN2 (Table 4.6). -/
def trained (n : Lane) : Bool := decide (8 ≤ n.train1) && decide (8 ≤ n.train2)

/-- The lanes that have block lock, of those in the mask, once they have taken the TRAIN exchange; a lane in a test is left alone. -/
def takeLock (locked : Nat) (k : Link) : Link :=
  { k with lanes := Vector.ofFn fun i =>
    let n := k.lanes[i]
    { n with lock := if n.use = .test then n.lock else bitOf locked i.val && trained n } }

/-- What the transmitter of a lane carries: from the SWITCH it sends on, the spare carries the failed lane's logical lane (R119). -/
def txRole (l : Fin 2) (k : Link) (i : Nat) : LaneUse × Nat :=
  let n := laneOf k i
  match k.spare with
  | some w =>
    if !w.sentSwitch then (n.use, n.logical)
    else if i = spareLane l then (.active, (laneOf k w.lane).logical)
    else if i = w.lane then (.failed, 0xE)
    else (n.use, n.logical)
  | none => (n.use, n.logical)

/-- ALIGN sent on every lane that carries a logical lane or stands by; in bring-up no data block precedes it (R96, R97). A lane in a test is not among
them: its framed pattern holds ALIGN and SKIP of its own (R122). -/
def sendAlignSet (l : Fin 2) (next : Nat) (checks : Nat → BitVec 16) (s : State) : State :=
  let k := linkOf l s
  let sendLane (s : State) (i : Nat) : State :=
    let u := txRole l k i
    if u.1 = .test ∨ (k.linkUp ∧ u.1 ≠ .active ∧ u.1 ≠ .standby) then s
    else sendBlock l (alignBlock u.2 i k.alignCount.toNat next (checks i)) s
  setLink l (fun k => { k with alignCount := k.alignCount + 1 }) ((List.range (laneCount l)).foldl sendLane s)

/-- Four ALIGN sets with TRAIN2, for the partner's deskew (Table 4.6). -/
def sendDeskew (l : Fin 2) (s : State) : State :=
  [0, 1, 2, 3].foldl (fun s (_ : Nat) => sendAlignSet l 0 (fun _ => 0xFFFF) s) (sendTraining l true s)

/-- The end of LOCK: the lanes that locked go on, the others are failed; none locked is a link-start failure. -/
def lockDone (l : Fin 2) (locked : BitVec 9) (s : State) : State :=
  let k := takeLock locked.toNat (linkOf l s)
  if lockMask l k = 0 then startFailure l 2 s
  else sendDeskew l (setLink l (fun _ => { k with stage := .align }) s)

/-- LOCK of a recovery retrain ends: the lanes that locked report it and are deskewed anew (R104). -/
def relocked (l : Fin 2) (locked : BitVec 9) (s : State) : State := sendDeskew l (setLink l (takeLock locked.toNat) s)

/-- LINK_LOCK_DONE (R98, R104): the lanes that hold block lock, once each of them has taken the TRAIN exchange, in bring-up or in a retrain. -/
def execLinkLockDone (l : Fin 2) (locked : BitVec 9) (s : State) : Host.Outcome State Fault Refusal :=
  let k := linkOf l s
  .next (if !((maskLanes l locked.toNat).all (fun i => trained (laneOf k i)) && maskLanes l locked.toNat != []) then s
    else if k.stage = .lock then lockDone l locked s
    else if k.stage = .retrain then relocked l locked s
    else s)

/-- The preset a part asks of the partner when it comes to a rate: the one that `link.config` fixes, else P7, with which every rate starts; rate codes 0
and 1 use P7 (R91, R92, R99). -/
def startAsk (ps : ParamSet) (rate : Nat) : Nat := if rate < 2 ∨ pnat ps 4 0 255 = 255 then 7 else pnat ps 4 0 255

/-- A lane at a new rate: P7 or the fixed coefficients, and the preset to ask (R91, R92). -/
def Lane.atRate (ps : ParamSet) (rate : Nat) (n : Lane) : Lane :=
  { n with txA := (startCoeff ps).1, txB := (startCoeff ps).2, asked := startAsk ps rate }

/-- The change to a rate (R91, R99): TRAIN2 proposes it as TARGET and reports the lanes as they stand, EIDLE follows, and TRAIN2 goes out again at the
new rate, where verification has begun anew. -/
def changeRate (l : Fin 2) (rate : Nat) (s : State) : State :=
  let s := sendEidle l (sendTraining l true (setLink l (fun k => { k with target := rate }) s))
  sendTraining l true
    (setLink l (fun k => beginVerify s.clock { k with stage := .equalise, lanes := k.lanes.map (Lane.atRate k.inForce rate) }) s)

/-- The end of ALIGN: usable lanes fixed, width and mapping chosen (R100), the first rate to try chosen (R99). -/
def alignDone (l : Fin 2) (s : State) : State :=
  let k := linkOf l s
  let mask := usableMask l false s.clock k
  let w := widthFor l mask
  match commonBelow k.peerRates 6 with
  | none => startFailure l 3 s
  | some r => if w = 0 then startFailure l 3 s else changeRate l r (setLink l (mapLanes l false mask w) s)

/-- LINK_ALIGN_DONE (R100): the lanes that both ends report as passed are deskewed. -/
def execLinkAlignDone (l : Fin 2) (s : State) : Host.Outcome State Fault Refusal :=
  let k := linkOf l s
  .next (if k.stage = .align && deskewed l (usableMask l false s.clock k) k then alignDone l s else s)

/-- The next lower common rate is tried, or the start fails when there is none (R99). -/
def lowerRate (l : Fin 2) (s : State) : State :=
  let k := linkOf l s
  match commonBelow k.peerRates k.target with
  | none => startFailure l 4 s
  | some r => changeRate l r s

/-- A CREDIT frame for every channel; the limits are what has been consumed plus the buffers (R110, R111). -/
def sendCredits (l : Fin 2) (s : State) : State :=
  let s := setLink l (fun k => { k with creditDue := false, vc := Vector.ofFn fun v => { k.vc[v] with
    rxHdrLimit := k.vc[v].rxHdrUsed + BitVec.ofNat 8 (vcHdr l v.val)
    rxDataLimit := k.vc[v].rxDataUsed + BitVec.ofNat 16 (vcData l v.val) } }) s
  let k := linkOf l s
  (List.range 3).foldl (fun s v =>
    let c := nthOr k.vc v {}
    sendFrame l (linkFrameBytes ([0x82] ++ leBytes 1 v ++ leBytes 1 c.rxHdrLimit.toNat ++ [0] ++ leBytes 2 c.rxDataLimit.toNat ++ zeros 2)) s) s

/-- The end of verification at the rate being tried (R99): accepted with the lanes that pass, or the next lower rate. On acceptance the equalisers
are frozen (R92), and ACTIVE begins with the initial CREDIT frames and sequence counts of 0. -/
def equaliseDone (l : Fin 2) (s : State) : State :=
  let k := linkOf l s
  let mask := usableMask l false s.clock k
  let w := widthFor l mask
  let need := if lowestCommon k.peerRates k.target then 1 else max (minWidth l k) k.peerMinW
  if w ≠ 0 ∧ need ≤ w then
    let s := setLink l (fun k =>
      { settleEqualisers false s.free (mapLanes l false mask w k) with
        stage := .active, rate := k.target, txSeq := 0, expect := 0, nakOut := false, vc := Vector.replicate 3 {} }) { s with free := s.free + 9 }
    sendCredits l s
  else lowerRate l s

/-- LINK_EQUALISE_DONE (R99): verification at the rate being tried ends; the lanes that pass it stand in the state. -/
def execLinkEqualiseDone (l : Fin 2) (s : State) : Host.Outcome State Fault Refusal :=
  .next (if (linkOf l s).stage = .equalise then equaliseDone l s else s)

/-- Bring-up or a retrain has ended: the first interval of data blocks begins, and the next ALIGN is not checked (R96, R97). -/
def beginInterval (clock : Nat) (k : Link) : Link :=
  { k with alignAt := clock, txSwitchAt := none, lanes := k.lanes.map fun n => { n with alignSeen := false } }

/-- The lanes that passed a bring-up: locked with the right LINK_ID, and not failed since (R99, R100). -/
def passedMask (l : Fin 2) (k : Link) : Nat := laneMask l k fun n => n.lock && !n.wrongId && n.use != .test && n.use != .failed

/-- The link is up (R98 stage 5); its lanes that passed count the bring-up (R486). -/
def linkComesUp (l : Fin 2) (s : State) : State :=
  let s := setLink l (fun k => beginInterval s.clock { k with stage := .up, linkUp := true, failures := 0, attempts := 0 }) s
  let k := linkOf l s
  let s := noteLanes l (fun i h => { h with lastRate := k.rate, bringups := satAdd 32 h.bringups (if bitOf (passedMask l k) i then 1 else 0) }) s
  releaseLinkLatches l s

/-- LINK_ACTIVE_DONE (R98): the partner's initial CREDIT frames have come for every channel. -/
def execLinkActiveDone (l : Fin 2) (s : State) : Host.Outcome State Fault Refusal :=
  .next (if (linkOf l s).stage = .active && (linkOf l s).vc.all (·.gotCredit) then linkComesUp l s else s)

/-- LINK_STAGE_TIMEOUT (R98): the outcome of Table 4.6 for the stage; in LOCK the lanes that hold block lock are given. -/
def execLinkStageTimeout (l : Fin 2) (locked : BitVec 9) (s : State) : Host.Outcome State Fault Refusal :=
  match (linkOf l s).stage with
  | .lock => .next (lockDone l locked s)
  | .align => .next (startFailure l 3 s)
  | .equalise => .next (lowerRate l s)
  | .active => .next (startFailure l 5 s)
  | .retrain => .next (linkReset l 1 (bgEnd (.retrain l.val) s))
  | _ => .next s

/-- LINK_START_RETRY (R103): 100 ms have passed, and bring-up begins again. -/
def execLinkStartRetry (l : Fin 2) (s : State) : Host.Outcome State Fault Refusal :=
  .next (if (linkOf l s).stage = .wait then startLink l s else s)

/-! ## Recovery retrain (R104) -/

/-- A lane as a recovery retrain takes it up: the TRAIN exchange, block lock and deskew begin anew; newly fixed settings take effect (R92, R104). -/
def Lane.atRetrain (ps : ParamSet) (rate : Nat) (n : Lane) : Lane :=
  let c := if pon ps 5 0 false then startCoeff ps else (n.txA, n.txB)
  { n with train1 := 0, train2 := 0, answered := false, aligns := 0, lock := n.lock && n.use == .test, txA := c.1, txB := c.2
           asked := if pnat ps 4 0 255 = 255 then n.asked else startAsk ps rate }

/-- A recovery retrain starts with its trigger: settings take effect (R92), the TRAIN exchange begins anew, frames under way are broken off, and a
spare request in progress is dropped (R121). -/
def startRetrain (l : Fin 2) (cause : Nat) (s : State) : State :=
  if (linkOf l s).stage = .up then
    let s := setLink l (fun k => { k with inForce := k.params }) s
    let s := setLink l (fun k => beginVerify s.clock { k with
      stage := .retrain, retrainCause := cause, spare := none, ackDue := false, nakDue := false, creditDue := false, replayDue := false
      txRest := [], txFrames := [], rxDiscard := false, txSwitchAt := none
      lanes := k.lanes.map (Lane.atRetrain k.inForce k.rate) }) s
    bgStart (.retrain l.val) (sendTraining l false s)
  else s

/-- The end of a recovery retrain with the lanes that hold block lock: the link goes on, perhaps narrower, or resets. -/
def retrainDone (l : Fin 2) (locked : BitVec 9) (s : State) : State :=
  let k := takeLock locked.toNat (linkOf l s)
  let mask := usableMask l true s.clock k
  let w := widthFor l mask
  let s := bgEnd (.retrain l.val) s
  if w = 0 ∨ w < max (minWidth l k) k.peerMinW ∨ !deskewed l mask k then linkReset l 1 s
  else
    let s := setLink l (fun _ => beginInterval s.clock { settleEqualisers true 0 (mapLanes l true mask w k) with
      stage := .up, retrains := wrapAdd 32 k.retrains 1, replaysInRow := 0 }) s
    let s := noteLanes l (fun i h => { h with retrains := satAdd 32 h.retrains (if (laneOf k i).use = .active then 1 else 0) }) s
    let s := releaseLinkLatches l s
    let s := emit { code := 0x1502, source := linkSource l, status := k.retrainCause,
                    payload := leBytes 1 l.val ++ leBytes 1 k.rate ++ leBytes 1 k.width ++ leBytes 1 w ++
                      leBytes 4 (wrapAdd 32 k.retrains 1) ++ zeros 8 } s
    if w = k.width then s
    else emit { code := 0x1503, source := linkSource l,
                payload := leBytes 1 l.val ++ leBytes 1 k.width ++ leBytes 1 w ++ leBytes 1 k.rate ++
                  leBytes 2 (laneUp (linkOf l s)) ++ zeros 10 } s

/-- RECOVERY_RETRAIN_DONE (R104): the lanes that hold block lock; those that pass stand in the state. -/
def execRecoveryRetrainDone (l : Fin 2) (locked : BitVec 9) (s : State) : Host.Outcome State Fault Refusal :=
  .next (if (linkOf l s).stage = .retrain then retrainDone l locked s else s)

/-! ## Blocks received -/

/-- The lanes of the three links that carry blocks: host, twin, camera (R85, R88, R308). -/
def blockLane (l : Fin 3) (lane : Nat) (s : State) : Lane :=
  if l = 0 then laneOf s.host lane else if l = 1 then laneOf s.twinLink lane else nthOr s.audit.lanes lane {}

/-- One lane of the three links changed. -/
def setBlockLane (l : Fin 3) (lane : Nat) (f : Lane → Lane) (s : State) : State :=
  if l = 0 then { s with host := setLane lane f s.host }
  else if l = 1 then { s with twinLink := setLane lane f s.twinLink }
  else { s with audit := { s.audit with lanes := updAt s.audit.lanes lane f } }

/-- The history of a lane of the three links changed; the camera lanes' records are 12 and 13 (Table 17.1). -/
def noteBlockLane (l : Fin 3) (lane : Nat) (f : LaneHist → LaneHist) (s : State) : State :=
  if l = 0 then noteLane 0 lane f s else if l = 1 then noteLane 1 lane f s else if lane < 2 then noteRecord (12 + lane) f s else s

/-- An invalid block is ignored and counted on its lane (R95); it breaks a run of TRAIN blocks, and the verification of R99 and R309. -/
def countInvalid (l : Fin 3) (lane : Nat) (s : State) : State :=
  noteBlockLane l lane (fun h => { h with invalid := satAdd 64 h.invalid 1 })
    (setBlockLane l lane (fun n => { n with
      invalid := n.invalid + 1, dirty := true, verifyAt := s.clock, train1 := if n.train1 < 8 then 0 else n.train1
      train2 := if n.train2 < 8 then 0 else n.train2 }) s)

/-- A camera lane that is not listened to. -/
def deaf (l : Fin 3) (lane : Nat) (s : State) : Bool := l == 2 && !cameraHears lane s

/-- INVALID_BLOCK_RECEIVED (R95): a block with its sync bits that is neither a data block nor a good control block. -/
def execInvalidBlockReceived (l : Fin 3) (lane : Fin 9) (sync : BitVec 2) (b : List Byte) (s : State) : Host.Outcome State Fault Refusal :=
  .next (if blockValid sync b || deaf l lane.val s then s else countInvalid l lane.val s)

/-- What a TRAIN block of either type tells: it counts in the exchange of LOCK, and gives the sender's LINK_ID and its report of the lane (R98, R100,
R101). -/
def noteTrain (l : Fin 2) (lane : Nat) (b : List Byte) (two : Bool) (k : Link) : Link :=
  setLane lane (fun n => { n with
    train1 := if two then (if n.train1 < 8 then 0 else n.train1) else n.train1 + 1
    train2 := if two && decide (8 ≤ n.train1) then n.train2 + 1 else if n.train2 < 8 then 0 else n.train2
    wrongId := uAt b 9 1 ≠ l.val, peerPassed := bitOf (uAt b 2 1) 4 }) k

/-- A coefficient request of a TRAIN2 block during EQUALISE answered: an illegal set is refused with REJECT and the previous set kept (R90), and a legal
one applied, unless `link.config` fixes the coefficients (R92) or the rate skips the trials (R99). A preset code that Table 4.2 has not is refused as
an illegal set is (DESIGN CHOICE, log 55). -/
def applyEqRequest (k : Link) (b : List Byte) (n : Lane) : Lane :=
  let direct := bitOf (uAt b 5 1) 4
  let ab := if direct then (uAt b 6 1, uAt b 7 1) else preset (uAt b 5 1 % 16)
  if !legalCoeff ab.1 ab.2 || (!direct && decide (9 < uAt b 5 1 % 16)) then { n with reject := true }
  else if pon k.inForce 5 0 false || decide (k.target < 2) then { n with reject := false }
  else { n with txA := ab.1, txB := ab.2, reject := false }

/-- The link is in a stage that trades TRAIN blocks. While it is up, TRAIN blocks of a partner that starts a retrain are not acted on: no rule says how
the part joins one (DESIGN CHOICE, log 55). -/
def inTraining (k : Link) : Bool :=
  k.stage = .detect || k.stage = .lock || k.stage = .align || k.stage = .equalise || k.stage = .retrain

/-- The preset the part asks of the partner in a trial: the one `link.config` fixes, or one of its own choosing, a free value (R92, log 3). -/
def askedPreset (k : Link) (free : Nat) : Nat :=
  let p := pnat k.inForce 4 0 255
  if p ≠ 255 then p else Config.freeNat free % 10

/-- The trials of partner coefficients at the rate being tried: 16, one where the preset is fixed, none at rate codes 0 and 1 (Table 4.6, R92, R99). -/
def trialLimit (k : Link) : Nat := if k.target < 2 then 0 else if pnat k.inForce 4 0 255 = 255 then 16 else 1

/-- A trial: another preset asked of the partner, after which the lane's verification begins anew (Table 4.6). -/
def Lane.try_ (clock ask : Nat) (n : Lane) : Lane :=
  { n with trials := n.trials + 1, asked := ask, dirty := false, alignSeen := false, verifyAt := clock }

/-- The TRAIN2 with which the part answers a TRAIN2 in EQUALISE (R90, R99): REJECT for a refused request, the preset of a trial while trials are left and
the last one asked after them, and whether the lane has passed. Every TRAIN2 that comes in EQUALISE is taken as a request (DESIGN CHOICE, log 55):
Table 4.5 has no code that asks for nothing. -/
def answerTrain2 (l : Fin 2) (lane : Nat) (b : List Byte) (s : State) : State :=
  let k := linkOf l s
  let s := setLink l (setLane lane (applyEqRequest k b)) s
  let s := if (laneOf k lane).trials < trialLimit k then
      setLink l (setLane lane (Lane.try_ s.clock (askedPreset k s.free))) { s with free := s.free + 1 }
    else s
  sendBlock l (trainBlock l true lane s) s

/-- A TRAIN2 block of the camera (R309): it counts when it carries LINK_ID 2 and advertises the configured RATE; eight in a row are the lane's lock,
and without deskew verification begins. -/
def cameraTrain2 (lane : Nat) (b : List Byte) (s : State) : State :=
  let good := uAt b 9 1 == 2 && bitOf (uAt b 3 1) (pnat s.audit.params 1 0 5)
  setBlockLane 2 lane (fun n =>
    let k := if good then n.train2 + 1 else if n.train2 < 8 then 0 else n.train2
    { n with train2 := k, lock := decide (8 ≤ k), verifyAt := if 8 ≤ k ∧ !n.lock then s.clock else n.verifyAt
             dirty := if 8 ≤ k ∧ !n.lock then false else n.dirty }) s

/-- LOCK runs, in bring-up or in a retrain (R98, R104). -/
def inLock (k : Link) : Bool := k.stage = .lock || k.stage = .retrain

/-- A TRAIN1 of a partner in training; from the eighth in a row on, the part sends TRAIN2 on the lane (Table 4.6; DEDUCED, log 55). -/
def train1Received (l : Fin 2) (lane : Nat) (b : List Byte) (inv : Bool) (s : State) : State :=
  let s := setLink l (fun k => noteTrain l lane b false (setLane lane (fun n => { n with inverted := inv }) k)) s
  if inLock (linkOf l s) && decide (8 ≤ (laneOf (linkOf l s) lane).train1) then sendBlock l (trainBlock l true lane s) s else s

/-- TRAIN1_RECEIVED (R98): a 16-byte block on a lane. A block whose every bit is inverted is a TRAIN1 on a lane of inverted polarity (Table 4.6). The
camera sends none that counts. -/
def execTrain1Received (l : Fin 3) (lane : Fin 9) (b : List Byte) (s : State) : Host.Outcome State Fault Refusal :=
  let inv := blockGood (b.map (~~~ ·)) 0xE1
  let t := if inv then b.map (~~~ ·) else b
  .next (if deaf l lane.val s then s
    else if !blockGood t 0xE1 then countInvalid l lane.val s
    else if h : l.val < 2 then
      let m : Fin 2 := ⟨l.val, h⟩
      if inTraining (linkOf m s) then train1Received m lane.val t inv s else s
    else s)

/-- A TRAIN2 of a partner in training: capabilities, lane state and equalisation requests (Table 4.5). After the first that counts in LOCK, 16 TRAIN2
are sent on the lane (Table 4.6). -/
def train2Received (l : Fin 2) (lane : Nat) (b : List Byte) (s : State) : State :=
  let k := linkOf l s
  let n := laneOf k lane
  let s := setLink l (fun k => { noteTrain l lane b true k with peerRates := uAt b 3 1, peerMinW := uAt b 10 1 }) s
  if k.stage = .equalise then answerTrain2 l lane b s
  else if inLock k && decide (8 ≤ n.train1) && !n.answered then
    (List.range 16).foldl (fun s _ => sendBlock l (trainBlock l true lane s) s) (setLink l (setLane lane fun n => { n with answered := true }) s)
  else s

/-- TRAIN2_RECEIVED (R98). -/
def execTrain2Received (l : Fin 3) (lane : Fin 9) (b : List Byte) (s : State) : Host.Outcome State Fault Refusal :=
  .next (if deaf l lane.val s then s
    else if !blockGood b 0xE2 then countInvalid l lane.val s
    else if h : l.val < 2 then
      if inTraining (linkOf ⟨l.val, h⟩ s) then train2Received ⟨l.val, h⟩ lane.val b s else s
    else cameraTrain2 lane.val b s)

/-- A SPARE block on every lane: kind, failed lane, spare lane (R119). -/
def sendSpare (l : Fin 2) (kind lane : Nat) (s : State) : State :=
  sendBlock l ([0xC3] ++ leBytes 1 kind ++ leBytes 1 lane ++ leBytes 1 (spareLane l) ++ zeros 11) s

/-- R118 allows a spare request: the spare stands by, in no test, and no switch or retrain runs. -/
def spareFree (l : Fin 2) (k : Link) : Bool :=
  k.stage = .up && k.spare.isNone && (laneOf k (spareLane l)).use = .standby

/-- A switch begins: margining on the spare ends and its sampling point is restored first (R125). -/
def beginSwitch (l : Fin 2) (w : SpareSwitch) (s : State) : State :=
  setLink l (fun k => setLane (spareLane l) (fun n => { n with test := { n.test with margin := false, phase := 0, thresh := 0 } })
    { k with spare := some w }) s

/-- The part asks for the spare for an active lane, or starts a recovery retrain when R118 forbids it. -/
def askSpare (l : Fin 2) (lane byWhom : Nat) (cause : Nat) (s : State) : State :=
  if spareFree l (linkOf l s) then sendSpare l 1 lane (beginSwitch l { lane := lane, byWhom := byWhom } s)
  else startRetrain l cause s

/-- `ev.lane_spare` (Table 19.2). -/
def evLaneSpare (l : Fin 2) (status failed byWhom errs : Nat) (s : State) : State :=
  emit { code := 0x1507, source := linkSource l, status := status,
         payload := leBytes 1 l.val ++ leBytes 1 failed ++ leBytes 1 (spareLane l) ++ leBytes 1 byWhom ++ leBytes 4 errs ++ zeros 8 } s

/-- The standby spare becomes unusable until the next bring-up (R117). -/
def spareFails (l : Fin 2) (s : State) : State :=
  let errs := ((laneOf (linkOf l s) (spareLane l)).spareErrs.map (·.2)).sum
  evLaneSpare l 2 (spareLane l) 0 errs
    (noteLane l (spareLane l) (fun h => { h with state := 4 }) (setLink l (setLane (spareLane l) fun n => { n with use := .spareBad, unusable := true }) s))

/-- An interval error added to the lane's 1 ms window (R97, R118). A window begins at the first error after the one before it has run out (DESIGN
CHOICE, log 55): R118 does not say when one begins. -/
def addError (clock : Nat) (n : Lane) : Lane :=
  if clock < n.windowAt + 800000 ∧ n.intervalErr ≠ 0 then { n with intervalErr := n.intervalErr + 1 } else { n with intervalErr := 1, windowAt := clock }

/-- Errors of the standby spare entered in the last second (R117). -/
def addSpareErrors (clock e : Nat) (n : Lane) : Lane :=
  { n with spareErrs := (if e = 0 then [] else [(clock, e)]) ++ n.spareErrs.filter fun x => decide (clock < x.1 + 800000000) }

/-- An ALIGN and the data bytes before it at a lane: the scrambler is at its seed again (R94). -/
def realign (lane : Nat) (n : Lane) : Lane := { n with scram := scramSeed lane, alignSeen := true, aligns := n.aligns + 1 }

/-- LANE_CHECK of an ALIGN differs from the CRC-16 of the data bytes; the first ALIGN after bring-up or a retrain is not checked (R97). -/
def laneCheckBad (n : Lane) (b data : List Byte) : Bool := n.alignSeen && (crc16 data).toNat != uAt b 6 2

/-- An ALIGN of a set ends the discard of a framing error once it has come on every lane of the mask; frames then go on NEXT_FRAME units after it
(R107). -/
def endDiscard (lanes lane seen : Nat) : Bool × Nat :=
  let m := seen ||| 2 ^ lane
  if lanes &&& m = lanes then (false, 0) else (true, m)

/-- An interval error on an active lane: at SPARE_THRESH within a window the lane fails, and the spare is asked for (R97, R118). -/
def intervalError (l : Fin 2) (lane : Nat) (s : State) : State :=
  let s := setLink l (setLane lane (addError s.clock)) s
  if (laneOf (linkOf l s) lane).intervalErr < spareThresh (linkOf l s) then s
  else askSpare l lane 0 3 (raiseFault .laneFail (linkSource l) lane s)

/-- An ALIGN on the standby spare: its data carry PRBS31, whose bit errors count over 1 s (R117). -/
def spareAligned (l : Fin 2) (lane : Nat) (scram : BitVec 23) (data : List Byte) (s : State) : State :=
  let n := laneOf (linkOf l s) lane
  let c := Checker.run_ 3 n.chk (bitsOfBytes (scramble scram data))
  let s := setLink l (setLane lane fun n => addSpareErrors s.clock c.errors { n with chk := { c with bits := 0, errors := 0 } }) s
  if 16 < ((laneOf (linkOf l s) lane).spareErrs.map (·.2)).sum then spareFails l s else s

/-- An ALIGN block on a lane of the host or twin link, with the scrambled data bytes received on it since the previous ALIGN (R96, R97, R107). -/
def alignReceived (l : Fin 2) (lane : Nat) (b data : List Byte) (s : State) : State :=
  let k := linkOf l s
  let n := laneOf k lane
  let bad := laneCheckBad n b data
  let up := k.stage = .up
  let s := setLink l (setLane lane fun n => { realign lane n with dirty := n.dirty || bad, verifyAt := if bad then s.clock else n.verifyAt }) s
  let s := if k.rxDiscard && n.use = .active then
      let d := endDiscard (laneMask l k fun n => n.use == .active) lane k.rxAligned
      setLink l (fun k => { k with rxDiscard := d.1, rxAligned := d.2 }) s
    else s
  let s := if bad then noteLane l lane (fun h => { h with intervalErr := satAdd 64 h.intervalErr 1 }) s else s
  if !up then s
  else if n.use = .active then (if bad then intervalError l lane s else s)
  else if n.use = .standby then spareAligned l lane n.scram data s
  else s

/-- An ALIGN block on a camera lane: deskew, and LANE_CHECK mismatches, four of which in a 1 ms window lose a link that is up (R309, R312). With WIDTH 2
verification begins at the fourth ALIGN. -/
def cameraAligned (lane : Nat) (b data : List Byte) (s : State) : State :=
  let n := nthOr s.audit.lanes lane {}
  let bad := laneCheckBad n b data
  let starts := n.lock && n.aligns + 1 == 4 && pnat s.audit.params 2 0 2 == 2
  let s := setBlockLane 2 lane (fun n =>
    let n := { realign lane n with aligns := if n.lock then n.aligns + 1 else 0, train2 := if n.train2 < 8 then 0 else n.train2 }
    let n := if bad then { addError s.clock n with dirty := true, verifyAt := s.clock } else n
    if starts then { n with verifyAt := s.clock } else n) s
  let s := if s.audit.rxDiscard && bitOf s.audit.laneUp lane then
      let d := endDiscard s.audit.laneUp lane s.audit.rxAligned
      { s with audit := { s.audit with rxDiscard := d.1, rxAligned := d.2 } }
    else s
  if bad then noteBlockLane 2 lane (fun h => { h with intervalErr := satAdd 64 h.intervalErr 1 }) s else s

/-- ALIGN_RECEIVED (R97). -/
def execAlignReceived (l : Fin 3) (lane : Fin 9) (b data : List Byte) (s : State) : Host.Outcome State Fault Refusal :=
  .next (if deaf l lane.val s then s
    else if !blockGood b 0xA5 then countInvalid l lane.val s
    else if h : l.val < 2 then alignReceived ⟨l.val, h⟩ lane.val b data s
    else cameraAligned lane.val b data s)

/-- SKIP_RECEIVED (R96): a good SKIP block is deleted or inserted for clock compensation and changes nothing else. -/
def execSkipReceived (l : Fin 3) (lane : Fin 9) (b : List Byte) (s : State) : Host.Outcome State Fault Refusal :=
  .next (if blockGood b 0x99 || deaf l lane.val s then s else countInvalid l lane.val s)

/-- EIDLE_RECEIVED (R105): the partner's EIDLE is a link reset; in EQUALISE it is the rate change of R99. -/
def execEidleReceived (l : Fin 2) (s : State) : Host.Outcome State Fault Refusal :=
  match (linkOf l s).stage with
  | .detect | .lock | .align | .up | .active => .next (linkReset l 4 s)
  | .retrain => .next (linkReset l 4 (bgEnd (.retrain l.val) s))
  | .equalise | .down | .wait => .next s

/-- The data blocks that a lane sends in a number of clocks at the link's rate, as far as an interval goes (R86, R96). -/
def blocksIn (k : Link) (clocks : Nat) : Nat := min 4096 (clocks * mbaud k.rate / 104000)

/-- The data bytes of a lane in an interval, as it sends them: its units of the frame stream, or PRBS31 on the standby spare, scrambled. A spare that took
over a lane in this interval sent PRBS31 before (R94, R107, R117, R119). -/
def sentData (l : Fin 2) (k : Link) (units : List Byte) (lane : Nat) : List Byte :=
  let u := txRole l k lane
  let prbs (blocks : Nat) : List Byte := bytesOfBits (16 * blocks) (patternBits 3 (128 * blocks) (laneOf k lane).gen).1
  let carried := laneData k.width u.2 units
  scramble (scramSeed lane)
    (if u.1 = .standby then prbs 4096
     else match k.txSwitchAt with
       | some c => if lane = spareLane l then let n := blocksIn k (c - k.alignAt); prbs n ++ carried.drop (16 * n) else carried
       | none => carried)

/-- ALIGN_SKIP_INTERVAL (R96): after 4096 data blocks ALIGN and then SKIP go out on every lane that carries a logical lane or stands by. The idle units
before each frame of the interval are given; LANE_CHECK and NEXT_FRAME follow from the frames sent (R97, R107). -/
def execAlignSkipInterval (l : Fin 2) (gaps : List Nat) (s : State) : Host.Outcome State Fault Refusal :=
  let k := linkOf l s
  if k.linkUp && k.stage = .up then
    let frames := k.txFrames.zipIdx.map fun e => (gaps.getD e.2 0, e.1)
    let p := placeFrames (16384 * k.width) ((0, k.txRest) :: frames)
    let s := sendAlignSet l (p.2.1.length / 4) (fun i => crc16 (sentData l k p.1 i)) s
    let s := sendBlock l skipBlock s
    .next (setLink l (fun k => setLane (spareLane l)
      (fun n => if n.use = .standby then { n with gen := (patternBits 3 524288 n.gen).2 } else n)
      { k with txRest := p.2.1, txFrames := p.2.2, alignAt := s.clock, txSwitchAt := none }) s)
  else .next s

/-- An active lane asks for the spare or starts a retrain; the standby spare becomes unusable (R117, R118). -/
def laneLockLost (l : Fin 2) (lane : Nat) (s : State) : State :=
  let k := linkOf l s
  let s := setLink l (setLane lane fun n => { n with lock := false }) s
  if k.stage = .up then
    let s := noteLane l lane (fun h => { h with lastFail := s.time.tb.toNat }) s
    match (laneOf k lane).use with
    | .active => askSpare l lane 0 (if k.spareFor = 0xF then 2 else 3) (raiseFault .laneFail (linkSource l) lane s)
    | .standby => spareFails l s
    | _ => s
  else s

/-- LANE_LOCK_LOST (R118). -/
def execLaneLockLost (l : Fin 2) (lane : Fin 9) (s : State) : Host.Outcome State Fault Refusal := .next (laneLockLost l lane.val s)

/-! ## ACK, NAK and replay (R114, R115) -/

/-- An ACK or a NAK carrying a sequence count; one that falls due during a spare switch is sent after SWITCH (R119). -/
def sendAckNak (l : Fin 2) (nak : Bool) (sq : Nat) (s : State) : State :=
  if (linkOf l s).spare.isSome then
    setLink l (fun k => if nak then { k with nakDue := true } else { k with ackDue := true }) s
  else sendFrame l (linkFrameBytes (leBytes 1 (if nak then 0x81 else 0x80) ++ [0] ++ leBytes 2 (sq % 4096) ++ zeros 4)) s

/-- The count before a sequence count, modulo 2³². -/
def before (e : Nat) : Nat := (e + 2 ^ 32 - 1) % 2 ^ 32

/-- Unacknowledged frames sent again, in order; CRC_CORRUPT spoils them as it does new ones (R115, R123). -/
def replayFrames (l : Fin 2) : List (Nat × TxMsg) → State → State
  | [], s => s
  | e :: es, s =>
    let spoil := decide (0 < (linkOf l s).corrupt)
    replayFrames l es (setLink l (fun k => { k with corrupt := k.corrupt - 1 }) (sendFrame l (frameBytes e.1 e.2 spoil) s))

/-- Every unacknowledged frame is sent again; the fourth replay in a row without ACK progress is the last before a recovery retrain (R115). During a
spare switch the replay waits for SWITCH (R119). -/
def replay (l : Fin 2) (s : State) : State :=
  let k := linkOf l s
  if k.unacked.isEmpty then s
  else if k.spare.isSome then setLink l (fun k => { k with replayDue := true }) s
  else if 4 ≤ k.replaysInRow then startRetrain l 1 s
  else replayFrames l k.unacked (setLink l (fun k => { k with replays := wrapAdd 64 k.replays 1, replaysInRow := k.replaysInRow + 1 }) s)

/-! ## The spare switch (R119, R121) -/

/-- What fell due during a switch is sent after SWITCH: NAK, ACK, CREDIT and the replay (R119). -/
def sendDue (l : Fin 2) (s : State) : State :=
  let k := linkOf l s
  let s := setLink l (fun k => { k with ackDue := false, nakDue := false, creditDue := false, replayDue := false }) s
  let s := if k.nakDue then sendAckNak l true (before k.expect) s else s
  let s := if k.ackDue then sendAckNak l false (before k.expect) s else s
  let s := if k.creditDue then sendCredits l s else s
  if k.replayDue then replay l s else s

/-- The switch is made once SWITCH has been both sent and received. -/
def endSwitch (l : Fin 2) (s : State) : State :=
  let k := linkOf l s
  match k.spare with
  | none => s
  | some w =>
    if w.sentSwitch && w.gotSwitch then
      let lg := (laneOf k w.lane).logical
      let errs := (laneOf k w.lane).intervalErr
      let s := setLink l (fun k =>
        { setLane (spareLane l) (fun n => { n with use := .active, logical := lg, intervalErr := 0 })
            (setLane w.lane (fun n => { n with use := .failed, logical := 0xE }) k) with spareFor := w.lane, spare := none }) s
      let s := noteLanes l (fun i h =>
        { h with
          spareEvents := satAdd 32 h.spareEvents (if i = w.lane ∨ i = spareLane l then 1 else 0)
          lastFail := if i = w.lane then s.time.tb.toNat else h.lastFail }) s
      sendDue l (evLaneSpare l 1 w.lane w.byWhom errs s)
    else s

/-- This part sends SWITCH, after which its transmitter carries the failed lane on the spare. -/
def sendSwitch (l : Fin 2) (lane : Nat) (s : State) : State :=
  endSwitch l (setLink l (fun k => { k with spare := k.spare.map (fun w => { w with sentSwitch := true }), txSwitchAt := some s.clock })
    (sendSpare l 3 lane s))

/-- A REQ taken as responder: ACK, then SWITCH. -/
def grantSpare (l : Fin 2) (lane : Nat) (s : State) : State :=
  sendSwitch l lane (sendSpare l 2 lane (beginSwitch l { lane := lane, byWhom := 1 } s))

/-- SPARE_REQ (R119, R121): the failed physical lane the partner names. -/
def spareReq (l : Fin 2) (lane : Nat) (s : State) : State :=
  let k := linkOf l s
  if k.stage ≠ .up then s
  else match k.spare with
    | some w =>
      if w.byWhom = 1 || w.sentSwitch then s
      else if lane < w.lane then grantSpare l lane s
      else if lane = w.lane then sendSwitch l lane s
      else s
    | none =>
      if spareFree l k && (laneOf k lane).use = .active then grantSpare l lane s else sendSpare l 4 lane s

/-- SPARE_REQ (R119). -/
def execSpareReq (l : Fin 2) (lane : Fin 9) (s : State) : Host.Outcome State Fault Refusal := .next (spareReq l lane.val s)

/-- SPARE_ACK (R119): the requester sends SWITCH. -/
def execSpareAck (l : Fin 2) (s : State) : Host.Outcome State Fault Refusal :=
  match (linkOf l s).spare with
  | some w => .next (if w.byWhom ≠ 1 && !w.sentSwitch then sendSwitch l w.lane s else s)
  | none => .next s

/-- SPARE_REFUSE (R119): the failure is handled by a recovery retrain. -/
def execSpareRefuse (l : Fin 2) (s : State) : Host.Outcome State Fault Refusal :=
  match (linkOf l s).spare with
  | some w => .next (if w.byWhom ≠ 1 then startRetrain l 3 (setLink l (fun k => { k with spare := none }) s) else s)
  | none => .next s

/-- SPARE_SWITCH (R119): the receiver takes the failed lane's logical lane from the spare. -/
def execSpareSwitch (l : Fin 2) (s : State) : Host.Outcome State Fault Refusal :=
  .next (endSwitch l (setLink l (fun k => { k with spare := k.spare.map fun w => { w with gotSwitch := true } }) s))

/-! ## Transaction frames received (R107 to R109, R114) -/

/-- The header of a transaction frame (Table 4.8). -/
structure FrameHeader where
  ftype : Nat
  be : Nat
  seqField : Nat
  len : Nat
  tag : Nat
  addr : Nat
deriving DecidableEq, Repr

/-- The header in a frame's bytes. -/
def frameHeader (f : List Byte) : FrameHeader :=
  { ftype := uAt f 0 1, be := uAt f 1 1, seqField := uAt f 2 2, len := uAt f 4 2, tag := uAt f 6 2, addr := uAt f 8 8 }

/-- The payload of a frame. -/
def framePayload (f : List Byte) : List Byte := (f.drop 16).take (uAt f 4 2)

/-- The transaction types that this part receives on a link, those of the other direction or of the other link, and the link frames (Tables 4.7 and
15.4). On the twin link a host-link type is a protocol error (R435). -/
def typesIn (l : Fin 2) : List Nat := if l = 0 then [0x01, 0x02, 0x04, 0x05] else [0x20, 0x21, 0x22]
def typesWrong (l : Fin 2) : List Nat := if l = 0 then [0x03, 0x06, 0x07] else [0x01, 0x02, 0x03, 0x04, 0x05, 0x06, 0x07]
def typesLink : List Nat := [0x80, 0x81, 0x82]

/-- The full sequence count of a frame by its low 12 bits, within E − 2047 to E + 2047 (R114). -/
def fullSeq (expect low : Nat) : Option Nat :=
  let d := (low % 4096 + 4096 - expect % 4096) % 4096
  if d < 2048 then some ((expect + d) % 2 ^ 32)
  else if d = 2048 then none
  else some ((expect + 2 ^ 32 - (4096 - d)) % 2 ^ 32)

/-- The CRC of R108 holds, with the sequence count the frame stands for. -/
def frameCrcOk (expect : Nat) (f : List Byte) : Option Nat :=
  let h := frameHeader f
  match fullSeq expect h.seqField with
  | some q => if f.length = 20 + h.len ∧ (crc32c (leBytes 4 q ++ f.take (16 + h.len))).toNat = uAt f (16 + h.len) 4 then some q else none
  | none => none

/-- NAK with E − 1 unless one is outstanding (R114). -/
def nakFrame (l : Fin 2) (s : State) : State :=
  if (linkOf l s).nakOut then s
  else
    let s := sendAckNak l true (before (linkOf l s).expect) (setLink l (fun k => { k with nakOut := true, nakSent := wrapAdd 32 k.nakSent 1 }) s)
    if l = 0 then touchGroup 5 s else s

/-- A framing error: data is discarded up to the next ALIGN set, and a NAK goes out as for a bad CRC (R107). -/
def framingError (l : Fin 2) (s : State) : State := nakFrame l (setLink l (fun k => { k with rxDiscard := true, rxAligned := 0 }) s)

/-- A protocol error: `ev.link_protocol` and a link reset (Table 4.9, R105). -/
def linkProtocol (l : Fin 2) (row ftype seqField len : Nat) (s : State) : State :=
  linkReset l 2 (emit { code := 0x1505, source := linkSource l, status := ftype,
                        payload := leBytes 1 l.val ++ leBytes 1 row ++ leBytes 2 seqField ++ leBytes 2 len ++ zeros 10 } s)

/-- The credit this part has advertised covers one more frame of a channel (R110, R111). -/
def withinCredit (v : Vc) (data : Nat) : Bool :=
  decide ((v.rxHdrLimit - (v.rxHdrUsed + 1)).toNat < 128) && decide ((v.rxDataLimit - (v.rxDataUsed + BitVec.ofNat 16 data)).toNat < 32768)

/-- A frame that arrives where one of a type on a channel is looked for: framing, CRC, protocol, sequence and credit in the order of Table 4.9; an
accepted frame is acknowledged and acted on (R107, R109, R114, R115). A frame of another type of this direction is another row's. -/
def receiveFrame (l : Fin 2) (ftype vc : Nat) (legal : FrameHeader → Bool) (act : FrameHeader → List Byte → State → State) (f : List Byte)
    (s : State) : State :=
  let k := linkOf l s
  let h := frameHeader f
  if !(k.linkUp && k.stage = .up) || k.rxDiscard then s
  else if !(typesIn l ++ typesWrong l ++ typesLink).contains h.ftype then framingError l s
  else if h.ftype ≠ ftype && !(typesWrong l).contains h.ftype then s
  else match frameCrcOk k.expect f with
    | none => nakFrame l s
    | some q =>
      if h.ftype ≠ ftype || 4096 ≤ h.seqField || h.len % 4 ≠ 0 || !legal h then linkProtocol l 3 h.ftype h.seqField h.len s
      else if q ≠ k.expect then
        if (q + 2 ^ 32 - k.expect) % 2 ^ 32 < 2 ^ 31 then nakFrame l s else sendAckNak l false (before k.expect) s
      else if !withinCredit (nthOr k.vc vc {}) (ceilDiv h.len 16) then linkProtocol l 4 h.ftype h.seqField h.len s
      else
        let s := setLink l (fun k => { k with
          expect := (k.expect + 1) % 2 ^ 32, nakOut := false, nakDue := false
          vc := updAt k.vc vc fun v => { v with rxHdrUsed := v.rxHdrUsed + 1, rxDataUsed := v.rxDataUsed + BitVec.ofNat 16 (ceilDiv h.len 16) } }) s
        act h (framePayload f) (sendAckNak l false k.expect s)

/-! ## Frames of the twin link (R435) -/

/-- The records in the payload of a MIRROR frame, by the sizes of Table 15.5; the first argument bounds them. From a KIND that the table has not, or a
record cut short, nothing more is taken (DESIGN CHOICE, log 56). -/
def mirrorRecords : Nat → List Byte → List (List Byte)
  | 0, _ => []
  | n + 1, p =>
    let k := uAt p 0 1
    let len := if k = 4 then 64 else if k = 5 then 32 else 16
    if k = 0 || decide (5 < k) || decide (p.length < len) then [] else p.take len :: mirrorRecords n (p.drop len)

/-- The header fields that are zero on the twin link (R435). -/
def twinHeader (h : FrameHeader) : Bool := h.be == 0 && h.tag == 0 && h.addr == 0

/-- A MIRROR frame accepted: its records wait to be acted on in their order. No bytes stand for the records that wait already. -/
def acceptMirror (f : List Byte) (s : State) : State :=
  if f.isEmpty then s
  else receiveFrame 1 0x22 1 (fun h => twinHeader h && decide (16 ≤ h.len) && decide (h.len ≤ 4096))
    (fun _ p s => setLink 1 (fun k => { k with rxMirror := k.rxMirror ++ mirrorRecords 256 p }) s) f s

/-- A LEASE frame accepted: its message waits to be acted on. -/
def acceptLease (f : List Byte) (s : State) : State :=
  if f.isEmpty then s
  else receiveFrame 1 0x21 2 (fun h => twinHeader h && h.len == 8) (fun _ p s => setLink 1 (fun k => { k with rxLease := k.rxLease ++ [p] }) s) f s

/-! ## Completions and link frames -/

/-- COMPLETION_SEND (R112): a held completion, interrupt message or twin message goes out once credit admits it, never while a spare switch
holds frames (R119) and never past the bounds of R116. -/
def execCompletionSend (l : Fin 2) (s : State) : Host.Outcome State Fault Refusal := .next (sendNext l s)

/-- A link frame is 12 bytes with a good CRC (R108). -/
def linkFrameGood (f : List Byte) (type : Nat) : Bool :=
  f.length == 12 && uAt f 0 1 == type && (crc32c (f.take 8)).toNat == uAt f 8 4

/-- A link frame with a wrong CRC is discarded and counted (Table 4.9 row 2). -/
def badLinkFrame (l : Fin 2) (s : State) : State :=
  let s := setLink l (fun k => { k with linkCrc := wrapAdd 32 k.linkCrc 1 }) s
  if l = 0 then touchGroup 5 s else s

/-- The reserved bits of a link frame are zero (Table 4.10). -/
def linkFrameClear (f : List Byte) : Bool :=
  if uAt f 0 1 = 0x82 then uAt f 3 1 == 0 && uAt f 6 2 == 0 else uAt f 1 1 == 0 && decide (uAt f 2 2 < 4096) && uAt f 4 4 == 0

/-- A link frame in the order of Table 4.9: a wrong CRC is row 2, a reserved bit that is not zero is row 3. -/
def receiveLinkFrame (l : Fin 2) (type : Nat) (act : State → State) (f : List Byte) (s : State) : State :=
  let k := linkOf l s
  if !(k.linkUp || k.stage = .active) || k.rxDiscard || k.stage = .retrain then s
  else if !linkFrameGood f type then badLinkFrame l s
  else if !linkFrameClear f then linkProtocol l 3 type (if type = 0x82 then 0 else uAt f 2 2) 0 s
  else act s

/-- Frames up to the one with these low 12 bits are freed, if it is among the unacknowledged (R115). -/
def freeAcked (low : Nat) (k : Link) : Link :=
  match k.unacked.findIdx? fun e => e.1 % 4096 == low with
  | some i => { k with unacked := k.unacked.drop (i + 1), replaysInRow := 0 }
  | none => k

/-- ACK_RECEIVED (R115): the 12 bytes of the frame. -/
def execAckReceived (l : Fin 2) (f : List Byte) (s : State) : Host.Outcome State Fault Refusal :=
  .next (receiveLinkFrame l 0x80 (setLink l (freeAcked (uAt f 2 2 % 4096))) f s)

/-- NAK_RECEIVED (R115): the frames up to the one named are freed and every later one is replayed. -/
def execNakReceived (l : Fin 2) (f : List Byte) (s : State) : Host.Outcome State Fault Refusal :=
  .next (receiveLinkFrame l 0x81 (fun s =>
    let s := setLink l (fun k => freeAcked (uAt f 2 2 % 4096) { k with nakReceived := wrapAdd 32 k.nakReceived 1 }) s
    replay l (if l = 0 then touchGroup 5 s else s)) f s)

/-- REPLAY_TIMEOUT (R115): 8 µs without ACK progress while frames are unacknowledged. -/
def execReplayTimeout (l : Fin 2) (s : State) : Host.Outcome State Fault Refusal :=
  .next (if (linkOf l s).linkUp && (linkOf l s).stage = .up then replay l s else s)

/-- CREDIT_RECEIVED (R111): the limits of a channel. A frame that names a VC of 3 or more is ignored (DESIGN CHOICE, log 55): Table 4.10 gives VC as 0,
1 or 2 and no action for another. -/
def execCreditReceived (l : Fin 2) (f : List Byte) (s : State) : Host.Outcome State Fault Refusal :=
  .next (receiveLinkFrame l 0x82 (setLink l fun k => { k with vc := updAt k.vc (uAt f 1 1) fun v =>
    { v with txHdrLimit := BitVec.ofNat 8 (uAt f 2 1), txDataLimit := BitVec.ofNat 16 (uAt f 4 2), gotCredit := true } }) f s)

/-- CREDIT_UPDATE_TIMER (R111): a CREDIT frame for every channel, after SWITCH where a spare switch is under way (R119). -/
def execCreditUpdateTimer (l : Fin 2) (s : State) : Host.Outcome State Fault Refusal :=
  let k := linkOf l s
  .next (if !(k.linkUp && k.stage = .up) then s
    else if k.spare.isSome then setLink l (fun k => { k with creditDue := true }) s
    else sendCredits l s)

/-! ## Commands (18.9) -/

/-- The parameters of `link.config` (Table 18.5). -/
def linkSpecs (l : Fin 2) : List PSpec :=
  [⟨1, 1, 1, fullWidth l, none⟩, ⟨2, 1, 0, 255, some 255⟩, ⟨3, 1, 0, 1, some 0⟩, ⟨4, 1, 0, 255, some 255⟩, ⟨5, 1, 0, 1, some 0⟩,
    ⟨6, 1, 0, 8, some 4⟩, ⟨7, 1, 0, 16, some 4⟩, ⟨8, 1, 1, 255, some 4⟩]

/-- Relations and enumerations of `link.config`: MIN_W a width, PEAKING and PARTNER_PRESET in their ranges, R90. -/
def linkRelation (ps : ParamSet) : Option (List Nat) :=
  let w := pnat ps 1 0 1
  if !(w = 8 || w = 4 || w = 2 || w = 1) then some [1]
  else if 15 < pnat ps 2 0 255 ∧ pnat ps 2 0 255 ≠ 255 then some [2]
  else if 9 < pnat ps 4 0 255 ∧ pnat ps 4 0 255 ≠ 255 then some [4]
  else if !legalCoeff (pnat ps 6 0 4) (pnat ps 7 0 4) then some [6, 7]
  else none

/-- LINK_CONFIG (R92): settings that take effect at the next bring-up or recovery retrain. -/
def linkConfig (p : List Byte) (s : State) : Reply × State :=
  if h : listTarget p 0 < 2 then
    let l : Fin 2 := ⟨listTarget p 0, h⟩
    match judgeList (linkSpecs l) linkRelation (linkOf l s).params (listItems p 0) with
    | .error d => refuse .badArg d s
    | .ok m => okWith [] (setLink l (fun k => { k with params := m }) s)
  else refuse .badArg 0 s

/-- LINK_CONFIG (R92). -/
def execLinkConfig (s : State) : Host.Outcome State Fault Refusal := .next (runCommand 0x1501 linkConfig s)

/-- LINK_RETRAIN (R104): BAD_STATE while the link is not up. -/
def linkRetrain (p : List Byte) (s : State) : Reply × State :=
  if h : uAt p 0 1 < 2 then
    let l : Fin 2 := ⟨uAt p 0 1, h⟩
    if (linkOf l s).stage = .up then okWith [] (startRetrain l 4 s) else refuse .badState 0 s
  else refuse .badArg 0 s

/-- LINK_RETRAIN (R104). -/
def execLinkRetrain (s : State) : Host.Outcome State Fault Refusal := .next (runCommand 0x1502 linkRetrain s)

/-- LINK_SPARE (R118): BAD_STATE when R118 forbids the request. -/
def linkSpare (p : List Byte) (s : State) : Reply × State :=
  if h : uAt p 0 1 < 2 then
    let l : Fin 2 := ⟨uAt p 0 1, h⟩
    let lane := uAt p 1 1
    if laneCount l ≤ lane then refuse .badArg 1 s
    else if spareFree l (linkOf l s) && (laneOf (linkOf l s) lane).use = .active then okWith [] (askSpare l lane 2 3 s)
    else refuse .badState 0 s
  else refuse .badArg 0 s

/-- LINK_SPARE (R118). -/
def execLinkSpare (s : State) : Host.Outcome State Fault Refusal := .next (runCommand 0x1503 linkSpare s)

/-- USABLE of `link.status`: the lanes that hold lock and are neither failed, unusable nor in a test (R100, R117, R124). -/
def statusUsable (l : Fin 2) (k : Link) : Nat :=
  laneMask l k fun n => n.lock && !n.wrongId && n.use != .test && n.use != .failed && n.use != .spareBad

/-- LINK_STATUS (R522). -/
def linkStatus (p : List Byte) (s : State) : Reply × State :=
  if h : uAt p 0 1 < 2 then
    let l : Fin 2 := ⟨uAt p 0 1, h⟩
    let k := linkOf l s
    okWith (leBytes 1 (bitAt k.linkUp 0) ++ leBytes 1 k.rate ++ leBytes 1 k.width ++ leBytes 1 k.spareFor ++ leBytes 2 (laneUp k) ++
      leBytes 2 (statusUsable l k) ++ leBytes 4 k.retrains ++ leBytes 4 k.resets ++ leBytes 8 k.replays) s
  else refuse .badArg 0 s

/-- LINK_STATUS (R522). -/
def execLinkStatus (s : State) : Host.Outcome State Fault Refusal := .next (runCommand 0x1505 linkStatus s)

/-! ### Tests of a lane (R122 to R125) -/

/-- An operation is allowed on a lane (R124): in SERVICE all are. Outside it an active lane allows none; the standby spare runs patterns other than
PRBS31 and margining, and a lane in a test can be read, injected into and stopped. -/
def testAllowed (l : Fin 2) (lane op pattern : Nat) (s : State) : Bool :=
  let u := (laneOf (linkOf l s) lane).use
  s.sys.mode = .service ||
    (lane == spareLane l && (u == .standby || u == .test) && (op == 0 || op == 2 || op == 5 || op == 6 || op == 8 || (op == 1 && pattern != 3))) ||
    (u == .test && (op == 0 || op == 2 || op == 5 || op == 6))

/-- The test of a lane changed. -/
def setTest (l : Fin 2) (lane : Nat) (f : LaneTest → LaneTest) (s : State) : State := setLink l (setLane lane fun n => { n with test := f n.test }) s

/-- A lane in a test leaves the link; an active one makes the link narrow by a recovery retrain (R124). -/
def enterTest (l : Fin 2) (lane : Nat) (f : LaneTest → LaneTest) (s : State) : State :=
  let was := (laneOf (linkOf l s) lane).use
  let s := setTest l lane f (setLink l (setLane lane fun n => { n with use := .test }) s)
  if was = .active then startRetrain l 3 s else s

/-- A pattern begins at its start, with the checker not locked and its counts clear (R122). -/
def LaneTest.begin (pattern : Nat) (framed : Bool) (t : LaneTest) : LaneTest :=
  { t with pattern := pattern, framed := framed, running := true, gen := patternStart pattern, sent := 0, chk := {}, txPos := 0, txBits := []
           txScram := 0, txCheck := 0xFFFF, rxBits := [], rxSeen := false, rxScram := 0, rxCheck := 0xFFFF }

/-- A lane leaves its test: injection and loopback end and the sampling point is restored (R123, R125). The lane then idles, or stands by again when it
is the spare of a link at full width that does not use it (DESIGN CHOICE, log 55): R124 does not say what it does. A spare that was unusable stays so
(R117). -/
def leaveTest (l : Fin 2) (lane : Nat) (s : State) : State :=
  let k := linkOf l s
  let back : LaneUse := if (laneOf k lane).unusable then .spareBad else if lane = spareLane l && k.width = fullWidth l && k.spareFor = 0xF && (laneOf k lane).lock then .standby else .unused
  setLink l (setLane lane fun n => { n with
    use := if n.use = .test then back else n.use
    test := { n.test with running := false, loopNear := false, loopFar := false, injectOne := false, injectRate := none
                          margin := false, phase := 0, thresh := 0 } }) s

/-- The bits that a lane under test receives taken by its checker; in a framed pattern an invalid block and a LANE_CHECK mismatch count as on any lane
(R95, R97, R122). -/
def hearTest (l : Fin 2) (lane : Nat) (got : List Bool) (s : State) : State :=
  let x := (laneOf (linkOf l s) lane).test.hears lane got
  noteLane l lane (fun h => { h with invalid := satAdd 64 h.invalid x.2.1, intervalErr := satAdd 64 h.intervalErr x.2.2 })
    (setLink l (setLane lane fun n => { n with test := x.1, invalid := n.invalid + x.2.1 }) s)

/-- The bits that a lane under test sends and receives while as many as are given arrive: in far-end loopback it sends what it receives, in near-end
loopback it receives what it sends (R124). -/
def runTest (l : Fin 2) (lane : Nat) (rx : List Bool) (s : State) : State :=
  let k := linkOf l s
  let n := laneOf k lane
  let x := n.test.line lane n.logical k.alignCount.toNat rx.length
  let tx := if n.test.loopFar then rx else x.1
  let got := if n.test.loopNear then x.1 else rx
  let s := hearTest l lane got (setTest l lane (fun _ => x.2) s)
  if h : lane < 9 then send (.linkPattern l ⟨lane, h⟩) (bytesOfBits (ceilDiv tx.length 8) tx) s else s

/-- The response of `link.test`: the counts of a checker. -/
def testCounts (c : Checker) : List Byte := leBytes 8 c.bits ++ leBytes 4 c.errors ++ leBytes 1 (bitAt c.locked 0) ++ zeros 3

/-- Margining at a point (R125): the standby spare goes on with its PRBS31 and stands by, another lane sends the framed pattern. Bits of the dwell beyond
those given arrive right. The sampling point stays moved until `link.test` STOP or a spare switch (DESIGN CHOICE, log 55): no rule says that it returns
after the dwell. How the eye of the lane history follows from the points is not stated: its width and height are free values (log 3). -/
def linkMargin (l : Fin 2) (lane : Nat) (rx : List Bool) (p : List Byte) (s : State) : Reply × State :=
  let dwell := uAt p 8 8
  let spare := (laneOf (linkOf l s) lane).use = .standby
  let point (t : LaneTest) : LaneTest := { t with margin := true, phase := iAt p 6 1, thresh := iAt p 7 1 }
  let s := if spare then setTest l lane (fun t => point (t.begin 3 true)) s else enterTest l lane (fun t => point (t.begin (uAt p 3 1) true)) s
  let s := if spare then hearTest l lane (rx.take dwell) s else runTest l lane (rx.take dwell) s
  let c := (laneOf (linkOf l s) lane).test.chk
  let s := noteLane l lane (fun h => { h with marginW := Config.freeNat s.free % 65536, marginH := Config.freeNat (s.free + 1) % 65536 })
    { s with free := s.free + 2 }
  okWith (testCounts { c with bits := min dwell (2 ^ 48 - 1) }) s

/-- The first byte of a `link.test` payload that is out of range, for a LANE of the link (R523). -/
def testBad (p : List Byte) : Option Nat :=
  let op := uAt p 2 1
  if 8 < op then some 2
  else if (op = 1 ∨ op = 8) ∧ 4 < uAt p 3 1 then some 3
  else if (op = 1 ∨ op = 8) ∧ 1 < uAt p 4 1 then some 4
  else if op = 6 ∧ (uAt p 5 1 < 10 ∨ 40 < uAt p 5 1) then some 5
  else if op = 7 ∧ uAt p 5 1 = 0 then some 5
  else if op = 8 ∧ (iAt p 6 1 < -32 ∨ 32 < iAt p 6 1) then some 6
  else if op = 8 ∧ (iAt p 7 1 < -63 ∨ 63 < iAt p 7 1) then some 7
  else if op = 8 ∧ (uAt p 8 8 < 1000000 ∨ 1000000000000 < uAt p 8 8) then some 8
  else none

/-- An operation of `link.test` that is allowed; one that starts nothing and reads nothing answers the counts as they stand. -/
def doTest (l : Fin 2) (lane : Nat) (rx : List Bool) (p : List Byte) (s : State) : Reply × State :=
  let c := (laneOf (linkOf l s) lane).test.chk
  match uAt p 2 1 with
  | 0 => okWith (testCounts c) (leaveTest l lane s)
  | 1 => okWith (testCounts {}) (enterTest l lane (·.begin (uAt p 3 1) (uAt p 4 1 = 1)) s)
  | 2 =>
    let s := runTest l lane rx s
    okWith (testCounts (laneOf (linkOf l s) lane).test.chk) (setTest l lane (fun t => { t with chk := { t.chk with bits := 0, errors := 0 } }) s)
  | 3 => okWith (testCounts c) (enterTest l lane (fun t => { t with loopNear := true }) s)
  | 4 => okWith (testCounts c) (enterTest l lane (fun t => { t with loopFar := true }) s)
  | 5 => okWith (testCounts c) (setTest l lane (fun t => { t with injectOne := true }) s)
  | 6 => okWith (testCounts c) (setTest l lane (fun t => { t with injectRate := some (uAt p 5 1) }) s)
  | 7 => okWith (testCounts {}) (setLink l (fun k => { k with corrupt := uAt p 5 1 }) s)
  | _ => linkMargin l lane rx p s

/-- LINK_TEST (R122 to R125, R523): the bits are those received on the lane up to a READ, or during the dwell of a MARGIN. -/
def linkTest (rx : List Bool) (p : List Byte) (s : State) : Reply × State :=
  if h : uAt p 0 1 < 2 then
    let l : Fin 2 := ⟨uAt p 0 1, h⟩
    let lane := uAt p 1 1
    if laneCount l ≤ lane then refuse .badArg 1 s
    else match testBad p with
      | some d => refuse .badArg d s
      | none =>
        if !testAllowed l lane (uAt p 2 1) (uAt p 3 1) s || (uAt p 2 1 == 7 && l != 0) then refuse .badState 0 s else doTest l lane rx p s
  else refuse .badArg 0 s

/-- LINK_TEST (R122). -/
def execLinkTest (rx : List Bool) (s : State) : Host.Outcome State Fault Refusal := .next (runCommand 0x1504 (linkTest rx) s)

end Sys2Proof.Machine
end

