-- ==== Sys2Proof/Machine/Inflate.lean ====
section
/-! DEFINITION. The DEFLATE subset of R137: an inflater as a machine of small steps, which stops before an incomplete code (R151), at the
end of its output space (R151), at its declared length (R152) and at an error of Table 5.4, and goes on from where it stopped. -/
namespace Sys2Proof.Machine

/-! ## Canonical Huffman codes -/

/-- The code that a list of code lengths by symbol gives: how many codes each length from 1 to 15 has, and the symbols in code order. -/
def huffOf (ls : List Nat) : Huff :=
  { counts := (List.range 15).map fun k => (ls.filter (· == k + 1)).length
    syms := (List.range 15).flatMap fun k => (ls.zipIdx.filter fun e => e.1 == k + 1).map (·.2) }

/-- Codes of a length are left over, none, or one too many: what remains of the code space at length 15. -/
def codeSpace (counts : List Nat) : Int := counts.foldl (fun (left : Int) (c : Nat) => 2 * left - (c : Int)) 1

/-- At no length are more codes given than there is room for. -/
def notOver (counts : List Nat) : Bool :=
  ((List.range counts.length).all fun k => decide (0 ≤ codeSpace (counts.take (k + 1))))

/-- A complete code (Table 5.4). -/
def Huff.complete (h : Huff) : Bool := notOver h.counts && codeSpace h.counts == 0

/-- Exactly one code, of length 1 (Table 5.4). -/
def Huff.single (h : Huff) : Bool := h.syms.length == 1 && h.counts.headD 0 == 1

/-- What reading one symbol gives. -/
inductive SymRead where
  | sym (v : Nat) (rest : List Bool)
  | short
  | bad
deriving DecidableEq, Repr

/-- A symbol read bit by bit; no code of the lengths left means that the bits read are no code. -/
def readSym (syms : List Nat) : List Nat → Nat → Nat → Nat → List Bool → SymRead
  | [], _, _, _, _ => .bad
  | c :: cs, code, first, index, bits =>
    if c = 0 ∧ cs.all (· == 0) then .bad
    else match bits with
      | [] => .short
      | b :: bs =>
        let v := code + (if b then 1 else 0)
        if v < first + c then .sym (syms.getD (index + (v - first)) 0) bs
        else readSym syms cs (2 * v) (2 * (first + c)) (index + c) bs

/-- A symbol of a code. -/
def Huff.read (h : Huff) (bits : List Bool) : SymRead := readSym h.syms h.counts 0 0 0 bits

/-- The fixed codes. -/
def fixedLit : Huff := huffOf (List.replicate 144 8 ++ List.replicate 112 9 ++ List.replicate 24 7 ++ List.replicate 8 8)
def fixedDist : Huff := huffOf (List.replicate 32 5)

/-- n bits, least significant first. -/
def takeBits : Nat → List Bool → Option (Nat × List Bool)
  | 0, bs => some (0, bs)
  | _ + 1, [] => none
  | n + 1, b :: bs => (takeBits n bs).map fun r => ((if b then 1 else 0) + 2 * r.1, r.2)

/-- Base and extra bits of length symbol 257 + k, and of distance symbol k. -/
def lengthCode (k : Nat) : Nat × Nat := if k < 8 then (3 + k, 0) else if k = 28 then (258, 0) else ((4 + k % 4) * 2 ^ (k / 4 - 1) + 3, k / 4 - 1)
def distCode (k : Nat) : Nat × Nat := if k < 2 then (k + 1, 0) else ((2 + k % 2) * 2 ^ (k / 2 - 1) + 1, k / 2 - 1)

/-- The order in which code-length code lengths are sent. -/
def clenOrder : List Nat := [16, 17, 18, 0, 8, 7, 9, 6, 10, 5, 11, 4, 12, 3, 13, 2, 14, 1, 15]

/-! ## The machine -/

/-- Why the inflater stops: output or input space, a table build, the declared length, an error of Table 5.6, or the end of the final block. -/
inductive IStop where
  | needOutput | needInput | build | limit | err (cause : Nat) | finished
deriving DecidableEq, Repr

/-- What bounds a run: RAW, the declared length, the output that fits in all, and the dynamic blocks whose tables may be built. -/
structure IBound where
  raw : Bool := false
  limit : Nat
  room : Nat
  builds : Option Nat := none
deriving DecidableEq, Repr

/-- Bits taken. -/
def Inf.took (x : Inf) (rest : List Bool) : Inf := { x with bits := rest, pos := x.pos + (x.bits.length - rest.length) }

/-- One byte put out. -/
def Inf.put (x : Inf) (b : Byte) : Inf := { x with out := b :: x.out, made := x.made + 1 }

/-- The end of a block. -/
def Inf.endBlock (x : Inf) : Inf := { x with phase := if x.final then .done else .hdr }

/-- A block header's three bits. -/
def iHeader (b : IBound) (x : Inf) : Inf × Option IStop :=
  match takeBits 3 x.bits with
  | none => (x, some .needInput)
  | some (v, rest) =>
    let y := { x.took rest with final := v % 2 == 1, btype := v / 2 }
    if b.raw && v / 2 != 0 then (x, some (.err 0x09))
    else match v / 2 with
      | 0 => ({ y with phase := .storedLen, types := x.types ||| 1 }, none)
      | 1 => ({ y with phase := .block fixedLit fixedDist, types := x.types ||| 2 }, none)
      | 2 => ({ y with phase := .counts, types := x.types ||| 4 }, none)
      | _ => (x, some (.err 0x01))

/-- LEN and NLEN of a stored block, after the pad bits. -/
def iStoredLen (x : Inf) : Inf × Option IStop :=
  let pad := (8 - x.pos % 8) % 8
  match takeBits 32 (x.bits.drop pad) with
  | none => (x, some .needInput)
  | some (v, rest) =>
    if v % 65536 + v / 65536 ≠ 65535 then (x, some (.err 0x02))
    else
      let y := x.took rest
      (if v % 65536 = 0 then y.endBlock else { y with phase := .stored (v % 65536) }, none)

/-- The three counts of a dynamic header (CODE_LENGTHS beyond 286 and 30). -/
def iCounts (b : IBound) (x : Inf) : Inf × Option IStop :=
  if (match b.builds with | some n => decide (n ≤ x.dyn) | none => false) then (x, some .build)
  else match takeBits 14 x.bits with
    | none => (x, some .needInput)
    | some (v, rest) =>
      let hlit := v % 32 + 257; let hdist := v / 32 % 32 + 1; let hclen := v / 1024 + 4
      if 286 < hlit ∨ 30 < hdist then (x, some (.err 0x03)) else ({ x.took rest with phase := .clens hlit hdist hclen [] }, none)

/-- One code-length code length; after the last, the code must be complete. -/
def iClens (hlit hdist n : Nat) (got : List Nat) (x : Inf) : Inf × Option IStop :=
  match takeBits 3 x.bits with
  | none => (x, some .needInput)
  | some (v, rest) =>
    let got := v :: got
    if got.length < n then ({ x.took rest with phase := .clens hlit hdist n got }, none)
    else
      let ls := (List.range 19).map fun k => match clenOrder.findIdx? (· == k) with | some i => got.reverse.getD i 0 | none => 0
      let h := huffOf ls
      if h.complete then ({ x.took rest with phase := .lens hlit hdist h [] }, none) else (x, some (.err 0x03))

/-- The two codes of a dynamic block, when Table 5.4 accepts them. -/
def dynCodes (hlit : Nat) (ls : List Nat) : Option (Huff × Huff) :=
  let l := huffOf (ls.take hlit); let d := huffOf (ls.drop hlit)
  if ls.getD 256 0 = 0 then none
  else if (l.complete || l.single) && (d.complete || d.single || d.syms.isEmpty) then some (l, d) else none

/-- One code-length symbol, with its repeats; after the last, the tables. -/
def iLens (hlit hdist : Nat) (cl : Huff) (got : List Nat) (x : Inf) : Inf × Option IStop :=
  let settle (got : List Nat) (rest : List Bool) : Inf × Option IStop :=
    if got.length < hlit + hdist then ({ x.took rest with phase := .lens hlit hdist cl got }, none)
    else if hlit + hdist < got.length then (x, some (.err 0x03))
    else match dynCodes hlit got.reverse with
      | none => (x, some (.err 0x03))
      | some (l, d) => ({ x.took rest with phase := .block l d, dyn := x.dyn + 1 }, none)
  match cl.read x.bits with
  | .bad => (x, some (.err 0x03))
  | .short => (x, some .needInput)
  | .sym v rest =>
    if v < 16 then settle (v :: got) rest
    else
      let (extra, base) := if v = 16 then (2, 3) else if v = 17 then (3, 3) else (7, 11)
      match v == 16 && got.isEmpty, takeBits extra rest with
      | true, _ => (x, some (.err 0x03))
      | _, none => (x, some .needInput)
      | _, some (k, rest) => settle (List.replicate (base + k) (if v = 16 then got.headD 0 else 0) ++ got) rest

/-- A literal, once its code is read (R152, R151). -/
def iLiteral (b : IBound) (x : Inf) (v : Nat) (rest : List Bool) : Inf × Option IStop :=
  if b.limit ≤ x.made then (x, some .limit)
  else if b.room ≤ x.made then (x, some .needOutput)
  else ((x.took rest).put (BitVec.ofNat 8 v), none)

/-- A match, once its length is read: the distance, and where the copy may begin (R137, R152, R151). -/
def iMatch (b : IBound) (l d : Huff) (len : Nat) (x : Inf) (rest : List Bool) : Inf × Option IStop :=
  if b.limit ≤ x.made then (x, some .limit)
  else if d.syms.isEmpty then (x, some (.err 0x04))
  else match d.read rest with
    | .bad => (x, some (.err 0x04))
    | .short => (x, some .needInput)
    | .sym k rest =>
      if 29 < k then (x, some (.err 0x04))
      else match takeBits (distCode k).2 rest with
        | none => (x, some .needInput)
        | some (e, rest) =>
          let dist := (distCode k).1 + e
          if x.made < dist then (x, some (.err 0x05))
          else if b.room ≤ x.made then (x, some .needOutput)
          else ({ x.took rest with phase := .copy len dist l d, far := max x.far dist }, none)

/-- One symbol of a Huffman block. -/
def iSymbol (b : IBound) (l d : Huff) (x : Inf) : Inf × Option IStop :=
  match l.read x.bits with
  | .bad => (x, some (.err 0x04))
  | .short => (x, some .needInput)
  | .sym v rest =>
    if v < 256 then iLiteral b x v rest
    else if v = 256 then ((x.took rest).endBlock, none)
    else if 285 < v then (x, some (.err 0x04))
    else match takeBits (lengthCode (v - 257)).2 rest with
      | none => (x, some .needInput)
      | some (e, rest) => iMatch b l d ((lengthCode (v - 257)).1 + e) x rest

/-- One byte of a match. -/
def iCopy (b : IBound) (left dist : Nat) (l d : Huff) (x : Inf) : Inf × Option IStop :=
  if b.limit ≤ x.made then (x, some .limit)
  else if b.room ≤ x.made then (x, some .needOutput)
  else
    let y := x.put (x.out.getD (dist - 1) 0)
    ({ y with phase := if left ≤ 1 then .block l d else .copy (left - 1) dist l d }, none)

/-- One byte of a stored block. -/
def iStored (b : IBound) (left : Nat) (x : Inf) : Inf × Option IStop :=
  if b.limit ≤ x.made then (x, some .limit)
  else if b.room ≤ x.made then (x, some .needOutput)
  else match takeBits 8 x.bits with
    | none => (x, some .needInput)
    | some (v, rest) =>
      let y := (x.took rest).put (BitVec.ofNat 8 v)
      (if left ≤ 1 then y.endBlock else { y with phase := .stored (left - 1) }, none)

/-- One step: a header item, a symbol, or a byte. -/
def iStep (b : IBound) (x : Inf) : Inf × Option IStop :=
  match x.phase with
  | .hdr => iHeader b x
  | .storedLen => iStoredLen x
  | .stored n => iStored b n x
  | .counts => iCounts b x
  | .clens hl hd n got => iClens hl hd n got x
  | .lens hl hd cl got => iLens hl hd cl got x
  | .block l d => iSymbol b l d x
  | .copy n k l d => iCopy b n k l d x
  | .done => (x, some .finished)

/-- Steps until the inflater stops; every step takes a bit or makes a byte, so the fuel of `inflate` lasts. -/
def iRun (b : IBound) : Nat → Inf → Inf × IStop
  | 0, x => (x, .needInput)
  | n + 1, x => match iStep b x with
    | (y, some r) => (y, r)
    | (y, none) => iRun b n y

/-- A run within its bounds from where the inflater stands. -/
def inflate (b : IBound) (x : Inf) : Inf × IStop := iRun b (x.bits.length + (b.room - x.made) + 2) x

/-- After the final block: nothing, or up to three bytes of zero (Table 5.4). -/
def trailingOk (x : Inf) : Bool :=
  let rest := x.bits.drop ((8 - x.pos % 8) % 8)
  decide (rest.length ≤ 24) && rest.all (!·)

/-- A stream from its first byte, with an empty history window. -/
def Inf.start (bs : List Byte) : Inf := { bits := bitsOfBytes bs }

/-- The bytes made so far, oldest first. -/
def Inf.bytes (x : Inf) : List Byte := x.out.reverse

end Sys2Proof.Machine
end

