-- ==== Sys2Proof/Machine/Slices.lean ====
section
/-! DEFINITION. Slices: the container (5.2), `slice.post` and its checks (R127, R133 to R135), the posted queue and its release (R136), the decoders'
assignment, sharing and output (R138 to R144), and decoders that leave and enter service (R34, R145 to R148). -/
namespace Sys2Proof.Machine

/-! ## The container -/

/-- The header and table of a slice (Tables 5.1 and 5.2). -/
def parseStream (t : List Byte) : Strm :=
  { head := uAt t 0 1, raw := bitOf (uAt t 1 1) 0, firstNoz := uAt t 2 2, nozzles := uAt t 4 2, offset := uAt t 8 4, compLen := uAt t 12 4
    decLen := uAt t 16 4, decCv := uAt t 20 4, compCv := uAt t 24 4 }

/-- The slice that a header and a stream table describe. -/
def parseSlice (addr len : Nat) (h t : List Byte) : Slice :=
  { addr := addr, len := len, flags := uAt h 5 1, bits := uAt h 6 1, job := uAt h 8 4, no := uAt h 12 4, first := uAt h 16 4, lines := uAt h 20 2
    hdrCv := uAt h 28 4, streams := (List.range (uAt h 7 1)).map fun i => parseStream (t.drop (32 * i)) }

def Slice.swathStart (q : Slice) : Bool := bitOf q.flags 0
def Slice.swathEnd (q : Slice) : Bool := bitOf q.flags 1
def Slice.layerEnd (q : Slice) : Bool := bitOf q.flags 2
def Slice.last (q : Slice) : Bool := bitOf q.flags 3
def Slice.notify (q : Slice) : Bool := bitOf q.flags 4

/-! ## Checks (Table 5.3) -/

/-- The strips of a head tile its nozzles from n on (R127), taken in order of FIRST_NOZ; the first argument bounds the strips. -/
def tiles (strips : List Strm) (stop : Nat) : Nat → Nat → Bool
  | 0, n => n == stop
  | k + 1, n =>
    if n = stop then true
    else match strips.find? fun x => x.firstNoz == n with
      | some x => tiles strips stop k (n + x.nozzles)
      | none => false

/-- R127 for every configured head. -/
def tilingOk (s : State) (xs : List Strm) : Bool :=
  (xs.all fun x => x.nozzles % 256 == 0 && x.firstNoz % 256 == 0 && decide (256 ≤ x.nozzles) && decide (x.nozzles ≤ 8192)) &&
    (portsOn s).all fun p =>
      let own := xs.filter fun x => x.head == p
      let n := 256 * slicesOf (nozzlesOf s p)
      decide (own.length ≤ 8) && (own.map (·.nozzles)).sum == n && tiles own n own.length 0

/-- LAYOUT: no stream is empty, misaligned, inside the table, beyond the slice, or over another. -/
def layoutOk (q : Slice) : Bool :=
  let table := 32 + 32 * q.streams.length
  (q.streams.all fun x => x.compLen != 0 && x.offset % 4 == 0 && decide (table ≤ x.offset) && decide (x.offset + x.compLen ≤ q.len)) &&
    q.streams.zipIdx.all fun x => q.streams.zipIdx.all fun y =>
      decide (y.2 ≤ x.2) || decide (x.1.offset + x.1.compLen ≤ y.1.offset) || decide (y.1.offset + y.1.compLen ≤ x.1.offset)

/-- The flags keep R135. -/
def flagsOk (s : State) (q : Slice) : Bool :=
  let wantStart := s.codec.needStart || s.codec.prevEnd
  q.swathStart == wantStart && (!q.layerEnd || q.swathEnd) && (!q.last || q.swathEnd)

/-- The largest LINES (R140). -/
def maxLines (s : State) : Nat := if s.sys.profile = .markhor then min 4096 (stagingDepth s / 2) else 4096

/-- The first failed check of Table 5.3 from HDR_CV on, over the header and the table. -/
def sliceError (s : State) (q : Slice) (h t : List Byte) : Option Nat :=
  let reserved := q.flags / 32 != 0 || uAt h 22 2 != 0 ||
    (List.range q.streams.length).any fun i => uAt t (32 * i + 1) 1 / 2 != 0 || uAt t (32 * i + 6) 2 != 0 || uAt t (32 * i + 28) 4 != 0
  let lineOk := if s.codec.anyLine then decide (s.job.pacLine.toNat ≤ q.first) else q.first == s.codec.nextLine
  [ (0x04, (crc32c (h.take 28 ++ t)).toNat != q.hdrCv),
    (0x05, reserved),
    (0x06, q.job != s.job.id),
    (0x07, !s.codec.anyNo && q.no != s.codec.nextNo),
    (0x08, !lineOk),
    (0x09, q.lines == 0 || decide (maxLines s < q.lines)),
    (0x0A, q.bits != bitsPerDrop s),
    (0x0D, q.streams.any fun x => !portOn s x.head),
    (0x0E, !tilingOk s q.streams),
    (0x0F, q.streams.any fun x => x.decLen != q.lines * x.nozzles * q.bits / 8),
    (0x10, !layoutOk q),
    (0x11, !flagsOk s q),
    (0x12, s.codec.lastAccepted),
    (0x13, s.codec.posted.any fun r => decide (q.addr < r.addr + r.len) && decide (r.addr < q.addr + q.len)) ].findSome? fun e =>
      if e.2 then some e.1 else none

/-! ## Acceptance -/

/-- A plan as an accepted slice leaves it. -/
def extendPlan (q : Slice) (x : SwathPlan) : SwathPlan :=
  if q.swathEnd then { x with ls := some (q.first + q.lines - x.first), layerEnd := q.layerEnd, last := q.last } else x

/-- The newest plan changed. -/
def changeNewest (f : SwathPlan → SwathPlan) : List SwathPlan → List SwathPlan
  | [] => []
  | [x] => [f x]
  | x :: y :: rest => x :: changeNewest f (y :: rest)

/-- The plans after an accepted slice: SWATH_START opens one, SWATH_END closes the newest (R129). -/
def plansAfter (q : Slice) (ps : List SwathPlan) : List SwathPlan :=
  if q.swathStart then ps ++ [extendPlan q { first := q.first }]
  else changeNewest (extendPlan q) ps

/-- The running swath learns what its plan, the first, has learnt. -/
def refreshSwath (w : Swath) : Swath :=
  match w.plans with
  | x :: _ => if w.active && w.kind == .job && w.first == x.first then { w with ls := x.ls, layerEnd := x.layerEnd, last := x.last } else w
  | [] => w

/-- An accepted slice joins the posted queue (R133, R134). After a claim PAC_LINE becomes its FIRST_LINE (R447). -/
def acceptSlice (q : Slice) (s : State) : State :=
  let w := s.swath
  let w := if s.codec.needStart then { w with line := w.line.map fun l => { l with readLine := q.first } } else w
  { s with
    job := if s.codec.anyLine then { s.job with pacLine := BitVec.ofNat 32 q.first } else s.job
    swath := refreshSwath { w with plans := plansAfter q w.plans }
    codec := { s.codec with
      posted := s.codec.posted ++ [q], nextNo := (q.no + 1) % 2 ^ 32, nextLine := q.first + q.lines, anyNo := false, anyLine := false
      needStart := false, prevEnd := q.swathEnd, lastAccepted := q.last } }

/-- The response of `slice.post`. -/
def postReply (s : State) : List Byte := leBytes 4 s.codec.lastReleased ++ leBytes 2 s.codec.posted.length ++ zeros 2

/-- `slice.post` (R133). The 32 bytes of the header are read whatever length is posted (DESIGN CHOICE, log 52): R133 reads them in its step 5 and
compares the lengths in step 6. -/
def slicePost (p : List Byte) (s : State) : Reply × State :=
  let a := uAt p 0 8; let n := uAt p 8 4
  if !s.job.isOpen then refuse .badState 0 s
  else if s.faults.discard.isSome then refuse .busy 0 s
  else if 256 ≤ s.codec.posted.length then refuse .noSpace 0 s
  else if a % 64 ≠ 0 || beyondFitted s a n then refuse .badSlice 0x01 s
  else if uninitRange s a n then refuse .uninit 0 s
  else match dramRead 6 a 32 s with
    | (none, s) => refuse .poison 0 s
    | (some h, s) =>
      let k := uAt h 7 1
      if n ≠ uAt h 24 4 then refuse .badSlice 0x01 s
      else if uAt h 0 4 ≠ 0x45434C53 then refuse .badSlice 0x02 s
      else if uAt h 4 1 ≠ 1 then refuse .badSlice 0x03 s
      else if k = 0 ∨ 32 < k then refuse .badSlice 0x0B s
      else if n < 32 + 32 * k ∨ 67108864 < n ∨ n % 4 ≠ 0 then refuse .badSlice 0x0C s
      else match dramRead 6 (a + 32) (32 * k) s with
        | (none, s) => refuse .poison 0 s
        | (some t, s) =>
          let q := parseSlice a n h t
          match sliceError s q h t with
          | some d => refuse .badSlice d s
          | none => let s := scrubPause (acceptSlice q s); okWith (postReply s) s

/-- SLICE_POST (R133). -/
def execSlicePost (s : State) : Host.Outcome State Fault Refusal := .next (runCommand 0x0401 slicePost s)

/-! ## Decoders and their streams -/

/-- SOURCE of the decoder group (Table 1.4). -/
def codecSource : Nat := 0x11

/-- K (R138). -/
def inService (s : State) : Nat := (s.codec.decoders.toList.filter fun d => d.use = .inService).length

/-- A decoder, and a change of one. -/
def decoder (s : State) (d : Nat) : Decoder := nthOr s.codec.decoders d { use := .out }
def setDecoder (d : Nat) (f : Decoder → Decoder) (s : State) : State := { s with codec := { s.codec with decoders := updAt s.codec.decoders d f } }

/-- The open slices, older first: opened and not yet released (R147). -/
def openSlices (s : State) : List Slice := s.codec.posted.filter (·.isOpen)

/-- One stream of one posted slice changed. -/
def setStream (no i : Nat) (f : Strm → Strm) (s : State) : State :=
  { s with codec := { s.codec with posted := s.codec.posted.map fun q => if q.no = no then { q with streams := q.streams.modify i f } else q } }

/-- A stream with its slice. -/
def findStream (s : State) (no i : Nat) : Option (Slice × Strm) :=
  (s.codec.posted.find? fun q => q.no == no).bind fun q => (q.streams[i]?).map fun x => (q, x)

/-- The streams of the open slices: slice, index, stream; older slice first. -/
def openStreams (s : State) : List (Slice × Nat × Strm) :=
  (openSlices s).flatMap fun q => q.streams.zipIdx.map fun e => (q, e.2, e.1)

/-- Outstanding bytes of a decoder (R139). -/
def outstanding (s : State) (d : Nat) : Nat :=
  ((openStreams s).filter fun e => e.2.2.dec == some d && !e.2.2.ended).map (fun e => e.2.2.decLen - e.2.2.produced) |>.sum

/-- Contexts in use on a decoder. -/
def contextsUsed (s : State) (d : Nat) : Nat := ((openStreams s).filter fun e => e.2.2.dec == some d && !e.2.2.ended).length

/-- The decoder with the fewest outstanding bytes, ties to the lowest number, given those of each by rising number. -/
def leastLoaded (load : List (Nat × Nat)) : Option Nat :=
  let least := load.foldl (fun m e => min m e.2) ((load.map (·.2)).headD 0)
  (load.find? fun e => e.2 == least).map (·.1)

/-- The in-service decoders, ascending. -/
def serviceList (s : State) : List Nat := (List.range 9).filter fun d => (decoder s d).use = .inService

/-- A stream index put into its place by descending DEC_LEN, after those of the same length. -/
def placeStream (len : Nat → Nat) (i : Nat) : List Nat → List Nat
  | [] => [i]
  | j :: js => if len j < len i then i :: j :: js else j :: placeStream len i js

/-- The order of assignment: descending DEC_LEN, ties in ascending index (R139). -/
def assignOrder (xs : List Strm) : List Nat :=
  (List.range xs.length).foldl (fun order i => placeStream (fun j => (xs[j]?.map (·.decLen)).getD 0) i order) []

/-- Streams given out one by one to the least loaded decoder: the decoder of each stream index. -/
def giveOut (xs : List Strm) : List Nat → List (Nat × Nat) → List (Nat × Nat)
  | [], _ => []
  | i :: rest, load => match leastLoaded load with
    | none => []
    | some d =>
      let n := (xs[i]?.map (·.decLen)).getD 0
      (i, d) :: giveOut xs rest (load.map fun e => if e.1 = d then (e.1, e.2 + n) else e)

/-- The assignment of a slice's streams on opening (R139). -/
def assignment (s : State) (xs : List Strm) : List (Nat × Nat) :=
  giveOut xs (assignOrder xs) ((serviceList s).map fun d => (d, outstanding s d))

/-- Decoding goes on: in PRINT and HOLD of a started job, in FOLLOW while the active prints or holds (R139, R437), with the group running. -/
def decodes (s : State) : Bool :=
  !isStopped s codecSource && s.job.isOpen &&
    match s.sys.mode with
    | .print | .hold => true
    | .follow => s.twin.peer.print || s.twin.peer.held
    | _ => false

/-- The job lines of a head that its staging share has room for end before this one (R140, R168). -/
def slotEnd (s : State) (h : Nat) : Nat := (nthOr s.swath.line h {}).readLine + stagingDepth s

/-- The bytes of a stream that may be written now (R140). -/
def writable (s : State) (q : Slice) (x : Strm) : Nat := min x.decLen ((slotEnd s x.head - q.first) * (x.nozzles * q.bits / 8))

/-- Lines of a head from a job line on that every strip has written, released or not (R141). -/
def writtenFrom (s : State) (h : Nat) : Nat → Nat → Nat
  | 0, _ => 0
  | n + 1, l =>
    let here := s.codec.staging.filter fun r => r.covers h l
    if !here.isEmpty && here.all (fun r => ({ r with released := true } : StageRun).has l) then writtenFrom s h n (l + 1) + 1 else 0

/-- A head's staged lines for the choice of R141. -/
def stagedForChoice (s : State) (h : Nat) : Nat := writtenFrom s h (stagingDepth s) (nthOr s.swath.line h {}).readLine

/-- A stream of slice q may be worked on (R140, R141, R142): its slice is not aborted, no stream of an older open slice for its head is left, it
waits for no input and no build, and it has room, bytes to skip, or only the end of its blocks to reach. -/
def runnable (s : State) (q : Slice) (x : Strm) : Bool :=
  !q.aborted && !x.ended && !x.building && !x.waits &&
    ((openSlices s).all fun r => r.no == q.no || r.first ≥ q.first || r.streams.all fun y => y.head != x.head || y.ended) &&
    (decide (x.produced < writable s q x) || decide (x.produced < x.written) || decide (x.decLen ≤ x.produced))

/-- The better of two candidates: fewer staged lines, then the lower stream index. DESIGN CHOICE (log 52): streams of two slices that agree in both
go by slice, the older one's first; R141 names no further tie. -/
def betterStream (s : State) (a b : Slice × Nat × Strm) : Slice × Nat × Strm :=
  let ka := stagedForChoice s a.2.2.head; let kb := stagedForChoice s b.2.2.head
  if kb < ka || (kb == ka && decide (b.2.1 < a.2.1)) then b else a

/-- The stream a decoder takes up next (R141). -/
def nextStream (s : State) (d : Nat) : Option (Slice × Nat × Strm) :=
  match (openStreams s).filter fun e => e.2.2.dec == some d && runnable s e.1 e.2.2 with
  | [] => none
  | e :: es => some (es.foldl (betterStream s) e)

/-- The bytes of input up to the first that its read in a priority class cannot give, and the cause of that one (R143, R144, R153). -/
def readGood (cls base : Nat) : Nat → List Nat → State → (Nat × Nat) × State
  | stop, [], s => ((stop - base, 0), s)
  | stop, la :: rest, s =>
    if uninitRange s la 64 then ((max la base - base, 0x0E), s)
    else match checkLine cls la 0 s with
      | (true, s) => readGood cls base stop rest s
      | (false, s) => ((max la base - base, 0x0D), s)

/-- A context's share of its decoder's 128 KiB input buffer (R138): an eighth (DESIGN CHOICE, log 53). -/
def inputShare : Nat := 16384

/-- Where the fetched input of a stream at address a may end: the lines that its share of the input buffer holds beyond the bytes decoded. -/
def fetchEnd (a : Nat) (x : Strm) : Nat := min x.compLen (((a + x.used) / 64 * 64 + inputShare) - a)

/-- Input is fetched ahead of decoding in class 2, up to the first bad byte and as far as the input buffer holds it (R138, R143, R144). -/
def fetchInput (q : Slice) (i : Nat) (x : Strm) (s : State) : State :=
  let a := q.addr + x.offset
  if x.bad ≠ 0 || fetchEnd a x ≤ x.good then s
  else
    let (g, s) := readGood 2 (a + x.good) (a + fetchEnd a x) (linesOf (a + x.good) (fetchEnd a x - x.good)) s
    let bs := Mem.readN s.mem.dram (a + x.good) g.1
    let s := match x.dec with | some d => useBanks ((256 + 7 * d) * 8192) ((263 + 7 * d) * 8192) s | none => s
    setStream q.no i (fun x => { x with good := x.good + g.1, bad := g.2, input := x.input ++ bs }) (cvuFeedWindow 2 (a + x.good) bs s)

/-- A decoder takes a stream up: its CVU units start with its first byte, and its input is fetched (R143, R394). -/
def beginStream (q : Slice) (i : Nat) (x : Strm) (s : State) : State :=
  let s := fetchInput q i x s
  if x.begun then s
  else cvuUnitStart 3 (fun u => u.sel == x.head && u.firstNoz == x.firstNoz) (setStream q.no i (fun x => { x with begun := true }) s)

/-- A decoder may take up streams: in service, without a test and without a request of its own. -/
def decoderFree (s : State) (d : Nat) : Bool :=
  let c := decoder s d
  c.use = .inService && !c.testing && !s.codec.requests.any fun r => !r.deflate && r.unit == d

/-- A decoder without a stream takes up the next one, if there is one (R141). -/
def takeUp (s : State) (d : Nat) : State :=
  if !decodes s || !decoderFree s d || (decoder s d).work.isSome then s
  else match nextStream s d with
    | none => s
    | some (q, i, x) => beginStream q i x (setDecoder d (fun c => { c with work := some (q.no, i) }) s)

/-- Every decoder without a stream takes one up. -/
def takeUpAll (s : State) : State := (List.range 9).foldl takeUp s

/-- The inflater of a stream, run on its present decoder over the input fetched to n bytes made in all: where it stands is what those bytes make of it,
so that a stream taken up again goes on as if it had never been left (R141, R151). -/
def runStream (x : Strm) (n : Nat) : Inf × IStop :=
  inflate { raw := x.raw, limit := x.decLen, room := n, builds := some x.built } (Inf.start x.input)

/-- How far a decoder may take a stream before it leaves it (R140, R141): 4096 bytes, and no byte without a slot. -/
def reach (s : State) (q : Slice) (x : Strm) (n : Nat) : Nat := min (x.produced + min n 4096) (max (writable s q x) x.written)

/-- Bytes written to the staging run of a stream. -/
def stageBytes (no i : Nat) (bs : List Byte) (s : State) : State :=
  { s with codec := { s.codec with staging := s.codec.staging.map fun r => if r.sliceNo = no ∧ r.stream = i then { r with data := r.data ++ bs } else r } }

/-- Bytes lo up to hi of a strip's output are written into the staging slots of their lines, which ends any poison in the words they fill (R168,
R576). A strip lies in a slot at its share of the line; padding beyond the line's LB_h bytes is dropped. -/
def writeStrip (q : Slice) (x : Strm) (lo hi : Nat) (s : State) : State :=
  let n := x.nozzles * q.bits / 8
  if n = 0 || hi ≤ lo then s
  else (List.range ((hi - 1) / n - lo / n + 1)).foldl (fun s k =>
    let l := lo / n + k
    let at_ := stageByte s x.head (q.first + l)
    let from_ := x.firstNoz * q.bits / 8 + (max lo (l * n) - l * n)
    let upto := min (x.firstNoz * q.bits / 8 + (min hi (l * n + n) - l * n)) (stageLineBytes s x.head)
    ownerWrites (ceilDiv (at_ + from_) 8) ((at_ + upto) / 8) s) s

/-- A stream advanced to where the inflater stands: bytes beyond those written before go to staging and to the CVU units (R146, R394). -/
def advance (q : Slice) (i : Nat) (x : Strm) (y : Inf) (building : Bool) (s : State) : State :=
  let new := y.bytes.drop x.written
  let s := stageBytes q.no i new (writeStrip q x x.written y.made s)
  let s := cvuFeed 3 (fun u => u.sel == x.head && u.firstNoz == x.firstNoz) new s
  setStream q.no i (fun x => { x with
    produced := y.made, written := max x.written y.made, used := y.pos / 8, building := building, built := max x.built y.dyn }) s

/-- A decoder lays its stream down. -/
def layDown (d : Nat) (s : State) : State := setDecoder d (fun c => { c with work := none }) s

/-- The stream a decoder works on. -/
def workOf (s : State) (d : Nat) : Option (Slice × Nat × Strm) :=
  (decoder s d).work.bind fun w => (findStream s w.1 w.2).map fun e => (e.1, w.2, e.2)

/-- The input that the streams of a decoder waited for has come from the DRAM (R141). -/
def inputComes (d : Nat) (s : State) : State :=
  { s with codec := { s.codec with posted := s.codec.posted.map fun q =>
    if q.isOpen then { q with streams := q.streams.map fun x => if x.dec = some d then { x with waits := false } else x } else q } }

/-- The stream was left before 4096 bytes, with slots to write; or it met the end of what was fetched, with more to come; or its final block ended
with too little fetched behind it to judge: it waits for input from the DRAM (R141). -/
def leftForInput (s : State) (q : Slice) (x : Strm) (n : Nat) (y : Inf) (r : IStop) : Bool :=
  let more := x.bad == 0 && decide (x.good < x.compLen)
  match r with
  | .needOutput => decide (n < 4096) && decide (x.produced + n < max (writable s q x) x.written)
  | .needInput => more
  | .finished => more && decide (x.good < y.pos / 8 + 5)
  | _ => false

/-- A stream is left with up to n more bytes made, and the decoder takes up the next (R141); a stream that ends within them is ended by
STREAM_END instead. A stream that waits for input is not taken up again before the decoder's next change of stream, by when its input has come
(DESIGN CHOICE, log 53). -/
def switchStream (d n : Nat) (s : State) : State :=
  match workOf s d with
  | none => takeUp (inputComes d s) d
  | some (q, i, x) =>
    let (y, r) := runStream x (reach s q x n)
    let leave (building : Bool) : State :=
      setStream q.no i (fun z => { z with waits := leftForInput s q x n y r }) (layDown d (advance q i x y building (inputComes d s)))
    match r with
    | .needOutput => takeUp (leave false) d
    | .build => takeUp (leave true) d
    | .needInput | .finished => if leftForInput s q x n y r then takeUp (leave false) d else s
    | _ => s

/-- STREAM_SWITCH (R141): decoder d has made n more bytes of its stream and leaves it. -/
def execStreamSwitch (d : Fin 9) (n : Fin 4097) (s : State) : Host.Outcome State Fault Refusal :=
  .next (if decodes s then switchStream d.val n.val s else s)

/-! ## The end of a stream -/

/-- Why a stream fails at the inflater's stop, if it does (R144, Table 5.6). -/
def streamCause (x : Strm) (y : Inf) (r : IStop) : Option Nat :=
  match r with
  | .err c => some c
  | .limit => some 0x0C
  | .needInput => some (if x.bad = 0 then 0x06 else x.bad)
  | .finished =>
    if y.made < x.decLen then some 0x07
    else if !trailingOk y then some 0x08
    else if x.bad ≠ 0 then some x.bad
    else if (crc32c x.input).toNat ≠ x.compCv then some 0x0A
    else if (crc32c y.bytes).toNat ≠ x.decCv then some 0x0B
    else none
  | .needOutput | .build => none

/-- A slice is released after its streams have passed: Markhor lines become staged, the counter moves, and NOTIFY is answered (R136, R140). -/
def releaseSlice (q : Slice) (s : State) : State :=
  let s := { s with codec := { s.codec with
    posted := s.codec.posted.filter fun r => r.no != q.no, lastReleased := q.no, released := wrapAdd 32 s.codec.released 1
    staging := s.codec.staging.map fun r => if r.sliceNo = q.no then { r with released := true } else r } }
  let s := scrubPause (touchGroup 6 s)
  if q.notify then
    emit { code := 0x0401, source := codecSource
           payload := leBytes 4 q.no ++ leBytes 4 q.first ++ leBytes 2 q.lines ++ zeros 2 ++ leBytes 4 q.job } s
  else s

/-- A stream has passed: its slice may be released, and the decoders go on (R136, R141). -/
def streamPassed (d : Nat) (q : Slice) (i : Nat) (s : State) : State :=
  let s := layDown d (setStream q.no i (fun x => { x with ended := true, dec := none }) s)
  let s := match s.codec.posted.find? fun r => r.no == q.no with
    | some r => if r.streams.all (·.ended) then releaseSlice r s else s
    | none => s
  takeUpAll s

/-- A stream has failed: its slice is aborted and SLICE_ABORT raised; a decoder whose input was right is tested (R144, R145). -/
def streamFailed (d : Nat) (q : Slice) (i cause : Nat) (s : State) : State :=
  let s := { s with codec := { s.codec with
    posted := s.codec.posted.map fun r => if r.no = q.no then { r with aborted := true } else r
    decoders := s.codec.decoders.map fun c => match c.work with | some (n, _) => if n = q.no then { c with work := none } else c | none => c } }
  let s := if cause = 0x0B then setDecoder d (fun c => { c with testing := true }) s else s
  let s := emit { code := 0x0402, source := codecSource, status := cause, keep := true
                  payload := leBytes 4 q.no ++ leBytes 1 i ++ leBytes 1 d ++ zeros 2 ++ leBytes 4 q.first ++ leBytes 4 s.job.pacLine.toNat } s
  takeUpAll (raiseFault .sliceAbort codecSource 0xFFFF s)

/-- The stream of a decoder ends: its last bytes are written, and it passes or fails. -/
def endStream (d : Nat) (s : State) : State :=
  match workOf s d with
  | none => s
  | some (q, i, x) =>
    let (y, r) := runStream x (reach s q x 4096)
    match r with
    | .needOutput | .build => s
    | _ =>
      if leftForInput s q x 4096 y r then s
      else
        let cause := streamCause x y r
        let s := cvuUnitEnd 3 (fun u => u.sel == x.head && u.firstNoz == x.firstNoz) (advance q i x y false s)
        match cause with
        | none => streamPassed d q i s
        | some c => streamFailed d q i c s

/-- STREAM_END (R144): the stream that decoder d works on ends within the next 4096 bytes. -/
def execStreamEnd (d : Fin 9) (s : State) : Host.Outcome State Fault Refusal := .next (if decodes s then endStream d.val s else s)

/-- DYNAMIC_TABLE_BUILT (R142): the table build of a stream ends and it is runnable again; a build that finds an error, or whose input ends,
fails it. -/
def execDynamicTableBuilt (sliceNo : Nat) (i : Fin 32) (s : State) : Host.Outcome State Fault Refusal :=
  match findStream s sliceNo i.val with
  | none => .next s
  | some (q, x) =>
    if !(x.building && decodes s) || x.ended || q.aborted then .next s
    else
      let (y, r) := runStream { x with built := x.built + 1 } x.produced
      if y.dyn ≤ x.built then
        match r, x.dec with
        | .needInput, some d =>
          .next (if leftForInput s q x 0 y .needInput then fetchInput q i.val x s else streamFailed d q i.val (if x.bad = 0 then 0x06 else x.bad) s)
        | .err c, some d => .next (streamFailed d q i.val c s)
        | _, _ => .next s
      else .next (takeUpAll (setStream q.no i.val (fun x => { x with building := false, built := x.built + 1 }) s))

/-! ## Leaving and entering service -/

/-- `ev.decoder_out` and `ev.decoder_in` (Table 19.2). -/
def evDecoderOut (d cls n : Nat) (standby : Bool) (s : State) : State :=
  emit { code := 0x0501, source := codecSource, status := cls, flags := bitAt standby 0, keep := true,
         payload := leBytes 1 d ++ leBytes 1 (inService s) ++ leBytes 1 n ++ zeros 13 } s
def evDecoderIn (d : Nat) (s : State) : State :=
  emit { code := 0x0502, source := codecSource, payload := leBytes 1 d ++ leBytes 1 (inService s) ++ zeros 14 } s

/-- The decoder-aggregate check of Table 1.9 for the open job. -/
def aggregateOk (s : State) : Bool := decide (lineBytes s * s.job.fMax ≤ inService s * 800000000)

/-- A job is printing, held, followed, or parked behind maintenance or an audit (R34). -/
def printsOrHolds (s : State) : Bool :=
  s.job.isOpen && (s.parked.isSome || match s.sys.mode with
    | .print | .hold => true
    | .follow => s.twin.peer.print || s.twin.peer.held
    | _ => false)

/-- The check repeated when K changes (R32, R34, R146). -/
def checkCapacity (s : State) : State :=
  if inService s = 0 || (printsOrHolds s && !aggregateOk s) then raiseFault .codecCapacity codecSource 0xFFFF s else s

/-- `ev.codec_done` (Table 19.2), and the request leaves its unit. -/
def evCodecDone (r : CodecReq) (st : Status) (stop used made : Nat) (s : State) : State :=
  let e : Event := { code := 0x0503, source := if r.deflate then 0x12 else codecSource, status := st.code, keep := true
                     payload := leBytes 2 r.tag ++ leBytes 1 r.unit ++ leBytes 1 stop ++ leBytes 6 used ++ leBytes 6 made }
  bgEnd (.codec r.unit) (emit e { s with codec := { s.codec with requests := s.codec.requests.filter fun q => q.unit != r.unit } })

/-- The header of a context (Table 5.7) but its CTX_CV, which stands at offset 48. -/
structure CtxHeader where
  state : Nat
  kind : Nat
  bitpos : Nat := 0
  stop : Nat := 0
  inTotal : Nat
  outTotal : Nat
  limit : Nat := 0
  matchLen : Nat := 0
  matchDist : Nat := 0
  storedLeft : Nat := 0
  block : Nat := 0
  pending : Nat := 0
  pendBits : Nat := 0
  run : Word
deriving DecidableEq, Repr

/-- Header bytes 0 to 47. -/
def CtxHeader.bytes (h : CtxHeader) : List Byte :=
  leBytes 4 0x58544344 ++ leBytes 1 h.state ++ leBytes 1 h.kind ++ leBytes 1 h.bitpos ++ leBytes 1 h.stop ++ leBytes 8 h.inTotal ++
    leBytes 8 h.outTotal ++ leBytes 8 h.limit ++ leBytes 2 h.matchLen ++ leBytes 2 h.matchDist ++ leBytes 2 h.storedLeft ++ leBytes 1 h.block ++
    leBytes 1 h.pending ++ leBytes 1 h.pendBits ++ zeros 3 ++ leBytes 4 h.run.toNat

/-- n free bytes (log 3): the body of a context, which the manual leaves opaque. -/
def freeBytes (n : Nat) (s : State) : List Byte × State :=
  ((List.range n).map fun i => Config.freeByte (s.free + i), { s with free := s.free + n })

/-- The size of a context area (R150). -/
def ctxSize (deflate : Bool) : Nat := if deflate then 262144 else 49152

/-- A context area written whole, header last, and what it stands for kept by its CTX_CV (R150, log 29). -/
def writeContext (r : CodecReq) (h : CtxHeader) (v : CodecSave) (s : State) : State :=
  let (body, s) := freeBytes (ctxSize r.deflate - 64) s
  let cv := (crc32c (h.bytes ++ body)).toNat
  let s := dramWrite 6 (r.ctx + 64) body s
  let s := dramWrite 6 r.ctx (h.bytes ++ leBytes 4 cv ++ zeros 12) s
  { s with codec := { s.codec with saves := (cv, v) :: s.codec.saves.filter fun e => e.1 != cv } }

/-- The header of an inflate context. -/
def infHeader (state stop limit : Nat) (run : Word) (x : Inf) : CtxHeader :=
  let m := match x.phase with | .copy n k _ _ => (n, k) | _ => (0, 0)
  let left := match x.phase with | .stored n => n | _ => 0
  let inHeader := match x.phase with | .storedLen | .counts | .clens .. | .lens .. => true | _ => false
  { state := state, kind := 0, bitpos := x.pos % 8, stop := stop, inTotal := x.pos / 8, outTotal := x.made, limit := limit, matchLen := m.1
    matchDist := m.2, storedLeft := left, block := x.btype + bitAt x.final 2 + bitAt inHeader 3, run := ~~~ run }

/-- An inflate request ends where its inflater stopped (R151 to R153): its output, its context and `ev.codec_done`. -/
def finishInflate (r : CodecReq) (y : Inf) (st : Status) (state stop code : Nat) (s : State) : State :=
  let x := r.save.inf
  let new := y.bytes.drop (y.bytes.length - (y.made - x.made))
  let run := crc32cRun r.save.run new
  let s := dramWrite 6 r.outAddr new s
  let s := writeContext r (infHeader state stop r.limit run y) { r.save with inf := { y with bits := [], out := y.out.take 32768 }, run := run } s
  evCodecDone r st code (y.pos / 8 - x.pos / 8) (y.made - x.made) s

/-- The input of a request as far as its reads in class 6 are good, and the status of the first bad one (R143, R153). -/
def readInput (r : CodecReq) (s : State) : (List Byte × Nat) × State :=
  let (g, s) := readGood 6 r.inAddr (r.inAddr + r.inLen) (linesOf r.inAddr r.inLen) s
  let bs := Mem.readN s.mem.dram r.inAddr g.1
  ((bs, g.2), cvuFeedWindow 2 r.inAddr bs s)

/-- The inflater of a request with its input before it. -/
def requestInf (r : CodecReq) (bs : List Byte) : Inf := { r.save.inf with bits := (bitsOfBytes bs).drop (r.save.inf.pos % 8) }

/-- The end of an inflate request with room for n bytes of output; `cut` when it is stopped there before its time (R148, R151 to R153). -/
def endInflate (r : CodecReq) (n : Nat) (cut : Bool) (s : State) : State :=
  let ((bs, bad), s) := readInput r s
  let (y, stop) := inflate { limit := r.limit, room := r.save.inf.made + n } (requestInf r bs)
  match stop with
  | .needOutput => if cut then finishInflate r y .resumable 1 3 3 s else finishInflate r y .resumable 1 1 1 s
  | .needInput | .build =>
    if bad = 0x0D then finishInflate r y .poison 3 0 0 s
    else if bad = 0x0E then finishInflate r y .uninit 3 0 0 s
    else finishInflate r y .resumable 1 2 2 s
  | .limit => finishInflate r y .expandLimit 3 0 0 s
  | .err c => finishInflate r y .badStream 3 0 c s
  | .finished =>
    if !trailingOk y then finishInflate r y .badStream 3 0 0x08 s
    else if bad = 0x0D then finishInflate r y .poison 3 0 0 s
    else if bad = 0x0E then finishInflate r y .uninit 3 0 0 s
    else finishInflate r y .ok 2 0 0 s

/-- The inflate request on a decoder stops with PREEMPTED, as far on as it happens to be: a free part of what it would make (R148, log 3). -/
def preempt (d : Nat) (s : State) : State :=
  match s.codec.requests.find? fun r => !r.deflate && r.unit == d with
  | none => s
  | some r =>
    let k := Config.freeNat s.free % (r.outCap + 1)
    endInflate r k (decide (k < r.outCap)) { s with free := s.free + 1 }

/-- The standby decoder, usable and there. -/
def standbyOf (s : State) : Option Nat := (List.range 9).find? fun d => (decoder s d).use = .standby

/-- The standby decoder enters service when K is below 8 (R147), not while its test runs. With a slice open it waits for the next slice boundary,
which is the next opening even when the open slice has meanwhile been released (DESIGN CHOICE, log 52). -/
def standbyEnters (s : State) : State :=
  match standbyOf s with
  | some d =>
    if inService s < 8 && !(decoder s d).testing then
      checkCapacity (evDecoderIn d (setDecoder d (fun c => { c with use := .inService }) (preempt d s)))
    else s
  | none => s

/-- Streams of a lost decoder given out one after another (R146). -/
def reassign : List (Nat × Nat) → State → State
  | [], s => s
  | (no, i) :: rest, s =>
    match leastLoaded ((serviceList s).map fun d => (d, outstanding s d)) with
    | none => reassign rest (setStream no i (fun x => { x with dec := none }) s)
    | some d =>
      let was := match findStream s no i with | some (_, x) => x.begun | none => false
      let s := setStream no i (fun x => { x with
        dec := some d, begun := false, produced := 0, built := 0, building := false, good := 0, bad := 0, input := [], used := 0, waits := false }) s
      reassign rest (if was then touchGroup 6 { s with codec := { s.codec with restarted := wrapAdd 32 s.codec.restarted 1 } } else s)

/-- A decoder leaves service: its streams to the others, `ev.decoder_out`, its cell fault and the capacity check; the standby enters at once when no
slice is open (R34, R146, R147). A standby decoder becomes unusable instead (R148). -/
def decoderLeaves (d : Nat) (c : FClass) (s : State) : State :=
  match (decoder s d).use with
  | .out => s
  | .standby => evDecoderOut d c.code 0 true (setDecoder d (fun x => { x with use := .out, testing := false }) (preempt d s))
  | .inService =>
    let s := preempt d s
    let mine := ((openStreams s).filter fun e => e.2.2.dec == some d && !e.2.2.ended).map fun e => (e.1.no, e.2.1)
    let s := reassign mine (setDecoder d (fun x => { x with use := .out, work := none, testing := false }) s)
    let s := raiseFault c codecSource d (evDecoderOut d c.code mine.length false s)
    let s := checkCapacity s
    takeUpAll (if (openSlices s).isEmpty then standbyEnters s else s)

/-- DECODER_LEAVES_SERVICE (R146): a state-register mismatch, or an error in the decoder's banks that cannot be corrected (R380). -/
def execDecoderLeavesService (d : Fin 9) (e : DecErr) (s : State) : Host.Outcome State Fault Refusal :=
  match e with
  | .logic => .next (decoderLeaves d.val .decLogic s)
  | .ecc bank word synd =>
    let (bad, s) := ownerFinds codecSource 3 ((256 + 7 * d.val + bank.val) * 8192 + word.val) synd s
    .next (if bad then decoderLeaves d.val .decEcc s else s)

/-- DECODER_TEST_DONE (R145, R148): the test stream on a decoder ends. -/
def execDecoderTestDone (d : Fin 9) (pass : Bool) (s : State) : Host.Outcome State Fault Refusal :=
  if !(decoder s d.val).testing then .next s
  else
    let standby := (decoder s d.val).use = .standby
    let s := setDecoder d.val (fun c => { c with testing := false }) s
    if !pass then .next (decoderLeaves d.val .decCheck s)
    else if standby then .next (if (openSlices s).isEmpty then standbyEnters s else s)
    else .next (takeUpAll (touchGroup 6 { s with codec := { s.codec with hostCheck := satAdd 32 s.codec.hostCheck 1 } }))

/-- STANDBY_TEST (R148): the standby decoder begins its test, and any inflate on it stops. -/
def execStandbyTest (s : State) : Host.Outcome State Fault Refusal :=
  match standbyOf s with
  | some d => .next (if s.sys.phase = .running ∧ (decoder s d).testing = false then setDecoder d (fun c => { c with testing := true }) (preempt d s) else s)
  | none => .next s

/-! ## Opening a slice -/

/-- The slice that may be opened now (R139): the oldest not open, with at most one other open, whose first stream to end has ended, and with a
context for every stream. -/
def nextToOpen (s : State) : Option Slice :=
  match s.codec.posted.find? fun q => !q.isOpen with
  | none => none
  | some q =>
    let free := (serviceList s).all fun d =>
      decide (contextsUsed s d + ((assignment s q.streams).filter fun e => e.2 == d).length ≤ 8)
    match openSlices s with
    | [] => if free && !(serviceList s).isEmpty then some q else none
    | [r] => if free && r.streams.any (·.ended) && !r.aborted && !(serviceList s).isEmpty then some q else none
    | _ => none

/-- The staging runs of a slice's streams, empty as yet (R169); runs wholly read are dropped. -/
def openRuns (s : State) (q : Slice) : List StageRun :=
  (s.codec.staging.filter fun r => decide ((nthOr s.swath.line r.head {}).readLine < r.firstLine + r.lines)) ++
    q.streams.zipIdx.map fun e =>
      { sliceNo := q.no, stream := e.2, head := e.1.head, firstNoz := e.1.firstNoz, nozzles := e.1.nozzles, bits := q.bits, firstLine := q.first
        lines := q.lines, data := [], released := s.sys.profile = .impala }

/-- A SLICE record (Table 15.5). -/
def sliceRecord (q : Slice) : List Byte := [3] ++ zeros 3 ++ leBytes 4 q.no ++ leBytes 4 q.first ++ leBytes 4 q.hdrCv

/-- The slice whose opening is the next slice boundary, judged with the standby already in service where it enters there (R139, R147; log 52). -/
def openable (s : State) : Option Slice := nextToOpen (standbyEnters s)

/-- A slice is opened: the standby may enter, and its streams are assigned and taken up; where none can be opened there is no slice boundary (R139,
R147). -/
def openSlice (s : State) : State :=
  match openable s with
  | none => s
  | some q =>
    let s := useBanks (319 * 8192) (320 * 8192) (standbyEnters s)
    let asg := assignment s q.streams
    let streams := q.streams.zipIdx.map fun e => { e.1 with dec := (asg.find? fun a => a.1 == e.2).map (·.2) }
    let s := { s with codec := { s.codec with
      staging := openRuns s q
      posted := s.codec.posted.map fun r => if r.no = q.no then { r with isOpen := true, streams := streams } else r } }
    takeUpAll (mirror (sliceRecord q) s)

/-- SLICE_OPEN (R139); `err` is a word of the slice queue, bank 319, that is found in error: COD_QUEUE_ECC where it cannot be
corrected (R380, Table 13.7). -/
def execSliceOpen (err : Option WordErr) (s : State) : Host.Outcome State Fault Refusal :=
  if decodes s && (openable s).isSome then
    match err with
    | some e =>
      let (bad, s) := ownerFinds codecSource 3 (319 * 8192 + e.word.val) e.synd s
      .next (if bad then raiseFault .codQueueEcc codecSource 0xFFFF s else openSlice s)
    | none => .next (openSlice s)
  else .next s

/-! ## `fn.reinit` of the decoder group -/

/-- The test runs on all nine decoders: up to eight that pass enter service, the next passing one stands by (R147), and a K that has changed is
judged (R32, R34). The bit of a decoder in `pass` says that it passes. Inflates on any decoder end with PREEMPTED, on those in service as R148 has it
for the standby (DESIGN CHOICE, log 52). -/
def reinitDecoders (pass : BitVec 9) (s : State) : State :=
  let ok := (List.range 9).filter fun d => pass.getLsbD d
  let role (d : Nat) : DecUse := if !pass.getLsbD d then .out else match ok.findIdx? (· == d) with
    | some k => if k < 8 then .inService else .standby
    | none => .out
  let before := s.codec.decoders
  let k := inService s
  let s := (List.range 9).foldl (fun s d => preempt d s) s
  let s := { s with codec := { s.codec with decoders := Vector.ofFn fun i => { use := role i.val } } }
  let s := (List.range 9).foldl (fun s d => if pass.getLsbD d then s else evDecoderOut d 0x14 0 false s) s
  let s := (List.range 9).foldl (fun s d => if role d = .inService ∧ (nthOr before d {}).use ≠ .inService then evDecoderIn d s else s) s
  if inService s = k then s else checkCapacity s

end Sys2Proof.Machine
end

