-- ==== Sys2Proof/Machine/Codec.lean ====
section
/-! DEFINITION. Memory-to-memory work: `codec.inflate`, `codec.deflate` and `codec.config` (R149 to R157), saved contexts (R150) and the ends of
requests. The bytes a compressor makes are its own choice within R137, R154, R155 and R157. -/
namespace Sys2Proof.Machine

/-! ## `codec.config` -/

/-- Table 5.8; WINDOW in KiB. -/
def codecSpecs : List PSpec :=
  [ ⟨1, 1, 0, 2, some 2⟩, ⟨2, 1, 1, 64, some 16⟩, ⟨3, 1, 0, 1, some 1⟩, ⟨4, 1, 3, 258, some 128⟩, ⟨5, 1, 4, 32, some 32⟩,
    ⟨6, 1, 1024, 16384, some 16384⟩ ]

/-- WINDOW is 4, 8, 16 or 32. -/
def codecRelation (m : ParamSet) : Option (List Nat) :=
  let w := pnat m 5 0 32
  if w = 4 ∨ w = 8 ∨ w = 16 ∨ w = 32 then none else some [5]

/-- `codec.config` (R157). -/
def codecConfig (p : List Byte) (s : State) : Reply × State :=
  if listTarget p 0 ≠ 0 then refuse .badArg 0 s
  else match judgeList codecSpecs codecRelation s.codec.params (listItems p 0) with
    | .error d => refuse .badArg d s
    | .ok m => okWith [] { s with codec := { s.codec with params := m } }

/-- CODEC_CONFIG (R157). -/
def execCodecConfig (s : State) : Host.Outcome State Fault Refusal := .next (runCommand 0x0503 codecConfig s)

/-! ## Requests -/

/-- The request a payload spells (Table 18.8). -/
def requestOf (deflate : Bool) (p : List Byte) : CodecReq :=
  { unit := 0, deflate := deflate, ctx := uAt p 0 8, inAddr := uAt p 8 8, inLen := uAt p 16 8, outAddr := uAt p 24 8, outCap := uAt p 32 8
    limit := if deflate then 0 else uAt p 40 8, entry := if deflate then uAt p 40 8 else 0, start := bitOf (uAt p 48 2) 0
    final := deflate && bitOf (uAt p 48 2) 1, tag := uAt p 50 2 }

/-- The first field out of range (R149, R150, R152), by its offset. A bit of FLAGS that the row does not list is out of range (DESIGN CHOICE, log 25). -/
def requestRange (s : State) (r : CodecReq) (flags field40 : Nat) : Option Nat :=
  if r.ctx % 64 ≠ 0 || beyondFitted s r.ctx (ctxSize r.deflate) then some 0
  else if beyondFitted s r.inAddr r.inLen then some 8
  else if beyondFitted s r.outAddr r.outCap then some 24
  else if (if r.deflate then r.entry % 32 ≠ 0 || (r.entry ≠ 0 && beyondFitted s r.entry 32) else field40 = 0 || decide (2 ^ 40 < field40)) then some 40
  else if (if r.deflate then 3 else 1) < flags then some 48
  else none

/-- Some memory the request names is outside the initialised range (R149). -/
def requestUninit (s : State) (r : CodecReq) : Bool :=
  uninitRange s r.ctx (ctxSize r.deflate) || uninitRange s r.inAddr r.inLen || uninitRange s r.outAddr r.outCap ||
    (r.entry != 0 && uninitRange s r.entry 32)

/-- What a context that the part did not write stands for: what its header says, with nothing in its history (log 29). -/
def foreignSave (h : List Byte) : CodecSave :=
  { inf := { pos := 8 * uAt h 8 8 + uAt h 6 1, made := uAt h 16 8 }, run := ~~~ BitVec.ofNat 32 (uAt h 44 4) }

/-- The context a request without START goes on from: RESUMABLE, of its kind, with a valid CTX_CV; none otherwise (R150). -/
def resumeFrom (r : CodecReq) (s : State) : Option CodecSave × State :=
  match dramRead 6 r.ctx (ctxSize r.deflate) s with
  | (none, s) => (none, s)
  | (some b, s) =>
    let cv := uAt b 48 4
    if uAt b 0 4 = 0x58544344 ∧ uAt b 4 1 = 1 ∧ uAt b 5 1 = bitAt r.deflate 0 ∧ (crc32c (b.take 48 ++ b.drop 64)).toNat = cv then
      (some (((s.codec.saves.find? fun e => e.1 == cv).map (·.2)).getD (foreignSave b)), s)
    else (none, s)

/-- A new stream with the settings in force (R150, R157). -/
def freshSave (s : State) : CodecSave :=
  let m := s.codec.params
  { level := pnat m 1 0 2, depth := pnat m 2 0 16, lazy_ := pnat m 3 0 1, nice := pnat m 4 0 128, window := pnat m 5 0 32, blockSyms := pnat m 6 0 16384 }

/-- A free unit for an inflate (R149): the standby decoder, else, with no job in PRINT, HOLD or FOLLOW, an in-service decoder no slice uses. A
stopped block takes no new work (R405). -/
def inflateUnit (s : State) : Option Nat :=
  if isStopped s codecSource then none else
  let free (d : Nat) : Bool := !(decoder s d).testing && !s.codec.requests.any fun r => !r.deflate && r.unit == d
  let idle := s.sys.mode != .print && s.sys.mode != .hold && s.sys.mode != .follow
  ((standbyOf s).filter free).or
    (if idle then (serviceList s).find? fun d => free d && contextsUsed s d == 0 else none)

/-- A free compressor: 0x10 or 0x11. A stopped block takes no new work (R405). -/
def deflateUnit (s : State) : Option Nat :=
  if isStopped s 0x12 then none else [0x10, 0x11].find? fun u => !s.codec.requests.any fun r => r.unit == u

/-- `codec.inflate` and `codec.deflate` (R149, R150). -/
def codecRequest (deflate : Bool) (p : List Byte) (s : State) : Reply × State :=
  let r := requestOf deflate p
  match requestRange s r (uAt p 48 2) (uAt p 40 8) with
  | some d => refuse .badArg d s
  | none =>
    if requestUninit s r then refuse .uninit 0 s
    else
      let (from_, s) := if r.start then (some (freshSave s), s) else resumeFrom r s
      match from_, if deflate then deflateUnit s else inflateUnit s with
      | none, _ => refuse .badArg 0 s
      | _, none => refuse .busy 0 s
      | some v, some u =>
        okWith (leBytes 1 (u % 16) ++ zeros 3)
          (bgStart (.codec u) { s with codec := { s.codec with requests := s.codec.requests ++ [{ r with unit := u, save := v }] } })

/-- CODEC_INFLATE (R149). -/
def execCodecInflate (s : State) : Host.Outcome State Fault Refusal := .next (runCommand 0x0501 (codecRequest false) s)

/-- CODEC_DEFLATE (R154). -/
def execCodecDeflate (s : State) : Host.Outcome State Fault Refusal := .next (runCommand 0x0502 (codecRequest true) s)

/-! ## The end of a request -/

/-- What the compressed bits made so far decode to, as far as they go. -/
def decodeSoFar (n : Nat) (bits : List Bool) : Inf × IStop := inflate { limit := n, room := n } { bits := bits }

/-- The block types LEVEL allows, as a mask (Table 5.8). -/
def typesAllowed (level : Nat) : Nat := match level with | 0 => 1 | 1 => 3 | _ => 7

/-- A whole block of a compressed stream: its type and BFINAL, where its bits begin and end, the bytes it stands for, and its symbols. -/
structure BlockRec where
  btype : Nat := 0
  final : Bool := false
  start : Nat := 0
  stop : Nat := 0
  bytes : Nat := 0
  syms : Nat := 0
deriving DecidableEq, Repr

/-- A block begun, or counted on by one step of the inflater. -/
def BlockRec.next (r : BlockRec) (x y : Inf) : BlockRec :=
  match x.phase, y.phase with
  | .hdr, _ => { btype := y.btype, final := y.final, start := x.pos }
  | .block _ _, .block _ _ | .block _ _, .copy _ _ _ _ => { r with syms := r.syms + 1 }
  | _, _ => r

/-- The whole blocks of a stream, walked with the inflater; the first argument bounds its steps. -/
def blocksOf (b : IBound) : Nat → Nat → BlockRec → Inf → List BlockRec
  | 0, _, _, _ => []
  | n + 1, made, r, x =>
    match iStep b x with
    | (_, some _) => []
    | (y, none) =>
      let r := r.next x y
      if y.phase = .hdr ∨ y.phase = .done then { r with stop := y.pos, bytes := y.made - made } :: blocksOf b n y.made {} y else blocksOf b n made r y

/-- Bits of the stored encoding of n bytes from a place on, in blocks of at most 65 535 bytes: header, pad, LEN and NLEN, and the bytes. -/
def storedBits (start n : Nat) : Nat := 3 + (8 - (start + 3) % 8) % 8 + 32 + 40 * ((n - 1) / 65535) + 8 * n

/-- A Huffman block is emitted where its stored encoding is longer (R156), and once it has BLOCK_SYMS symbols, or at the end of the stream (R157). -/
def BlockRec.kept (syms : Nat) (r : BlockRec) : Bool :=
  r.btype == 0 || (decide (r.stop - r.start < storedBits r.start r.bytes) && (if r.final then decide (r.syms ≤ syms) else r.syms == syms))

/-! ### The search for matches (R157, Table 5.8)

The chain of a place holds each earlier place with the same three bytes, the nearest first (DEDUCED, log 43). -/

/-- The number of bytes, at most n, in which two runs agree. -/
def agree : Nat → List Byte → List Byte → Nat
  | n + 1, a :: as, b :: bs => if a = b then agree n as bs + 1 else 0
  | _, _, _ => 0

/-- The places that a search at p meets: the first DEPTH of its chain, as far back as WINDOW. -/
def chainAt (v : CodecSave) (ins : List Byte) (p : Nat) : List Nat :=
  if ins.length < p + 3 then []
  else (((List.range p).reverse.filter fun q => (ins.drop q).take 3 == (ins.drop p).take 3).take v.depth).filter fun q =>
    decide (p - q ≤ 1024 * v.window)

/-- The lengths of the matches met there, in the order of the search. -/
def lengthsAt (v : CodecSave) (ins : List Byte) (p : Nat) : List Nat := (chainAt v ins p).map fun q => agree 258 (ins.drop q) (ins.drop p)

/-- A length that a search may end with: one of NICE or more, at which it stops, or the longest met. -/
def searchEnds (v : CodecSave) (ls : List Nat) (l : Nat) : Bool := decide (v.nice ≤ l) || ls.all (decide <| · ≤ l)

/-- A symbol of a Huffman block: where in the output it begins, and the length and distance of its match, zero for a literal. -/
structure Token where
  place : Nat
  len : Nat
  dist : Nat
deriving DecidableEq, Repr

/-- The symbols of a stream, walked with the inflater; the first argument bounds its steps. -/
def tokensOf (b : IBound) : Nat → Inf → List Token
  | 0, _ => []
  | n + 1, x =>
    match iStep b x with
    | (_, some _) => []
    | (y, none) =>
      (match x.phase, y.phase with
        | .block _ _, .copy l d _ _ => [⟨x.made, l, d⟩]
        | .block _ _, .block _ _ => [⟨x.made, 0, 0⟩]
        | _, _ => []) ++ tokensOf b n y

/-- A symbol is one that the search gives: a match met at its distance, as long as it goes, and with LAZY 1 none longer at the next place; or a literal
where no match is met or, with LAZY 1, the next place matches longer. Near the end of input that is still to go on a search is not yet known. -/
def Token.kept (v : CodecSave) (whole : Bool) (ins : List Byte) (t : Token) : Bool :=
  let ls := lengthsAt v ins t.place
  let after := lengthsAt v ins (t.place + 1)
  if !whole && decide (ins.length < t.place + 259) then true
  else if t.len = 0 then
    ls.isEmpty || (v.lazy_ == 1 && ls.any fun l => searchEnds v ls l && after.any fun k => searchEnds v after k && decide (l < k))
  else
    (chainAt v ins t.place).contains (t.place - t.dist) && agree 258 (ins.drop (t.place - t.dist)) (ins.drop t.place) == t.len && searchEnds v ls t.len &&
      (v.lazy_ == 0 || after.isEmpty || after.any fun k => searchEnds v after k && decide (k ≤ t.len))

/-- Bits of a symbol in the fixed Huffman code. -/
def fixedBits (ins : List Byte) (t : Token) : Nat :=
  if t.len = 0 then (if (ins.getD t.place 0).toNat < 144 then 8 else 9)
  else
    let c := ((List.range 29).reverse.find? fun k => decide ((lengthCode k).1 ≤ t.len)).getD 0
    let d := ((List.range 30).reverse.find? fun k => decide ((distCode k).1 ≤ t.dist)).getD 0
    (if c < 23 then 7 else 8) + (lengthCode c).2 + 5 + (distCode d).2

/-- The symbols of the bytes from p up to stop, each search taking the first of the longest it may end with; the first argument bounds them. -/
def searchTokens (v : CodecSave) (ins : List Byte) (stop : Nat) : Nat → Nat → List Token
  | 0, _ => []
  | n + 1, p =>
    if stop ≤ p then []
    else
      let best (p : Nat) : Option (Nat × Nat) :=
        let cs := (chainAt v ins p).zip (lengthsAt v ins p)
        (cs.find? fun c => decide (v.nice ≤ c.2)).or (cs.find? fun c => cs.all fun e => decide (e.2 ≤ c.2))
      match best p, best (p + 1) with
      | none, _ => ⟨p, 0, 0⟩ :: searchTokens v ins stop n (p + 1)
      | some (q, l), next =>
        if v.lazy_ == 1 && next.any (fun e => decide (l < e.2)) then ⟨p, 0, 0⟩ :: searchTokens v ins stop n (p + 1)
        else ⟨p, min l (stop - p), p - q⟩ :: searchTokens v ins stop n (p + l)

/-- A run of stored blocks of a level that tries Huffman codes is no longer than the fixed Huffman form of its bytes (R156; log 43). -/
def storedKept (v : CodecSave) (ins : List Byte) (first last : BlockRec) (at_ : Nat) : Bool :=
  let n := last.bytes
  let ts := searchTokens v ins (at_ + n) n at_
  v.level == 0 || decide (last.stop - first.start ≤ (ts.map (fixedBits ins)).sum + 10 * max 1 (ceilDiv ts.length v.blockSyms))

/-- The blocks of a stream, its runs of stored blocks put together: those of a run are judged as one. The arguments are the place in the output and the
run so far, `bytes` being those of the run. -/
def runsKept (v : CodecSave) (ins : List Byte) : Nat → Option (BlockRec × BlockRec) → List BlockRec → Bool
  | _, none, [] => true
  | at_, some (a, z), [] => storedKept v ins a z (at_ - z.bytes)
  | at_, run, r :: rs =>
    if r.btype = 0 then
      match run with
      | none => runsKept v ins (at_ + r.bytes) (some (r, r)) rs
      | some (a, z) => runsKept v ins (at_ + r.bytes) (some (a, { r with bytes := z.bytes + r.bytes })) rs
    else (match run with | none => true | some (a, z) => storedKept v ins a z (at_ - z.bytes)) && runsKept v ins (at_ + r.bytes) none rs

/-- The bits are one whole code with what belongs to it, or one item of a block's header, going on from where the inflater stands; a match's codes are
emitted together (DEDUCED, log 43). -/
def oneCode (y : Inf) (next : List Bool) : Bool :=
  match iStep { limit := y.made + 1, room := y.made + 1 } { y with bits := next } with
  | (z, none) => !next.isEmpty && z.bits.isEmpty
  | _ => false

/-- Output that a compressor may have made (R137, R154 to R157). It begins with the pending bits and the code that did not fit before, fits, and splits no
code. What it decodes to is the input taken, or the beginning of it with no more kept back than 258 bytes and a block. Its types, symbols and blocks
keep the settings. It ends with the stream; or because `next`, the next whole code, does not fit; or after a whole block, its input being used up. -/
def compressorMay (r : CodecReq) (next : List Bool) (ins outs : List Byte) (pend : List Bool) (made : Nat) : Bool :=
  let bits := bitsOfBytes outs ++ pend
  let (y, stop) := decodeSoFar ins.length bits
  let v := r.save
  let full := !next.isEmpty
  let b : IBound := { limit := ins.length, room := ins.length }
  let fuel := bits.length + next.length + ins.length + 2
  let blocks := blocksOf b fuel 0 {} { bits := bits }
  decide (8 * made + pend.length ≤ 8 * r.outCap) && decide (pend.length < 8) && (v.pend ++ v.next).isPrefixOf (bits.drop (8 * v.outs.length) ++ next) &&
    (y.types ||| typesAllowed v.level) == typesAllowed v.level && decide (y.far ≤ 1024 * v.window) &&
    blocks.all (BlockRec.kept v.blockSyms) && runsKept v ins 0 none blocks &&
    ((tokensOf b fuel { bits := bits ++ next }).all (Token.kept v (r.final && !full) ins)) &&
    (if r.final && !full then stop == .finished && y.bytes == ins && pend.isEmpty && decide (y.bits.length < 8) && y.bits.all (!·)
     else stop == .needInput && y.bits.isEmpty && y.bytes.isPrefixOf ins && decide (ins.length - y.made ≤ 258 + 258 * v.blockSyms) &&
       (if full then oneCode y next && decide (8 * r.outCap < 8 * made + pend.length + next.length) else y.phase == .hdr))

/-- The entry of a stream table filled in by a compressor (R156). -/
def writeEntry (a : Nat) (raw : Bool) (ins outs : List Byte) (s : State) : State :=
  let b := Mem.read s.mem.dram (a + 1)
  let s := dramWrite 6 (a + 1) [if raw then b ||| 1 else b &&& 0xFE] s
  dramWrite 6 (a + 12) (leBytes 4 outs.length ++ leBytes 4 ins.length ++ leBytes 4 (crc32c ins).toNat ++ leBytes 4 (crc32c outs).toNat) s

/-- A request of the part's own leaves its compressor, with no event. -/
def dropRequest (r : CodecReq) (s : State) : State :=
  bgEnd (.codec r.unit) { s with codec := { s.codec with requests := s.codec.requests.filter fun q => q.unit != r.unit } }

/-- A deflate request ends with what its compressor has made of `used` bytes of the input (R154 to R156). -/
def endDeflate (r : CodecReq) (used : Nat) (made : List Byte) (pend next : List Bool) (s : State) : State :=
  let full := !next.isEmpty
  let ((bs, bad), s1) := readInput r s
  if bad ≠ 0 then
    let h : CtxHeader := { state := 3, kind := 1, inTotal := r.save.ins.length, outTotal := r.save.outs.length, run := crc32c r.save.ins }
    evCodecDone r (if bad = 0x0D then .poison else .uninit) 0 0 0 (writeContext r h r.save s1)
  else
    let used := if full then min used bs.length else bs.length
    let ins := r.save.ins ++ bs.take used
    let outs := r.save.outs ++ made
    if !compressorMay r next ins outs pend made.length then s
    else
      let ends := r.final && !full
      let stop := if ends then 0 else if full then 1 else 2
      let y := (decodeSoFar ins.length (bitsOfBytes outs ++ pend)).1
      let h : CtxHeader :=
        { state := if ends then 2 else 1, kind := 1, stop := stop, inTotal := ins.length, outTotal := outs.length, pending := pend.length
          pendBits := (pend.zipIdx.map fun e => bitAt e.1 e.2).sum, run := crc32c ins }
      let s2 := dramWrite 6 r.outAddr made s1
      let s2 := if ends && r.entry != 0 then writeEntry r.entry (y.types == 1) ins outs s2 else s2
      evCodecDone r (if ends then .ok else .resumable) stop used made.length
        (writeContext r h { r.save with ins := ins, outs := outs, pend := pend, next := next } s2)

end Sys2Proof.Machine
end

