-- ==== Sys2Proof/Machine/MemCtl.lean ====
section
/-! DEFINITION. The memory commands and what the memories do by themselves: arrangement, training and sweep (R371, R374), the scrubber (R387 to R389),
the leaky buckets (R382), repairs (R391, R392), the check-bit test mode (R393), refresh and its upsets (R370), and the check-value units' commands (R394,
R395). -/
namespace Sys2Proof.Machine

/-! ## Arrangement and sweep -/

/-- `mem.config` (Table 18.5). -/
def memSpecs : List PSpec :=
  [ ⟨1, 1, 4, 16, none⟩, ⟨2, 1, 1, 2, none⟩, ⟨3, 1, 0, 1, some 0⟩, ⟨4, 1, 1, 65535, some 64⟩, ⟨5, 1, 1, 60000, some 1000⟩ ]

/-- The arrangement is one of Table 13.1, as far as it is set. -/
def memRelation (m : ParamSet) : Option (List Nat) :=
  let d := pnat m 1 0 4
  if d ≠ 4 ∧ d ≠ 8 ∧ d ≠ 16 then some [1]
  else if d = 16 ∧ pnat m 2 0 1 = 2 then some [1, 2] else none

/-- `mem.config` (R371). -/
def memConfig (p : List Byte) (s : State) : Reply × State :=
  if listTarget p 0 ≠ 0 then refuse .badArg 0 s
  else match judgeList memSpecs memRelation s.cfg.staged.mem (listItems p 0) with
    | .error d => refuse .badArg d s
    | .ok m =>
      if s.mem.sweepSeen then refuse .badState 0 s else okWith [] { s with cfg := { s.cfg with staged := { s.cfg.staged with mem := m } } }

/-- MEM_CONFIG (R371). -/
def execMemConfig (s : State) : Host.Outcome State Fault Refusal := .next (runCommand 0x0E01 memConfig s)

/-- `ev.mem_sweep_done`, with which a `mem.sweep` counts as completed (R374). -/
def sweepDone (s : State) : State :=
  emit { code := 0x0E01, keep := true, payload := leBytes 4 s.mem.init[0] ++ leBytes 4 s.mem.init[1] ++ zeros 8 }
    (bgEnd .sweep { s with mem := { s.mem with swept := true, sweepBusy := false } })

/-- The sweep starts towards its target, or is done at once when the range reaches that far (R374). -/
def beginSweep (s : State) : State :=
  if s.mem.target ≤ min s.mem.init[0] s.mem.init[1] then sweepDone s else { s with mem := { s.mem with sweepBusy := true } }

/-- `mem.sweep` (R374). -/
def memSweep (p : List Byte) (s : State) : Reply × State :=
  let t := uAt p 0 4
  if let some d := missingParam [1, 2] (memCfg s) then refuse .badArg d s
  else if t % 2 ≠ 0 ∨ fittedBytes s < t * 2 ^ 20 then refuse .badArg 0 s
  else if s.mem.sweepBusy || s.mem.training then refuse .busy 0 s
  else
    let s := bgStart .sweep { s with mem := { s.mem with sweepSeen := true, target := t / 2 } }
    okWith [] (if s.mem.trained then beginSweep s else { s with mem := { s.mem with training := true } })

/-- MEM_SWEEP (R374). -/
def execMemSweep (s : State) : Host.Outcome State Fault Refusal := .next (runCommand 0x0E02 memSweep s)

/-- DRAM_TRAINING_DONE (R371): each channel's training has passed or failed. -/
def execDramTrainingDone (ok0 ok1 : Bool) (s : State) : Host.Outcome State Fault Refusal :=
  if !s.mem.training then .next s
  else
    let s := { s with mem := { s.mem with training := false, trained := ok0 && ok1 } }
    if ok0 && ok1 then .next (beginSweep s)
    else
      let s := if ok0 then s else raiseFault .drcTrain 0x13 0xFFFF s
      let s := if ok1 then s else raiseFault .drcTrain 0x14 0xFFFF s
      .next (bgEnd .sweep s)

/-- A MiB of a channel written with zero and valid check bits (R374). -/
def zeroMib (ch mib : Nat) (s : State) : State :=
  let here (a : Nat) : Bool := channelOf a == ch && localOf a / 2 ^ 20 == mib
  { s with mem := { s.mem with dram := s.mem.dram.filter fun c => !here c.1, synd := s.mem.synd.filter fun c => !here (8 * c.1) } }

/-- Writes held for lines that are swept no longer are applied in order (R374). -/
def applyHeld : List HeldWrite → State → State
  | [], s => s
  | w :: ws, s => applyHeld ws (writeLineEn 5 w.line w.bytes s)

/-- SWEEP_MIB_COMPLETE (R374): a channel finishes the MiB it sweeps. -/
def execSweepMibComplete (ch : Fin 2) (s : State) : Host.Outcome State Fault Refusal :=
  let k := s.mem.init[ch]
  if !s.mem.sweepBusy || decide (s.mem.target ≤ k) then .next s
  else
    let s := zeroMib ch.val k s
    let held := s.mem.heldWrites
    .next (applyHeld held { s with mem := { s.mem with init := s.mem.init.set ch (k + 1), heldWrites := [] } })

/-- MEM_SWEEP_DONE (R374): both channels have reached the target. -/
def execMemSweepDone (s : State) : Host.Outcome State Fault Refusal :=
  .next (if s.mem.sweepBusy && decide (s.mem.target ≤ min s.mem.init[0] s.mem.init[1]) then sweepDone s else s)

/-! ## Status -/

/-- `mem.status` (R519). -/
def memStatus (p : List Byte) (s : State) : Reply × State :=
  let k := uAt p 0 1
  if 7 < k then refuse .badArg 0 s
  else
    let m := nthOr s.mem.sources k {}; let c := s.mem.scrub
    okWith (leBytes 4 m.ce ++ leBytes 4 m.ue ++ leBytes 2 m.bucket ++ leBytes 1 m.log.length ++
      leBytes 1 (if c.running then (if c.paused then 2 else 1) else 0) ++ leBytes 4 c.pass ++ leBytes 8 c.pos ++
      m.log.flatMap fun e => leBytes 8 e.addr ++ leBytes 1 e.syndrome ++ leBytes 1 e.cls ++ zeros 2 ++ leBytes 4 e.time.toNat) s

/-- MEM_STATUS (R519). -/
def execMemStatus (s : State) : Host.Outcome State Fault Refusal := .next (runCommand 0x0E03 memStatus s)

/-- CE_LEAK_TICK (R382): one is taken from each bucket when CE_LEAK ms have passed since the last leak. -/
def execCeLeakTick (s : State) : Host.Outcome State Fault Refusal :=
  .next (if s.mem.leakAt + 800000 * pnat (memCfg s) 5 0 1000 ≤ s.clock then
      { s with mem := { s.mem with leakAt := s.clock, sources := s.mem.sources.map fun m => { m with bucket := m.bucket - 1 } } }
    else s)

/-! ## The scrubber -/

/-- `mem.scrub` (R387). -/
def memScrub (p : List Byte) (s : State) : Reply × State :=
  let target := uAt p 0 1; let rate := uAt p 4 4; let base := uAt p 8 8; let limit := uAt p 16 8
  if 1 < uAt p 2 1 then refuse .badArg 2 s
  else if uAt p 2 1 = 1 then okWith [] (stopScrub s)
  else if 1 < target then refuse .badArg 0 s
  else if rate < 10 ∨ 2000 < rate then refuse .badArg 4 s
  else if target = 0 ∧ base % 64 ≠ 0 then refuse .badArg 8 s
  else if target = 0 ∧ (limit % 64 ≠ 0 ∨ limit ≤ base) then refuse .badArg 16 s
  else if s.mem.scrub.running then refuse .busy 0 s
  else if target = 0 ∧ initBytes s < limit then refuse .uninit 0 s
  else
    let c : Scrub := { running := true, sram := target == 1, base := if target = 0 then base else 0, limit := limit, rateAt := s.clock, rate := rate, passes := uAt p 1 1
                       pos := if target = 0 then base else 0 }
    okWith [] (scrubPause (bgStart .scrub { s with mem := { s.mem with scrub := c } }))

/-- MEM_SCRUB (R387). -/
def execMemScrub (s : State) : Host.Outcome State Fault Refusal := .next (runCommand 0x0E04 memScrub s)

/-- The scrubber's counts moved up to a place: by one line, or by the words up to there. -/
def scrubCount (corrected newPoison found pos : Nat) (s : State) : State :=
  let c := s.mem.scrub
  { s with mem := { s.mem with scrub := { c with
    lines := wrapAdd 32 c.lines (if c.sram then pos - c.pos else 1), rateLines := c.rateLines + (if c.sram then pos - c.pos else 1), corrected := wrapAdd 32 c.corrected corrected, newPoison := satAdd 16 c.newPoison newPoison
    found := satAdd 16 c.found found, pos := pos } } }

/-- A pass ends: `ev.scrub_done`, then the next pass or the end of the scrub (R389, Table 13.5). -/
def endPass (s : State) : State :=
  let s := evScrubDone false s
  let c := s.mem.scrub
  if c.passes ≠ 0 ∧ c.passes ≤ c.pass + 1 then bgEnd .scrub { s with mem := { s.mem with scrub := { c with running := false } } }
  else { s with mem := { s.mem with scrub := { c with
    pass := c.pass + 1, pos := c.base, lines := 0, corrected := 0, newPoison := 0, found := 0, pausedTicks := 0 } } }

/-- One DRAM line scrubbed (R388). -/
def scrubDram (s : State) : State :=
  let la := s.mem.scrub.pos
  if channelStopped s la then s
  else
  let dirty := ((List.range 8).filter fun k => beatSyndrome s (la + 8 * k) != 0).length
  let s := match lineState s la with
    | .good => scrubCount dirty 0 0 (la + 64) (checkLine 0xFF la 1 s).2
    | .poisoned => scrubCount 0 0 1 (la + 64) s
    | .bad _ => scrubCount 0 1 0 (la + 64) (checkLine 0xFF la 1 s).2
  if s.mem.scrub.limit ≤ la + 64 then endPass s else s

/-- One on-die word scrubbed, found with a syndrome (R388): corrected, or poisoned and reported, and no fault. A word that is poison is found as
such; a word of the fire accumulator store is rewritten as zero (R388, R484). -/
def scrubWord (word : Nat) (synd : BitVec 8) (s : State) : State :=
  let had := SMap.get 0 s.mem.ondie word
  let y := if had = 0xFF then had else had ^^^ synd
  let put (v : BitVec 8) (s : State) : State :=
    flipWord word (syndromeBit synd ^^^ syndromeBit y) { s with mem := { s.mem with ondie := SMap.put 0 s.mem.ondie word v } }
  let ce (bit : Nat) (s : State) : State :=
    scrubCount 1 0 0 (word + 1) (countBankCe word bit (countCe (ondieSource word) word y 0xFF (put 0 s)))
  match classify y with
  | .clean => scrubCount 0 0 0 (word + 1) (put 0 s)
  | .poison => scrubCount 0 0 1 (word + 1) s
  | .dataBit j => ce j s
  | .checkBit => ce (64 + checkBitOf y) s
  | .uncorrectable =>
    let quiet := s.mem.testWords.contains (1, word)
    if wordOwner word = lifeSource then scrubCount 0 1 0 (word + 1) (loseAcc (word - accWord 0) (countUe (ondieSource word) word y 0xFF 0 1 quiet s))
    else
      let s := poisonWord word (countUe (ondieSource word) word y 0xFF 0 3 quiet s)
      scrubCount 0 1 0 (word + 1) (if quiet then s else noteBankUe word s)

/-- The words with a syndrome that the scrubber passes on its way, from lo up to hi. -/
def scrubWords (lo hi : Nat) (s : State) : State :=
  ((s.mem.ondie.map (·.1)).filter fun k => decide (lo ≤ k) && decide (k < hi)).foldl (fun s k => scrubWord k 0 s) s

/-- One past the last on-die word, of the last cell's store (log 13). -/
def ondieEnd : Nat := (512 + 512) * 8192

/-- The scrubber may have read on to a place: DRAM lines of 64 bytes stay within RATE MB/s from where the average began (Table 13.5), and on-die words
come at one in a CORE clock at most (R388). -/
def rateAllows (word : Nat) (s : State) : Bool :=
  let c := s.mem.scrub
  if c.sram then decide (c.rateLines + (word + 1 - c.pos) ≤ s.clock - c.rateAt) else decide (51200 * c.rateLines ≤ c.rate * (s.clock - c.rateAt))

/-- SCRUB_LINE (R388). For an on-die scrub the operands name the word reached, upward through the banks and stores, the bits it has lost, as a syndrome,
and whether it is the last of them, with which the pass ends; the words on the way are read as they stand. A row whose operands do not fit the
words changes nothing. -/
def execScrubLine (word : Nat) (synd : BitVec 8) (last : Bool) (s : State) : Host.Outcome State Fault Refusal :=
  let c := s.mem.scrub
  if !c.running || c.paused || !rateAllows word s then .next s
  else if !c.sram then .next (scrubDram s)
  else if word < c.pos ∨ ondieEnd ≤ word ∨ last ≠ decide (word + 1 = ondieEnd) then .next s
  else
    let s := scrubWord word synd (scrubWords c.pos word s)
    .next (if last then endPass s else s)

/-! ## Refresh -/

/-- Bits of a DRAM beat flip. -/
def upsetBeat (a : Nat) (data : BitVec 64) (check : BitVec 8) (s : State) : State :=
  let a := a / 8 * 8
  let flip (d : Mem) (k : Nat) : Mem := Mem.write d (a + k) (Mem.read d (a + k) ^^^ BitVec.ofNat 8 (data.toNat / 256 ^ k))
  let y : BitVec 8 := beatSyndrome s a ^^^ check ^^^ BitVec.ofNat 8 (columnXor dataColumns data.toNat)
  { s with mem := { s.mem with dram := (List.range 8).foldl flip s.mem.dram, synd := SMap.put 0 s.mem.synd (a / 8) y } }

/-- What a channel still reports on ALERT_n after four retries: a command, or the write of a line by any of its requesters, whose address is recorded
(DRC_PARITY, DRC_CRC, Table 13.7). -/
def takeAlert (ch : Nat) (alert : DramAlert) (s : State) : State :=
  if !s.mem.trained then s
  else match alert with
    | .none_ => s
    | .command => raiseFault .drcParity (0x13 + ch) 0xFFFF s
    | .write a =>
      if channelOf a = ch ∧ beyondFitted s (64 * (a / 64)) 64 = false then
        raiseFault .drcCrc (0x13 + ch) 0xFFFF (nameFault { cls := .drcCrc, addr := 64 * (a / 64) } s)
      else s

/-- DRAM_REFRESH (R370): the refresh of a channel changes nothing the part shows. Its operands say which stored bits have decayed since the last one,
and what the channel still reports on ALERT_n after its retries (Table 13.2, Table 13.7). -/
def execDramRefresh (ch : Fin 2) (alert : DramAlert) (upsets : List Upset) (s : State) : Host.Outcome State Fault Refusal :=
  let here := upsets.filter fun u => channelOf u.addr == ch.val && !beyondFitted s u.addr 8
  .next (takeAlert ch.val alert (here.foldl (fun s u => upsetBeat u.addr u.data u.check s) s))

/-- ZQ_CALIBRATION (R370): a ZQCS changes nothing the part shows. -/
def execZqCalibration (s : State) : Host.Outcome State Fault Refusal := .next s

/-! ## Repairs -/

/-- Spares of a kind a bank has in use or spoken for: two rows and one column (R378, R390, R391). -/
def sparesTaken (s : State) (kind bank : Nat) : Nat :=
  (s.mem.fuses.filter fun r => r.bank == bank && r.kind == kind).length +
    (s.life.repairs.filter fun e => uAt e 0 1 == kind && uAt e 2 2 % 512 == bank).length

/-- `mem.repair` (R391). -/
def memRepair (p : List Byte) (s : State) : Reply × State :=
  let kind := uAt p 0 1; let bank := uAt p 2 2; let i := uAt p 4 2
  if kind ≠ 1 ∧ kind ≠ 2 then refuse .badArg 0 s
  else if 448 ≤ bank then refuse .badArg 2 s
  else if (if kind = 1 then 1024 else 576) ≤ i then refuse .badArg 4 s
  else if (if kind = 1 then 2 else 1) ≤ sparesTaken s kind bank then refuse .noSpace 0 s
  else okWith [] (addRepair 0 (sramEntry kind bank i) s)

/-- MEM_REPAIR (R391). -/
def execMemRepair (s : State) : Host.Outcome State Fault Refusal := .next (runCommand 0x0E05 memRepair s)

/-- The row `mem.ppr` names, by address or by candidate, or the offset of the wrong field. -/
def pprRow (p : List Byte) (s : State) : Except Nat RowAddr :=
  if uAt p 0 1 = 0 then
    let r : RowAddr := { ch := uAt p 1 1, rank := uAt p 2 1, bg := uAt p 3 1, bank := uAt p 4 1, row := uAt p 8 4 }
    if 1 < r.ch then .error 1
    else if max 1 (pnat (memCfg s) 2 0 0) ≤ r.rank then .error 2
    else if 3 < r.bg then .error 3
    else if 3 < r.bank then .error 4
    else if 2 ^ rowBits s ≤ r.row then .error 8
    else .ok r
  else if uAt p 0 1 = 1 then
    match s.life.repairs[uAt p 6 2]? with
    | some e => if uAt e 0 1 = 3 ∧ uAt e 1 1 = 0 then .ok (entryRow e) else .error 6
    | none => .error 6
  else .error 0

/-- The bank group of a row by number. -/
def RowAddr.group (r : RowAddr) : Nat := r.ch * 8 + r.rank * 4 + r.bg

/-- `mem.ppr` (R392); `support` says that the devices support hPPR. -/
def memPpr (support : Bool) (p : List Byte) (s : State) : Reply × State :=
  match pprRow p s with
  | .error d => refuse .badArg d s
  | .ok r =>
    if s.mem.ppr.isSome then refuse .busy 0 s
    else if !support || s.mem.pprUsed.contains r.group then refuse .noSpace 0 s
    else okWith [] (bgStart .ppr { s with mem := { s.mem with ppr := some ⟨r.ch, r.rank, r.bg, r.bank, r.row⟩ } })

/-- MEM_PPR (R392). -/
def execMemPpr (support : Bool) (s : State) : Host.Outcome State Fault Refusal := .next (runCommand 0x0E06 (memPpr support) s)

/-- The repair map's candidate for a row takes a state, when it holds one; the index, else 0xFFFF. -/
def settleCandidate (state : Nat) (r : RowAddr) (s : State) : Nat × State :=
  match s.life.repairs.findIdx? fun e => uAt e 0 1 == 3 && uAt e 1 1 == 0 && entryRow e = r with
  | some i => (i, putRepairs (s.life.repairs.modify i fun e => e.set 1 (BitVec.ofNat 8 state)) s)
  | none => (0xFFFF, s)

/-- The lines of a row within the initialised range written with zero and valid check bits (R392). -/
def zeroRow (r : RowAddr) (s : State) : State :=
  let hit (a : Nat) : Bool := decide (a < initBytes s) && rowAddr s a == r
  { s with mem := { s.mem with dram := s.mem.dram.filter fun c => !hit c.1, synd := s.mem.synd.filter fun c => !hit (8 * c.1) } }

/-- PPR_DONE (R392): the repair has succeeded or failed. -/
def execPprDone (ok : Bool) (s : State) : Host.Outcome State Fault Refusal :=
  match s.mem.ppr with
  | none => .next s
  | some x =>
    let r : RowAddr := ⟨x.ch, x.rank, x.bg, x.bank, x.row⟩
    let s := { s with mem := { s.mem with ppr := none, pprUsed := r.group :: s.mem.pprUsed } }
    let s := zeroRow r s
    let cause := match s.life.repairs.find? fun e => uAt e 0 1 == 3 && uAt e 1 1 == 0 && entryRow e = r with | some e => uAt e 7 1 | none => 0
    let (i, s) := settleCandidate (if ok then 1 else 2) r s
    let s := bgEnd .ppr (evMemRepair (if ok then 2 else 3) (rowEntry (if ok then 1 else 2) cause r) i s)
    .next (if ok then s else raiseFault .drcPpr (0x13 + r.ch) 0xFFFF s)

/-! ## The check-bit test mode -/

/-- The address that a DRAM beat folds into its check bits (R376). -/
def foldedDram (a : Nat) : Nat := localOf a / 8

/-- The stored data of a word of a space (R393): an on-die word whose data is not known holds what the reset sweep left, zero, until its bank's owner has
written there, and from then on a free value (R379, log 3). -/
def rawData (space a : Nat) (s : State) : Nat × State :=
  if space = 0 then (leNat (Mem.readN s.mem.dram a 8), s)
  else match s.mem.ondieData.find? fun e => e.1 == a with
    | some e => (e.2, s)
    | none =>
      if s.mem.ondieUsed.getLsbD (a / 8192) then (Config.freeNat s.free % 2 ^ 64, { s with free := s.free + 1 }) else (0, s)

/-- The word is recorded as a test's (R393). -/
def recordTest (space a : Nat) (s : State) : State :=
  if s.mem.testWords.contains (space, a) then s else { s with mem := { s.mem with testWords := s.mem.testWords ++ [(space, a)] } }

/-- `mem.ecctest` (R393). -/
def memEcctest (p : List Byte) (s : State) : Reply × State :=
  let op := uAt p 0 1; let space := uAt p 1 1; let chk := uAt p 2 1; let a := uAt p 8 8; let d := uAt p 16 8
  let fold := if space = 0 then foldedDram a else a
  if 2 < op then refuse .badArg 0 s
  else if 1 < space then refuse .badArg 1 s
  else if (if space = 0 then a % 8 ≠ 0 || beyondFitted s a 8 else decide (448 * 8192 ≤ a)) then refuse .badArg 8 s
  else if space = 0 && uninitRange s a 8 then refuse .uninit 0 s
  else if op = 1 then
    let y := (if space = 0 then beatSyndrome s a else SMap.get 0 s.mem.ondie a).toNat
    let (v, s) := rawData space a s
    okWith (leBytes 8 v ++ leBytes 1 (checkBits fold v ^^^ y) ++ leBytes 1 y ++ zeros 6) s
  else if !s.mem.testWords.contains (space, a) && decide (64 ≤ s.mem.testWords.length) then refuse .noSpace 0 s
  else
    let s := recordTest space a s
    if op = 0 then
      let y := BitVec.ofNat 8 (chk ^^^ checkBits fold d)
      okWith [] (if space = 0 then { s with mem := { s.mem with dram := Mem.writeN s.mem.dram a (leBytes 8 d), synd := SMap.put 0 s.mem.synd (a / 8) y } }
        else setWord a d { s with mem := { s.mem with ondie := SMap.put 0 s.mem.ondie a y } })
    else
      okWith [] { s with mem := { s.mem with
        injects := s.mem.injects ++ [{ space := space, addr := a, check := BitVec.ofNat 8 chk, data := BitVec.ofNat 64 d }] } }

/-- MEM_ECCTEST (R393). -/
def execMemEcctest (s : State) : Host.Outcome State Fault Refusal := .next (runCommand 0x0E07 memEcctest s)

/-- Every recorded test word rewritten as zero with valid check bits, and no injection left (R393, `svc.exit`). -/
def restoreTestWords (s : State) : State :=
  let dr := (s.mem.testWords.filter (·.1 == 0)).map (·.2); let od := (s.mem.testWords.filter (·.1 == 1)).map (·.2)
  { s with mem := { s.mem with
    dram := dr.foldl (fun m a => Mem.writeN m a (zeros 8)) s.mem.dram, synd := dr.foldl (fun m a => SMap.put 0 m (a / 8) 0) s.mem.synd
    ondie := od.foldl (fun m a => SMap.put 0 m a 0) s.mem.ondie
    ondieData := od.map (fun a => (a, 0)) ++ s.mem.ondieData.filter fun e => !od.contains e.1
    testWords := [], injects := [] } }

/-! ## Check-value units -/

/-- One unit changed. -/
def setCvu (u : Nat) (f : Cvu → Cvu) (s : State) : State := { s with mem := { s.mem with cvu := updAt s.mem.cvu u f } }

/-- A unit stops: `ev.cvu_done` (R395). -/
def stopCvu (u : Nat) (s : State) : State :=
  let c := nthOr s.mem.cvu u {}
  emit { code := 0x0F01, source := 5, keep := true
         payload := leBytes 1 u ++ leBytes 1 c.point ++ zeros 2 ++ leBytes 4 (~~~ c.state).toNat ++ leBytes 8 c.count }
    (setCvu u (fun c => { c with armed := false, running := false, reached := false }) s)

/-- The first wrong field of `cvu.config` (R394). -/
def cvuBad (p : List Byte) (s : State) : Option Nat :=
  let point := uAt p 1 1; let sel := uAt p 4 1
  if 7 < uAt p 0 1 then some 0
  else if 8 < point then some 1
  else if point = 0 then none
  else if 2 < uAt p 2 1 then some 2
  else if 3 < uAt p 3 1 then some 3
  else if 3 ≤ point ∧ point ≤ 6 ∧ !portSet s sel then some 4
  else if point = 8 ∧ 1 < sel then some 4
  else if point = 3 ∧ (uAt p 6 2 % 256 ≠ 0 ∨ 8192 ≤ uAt p 6 2) then some 6
  else if uAt p 3 1 = 1 ∧ (uAt p 24 8 = 0 ∨ 2 ^ 40 < uAt p 24 8) then some 24
  else none

/-- `cvu.config` (R394). -/
def cvuConfig (p : List Byte) (s : State) : Reply × State :=
  let u := uAt p 0 1; let c := nthOr s.mem.cvu u {}; let start := uAt p 2 1
  match cvuBad p s with
  | some d => refuse .badArg d s
  | none =>
    if uAt p 1 1 = 0 then okWith [] (if c.armed || c.running then stopCvu u s else s)
    else if c.armed || c.running then refuse .busy 0 s
    else
      let d : Cvu := { c with
        point := uAt p 1 1, start := start, stop := uAt p 3 1, sel := uAt p 4 1, firstNoz := uAt p 6 2, base := uAt p 8 8, limit := uAt p 16 8
        bytes := uAt p 24 8, armed := true, reached := false }
      okWith [] (setCvu u (fun _ => if start = 0 then d.begin else d) s)

/-- CVU_CONFIG (R394). -/
def execCvuConfig (s : State) : Host.Outcome State Fault Refusal := .next (runCommand 0x0F01 cvuConfig s)

/-- `cvu.read` (R395). -/
def cvuRead (p : List Byte) (s : State) : Reply × State :=
  let c := nthOr s.mem.cvu (uAt p 0 1) {}
  if 7 < uAt p 0 1 then refuse .badArg 0 s
  else okWith (leBytes 4 c.state.toNat ++ leBytes 4 (~~~ c.state).toNat ++ leBytes 8 c.count ++ leBytes 1 (bitAt c.armed 0 + bitAt c.running 1) ++ zeros 7) s

/-- CVU_READ (R395). -/
def execCvuRead (s : State) : Host.Outcome State Fault Refusal := .next (runCommand 0x0F02 cvuRead s)

/-- `cvu.write` (R395). -/
def cvuWrite (p : List Byte) (s : State) : Reply × State :=
  let c := nthOr s.mem.cvu (uAt p 0 1) {}
  if 7 < uAt p 0 1 then refuse .badArg 0 s
  else if c.armed || c.running then refuse .busy 0 s
  else okWith [] (setCvu (uAt p 0 1) (fun c => { c with state := BitVec.ofNat 32 (uAt p 4 4), count := uAt p 8 8 }) s)

/-- CVU_WRITE (R395). -/
def execCvuWrite (s : State) : Host.Outcome State Fault Refusal := .next (runCommand 0x0F03 cvuWrite s)

/-- CVU_STOP (R395): a unit that has reached its stop condition stops. -/
def execCvuStop (u : Fin 8) (s : State) : Host.Outcome State Fault Refusal :=
  let c := s.mem.cvu[u]
  .next (if c.running && c.reached then stopCvu u.val s else s)

end Sys2Proof.Machine
end

