-- ==== Sys2Proof/Machine/Lease.lean ====
section
/-! DEFINITION. The lease: its messages and paths (R429, R431 to R434), what loses and gains it (R430, R446), FOLLOW entered and left
(R422, R437), fitness (R438), and takeover (R446, R447). -/
namespace Sys2Proof.Machine

/-! ## Parameters and standing -/

/-- The committed twin parameters (Table 15.1). -/
def revertHold (s : State) : Nat := pnat s.cfg.live.twin 2 0 10
def swapEvery (s : State) : Nat := pnat s.cfg.live.twin 3 0 8
def takeoverAuto (s : State) : Bool := pnat s.cfg.live.twin 4 0 0 == 0

/-- This unit holds the lease (R422). -/
def holdsLease (s : State) : Bool := s.twin.lease != .none_

/-- The peer is in contact: a lease path is up (R422). -/
def inContact (s : State) : Bool := s.twin.linkAt.isSome || s.twin.wireAt.isSome

/-- EPOCH a is newer than EPOCH b: the signed 16-bit difference is above zero (R431). -/
def epochNewer (a b : BitVec 16) : Bool := decide (0 < toSigned 16 (a - b).toNat)

/-- The lease fields changed. -/
def setTwin (f : Twin → Twin) (s : State) : State := { s with twin := f s.twin }

/-- A lease counter has moved (Table 19.9, TWIN). -/
def countTwin (f : Twin → Twin) (s : State) : State := touchGroup 7 (setTwin f s)

/-- A moment of the model's clock as the timebase now counts it. -/
def tbAt (t : Nat) (s : State) : Nat := ofSigned 64 ((s.time.tb.toNat : Int) + ((t : Int) - s.clock) * 5 / 4)

/-! ## Events -/

/-- `ev.lease_lost` (Table 19.7): 0x62 expiry, 0 a newer EPOCH. -/
def evLeaseLost (status : Nat) (s : State) : State :=
  emit { code := 0x1201, source := 0x61, status := status, keep := true
         payload := leBytes 2 s.twin.epoch.toNat ++ leBytes 1 (bitAt s.twin.linkAt.isSome 0 + bitAt s.twin.wireAt.isSome 1) ++ [0] ++
           leBytes 4 s.job.pacLine.toNat ++ leBytes 8 (tbAt s.twin.e s) } s

/-- `ev.twin_fit` with FIT (R438). -/
def evTwinFit (s : State) : State :=
  emit { code := 0x1202, source := 0x61, flags := 1
         payload := leBytes 2 s.twin.epoch.toNat ++ zeros 6 ++ leBytes 4 s.job.pacLine.toNat ++ zeros 4 } s

/-- `ev.twin_path_down` (R448): 1 twin link, 2 lease wires. -/
def evPath (wire up : Bool) (s : State) : State :=
  emit { code := 0x1207, source := 0x61, status := if wire then 2 else 1, flags := bitAt up 0, payload := zeros 16 } s

/-- `ev.twin_handover` (Table 15.6, step 6). -/
def evHandover (trigger : Nat) (active : Bool) (s : State) : State :=
  emit { code := 0x1205, source := 0x61, status := trigger, flags := bitAt active 0, keep := true
         payload := leBytes 2 s.twin.epoch.toNat ++ zeros 2 ++ leBytes 4 s.job.pacLine.toNat ++ leBytes 8 (ofSigned 64 s.twin.delta) } s

/-- `ev.takeover` (R446). -/
def evTakeover (kind cause : Nat) (s : State) : State :=
  emit { code := 0x1206, source := 0x61, status := kind, flags := bitAt s.twin.uncertain 0, keep := true
         payload := leBytes 2 s.twin.epoch.toNat ++ leBytes 1 cause ++ [0] ++ leBytes 4 s.job.pacLine.toNat ++ zeros 8 } s

/-! ## Messages received -/

/-- The message comes by the lease wires. -/
def byWires : LeaseIn → Bool
  | .wire _ => true
  | .link _ => false

/-- The message in what arrives on a path: a wire frame whose preamble, delimiter and CRC are right (R433), or the payload of a LEASE frame (R434). -/
def leaseOf (wire : Bool) (f : List Byte) : Option (List Byte) :=
  let m := (f.drop 2).take 6
  if wire then if f.length = 9 ∧ f.take 2 = [0x55, 0xD5] ∧ f.drop 8 = [crc8 m] then some m else none
  else if f.length = 8 ∧ f.drop 6 = [0, 0] then some (f.take 6) else none

/-- R432: TYPE is one of Table 15.3 and the reserved bits are zero. -/
def leaseGood (m : List Byte) : Bool := let t := uAt m 0 1 % 16; decide (1 ≤ t) && decide (t ≤ 6) && uAt m 0 1 / 64 == 0

/-- Fields of a lease message (Table 15.3). -/
def leaseType (m : List Byte) : Nat := uAt m 0 1 % 16
def leaseFit (m : List Byte) : Bool := bitOf (uAt m 0 1) 5
def leaseEpoch (m : List Byte) : BitVec 16 := BitVec.ofNat 16 (uAt m 2 2)
def leaseSeq (m : List Byte) : Nat := uAt m 4 2

/-- A path on which a valid message has arrived is up (R429); its return is reported (R448). -/
def pathUp (wire : Bool) (s : State) : State :=
  let was := if wire then s.twin.wireAt.isSome else s.twin.linkAt.isSome
  let s := setTwin (fun t => if wire then { t with wireAt := some s.clock } else { t with linkAt := some s.clock }) s
  if pairOn s && !was then evPath wire true s else s

/-- The peer's FIT bit; while the secondary is active, the REVERT_HOLD timer runs as long as the primary is fit (R445). -/
def notePeerFit (fit : Bool) (s : State) : State :=
  setTwin (fun t => { t with
    peerFit := fit
    revertAt := if fit && t.lease != .none_ && s.sys.straps.unitId then t.revertAt.or (some s.clock) else none }) s

/-- The newest EPOCH received is kept (R450). -/
def noteEpoch (e : BitVec 16) (s : State) : State :=
  setTwin (fun t => { t with newest := some (match t.newest with | some n => if epochNewer e n then e else n | none => e) }) s

/-- A lease message that arrives: refused and counted when R432 or R433 is broken, ignored and counted when its EPOCH is older than this unit's, else
acted on (R431). An unpaired unit keeps its paths and hears who renews. -/
def leaseHeard (wire : Bool) (f : List Byte) (type : Nat) (act : List Byte → State → State) (s : State) : State :=
  match leaseOf wire f with
    | none => if wire then countTwin (fun t => { t with wireRefused := wrapAdd 32 t.wireRefused 1 }) s
      else countTwin (fun t => { t with msgRefused := wrapAdd 32 t.msgRefused 1 }) s
    | some m =>
      if !leaseGood m then
        if wire then countTwin (fun t => { t with wireRefused := wrapAdd 32 t.wireRefused 1 }) s
        else countTwin (fun t => { t with msgRefused := wrapAdd 32 t.msgRefused 1 }) s
      else if leaseType m ≠ type then s
      else
        let s := pathUp wire s
        if !pairOn s then
          setTwin (fun t => if type = 2 then { t with heardRenew := true, epoch := leaseEpoch m } else { t with heardRenew := false }) s
        else if epochNewer s.twin.epoch (leaseEpoch m) then countTwin (fun t => { t with leaseStale := wrapAdd 32 t.leaseStale 1 }) s
        else act m (noteEpoch (leaseEpoch m) (notePeerFit (leaseFit m) s))

/-- The bytes hold a good message of another type, which is another row's. -/
def leaseOther (type : Nat) (f : List Byte) : Bool :=
  match leaseOf false f with | some m => leaseGood m && leaseType m != type | none => false

/-- What arrives on a path: the frame of a lease wire, or a LEASE frame of the twin link, whose message takes its turn (R433 to R435). -/
def receiveLease (m : LeaseIn) (type : Nat) (act : List Byte → State → State) (s : State) : State :=
  match m with
  | .wire h => if s.sys.phase == .running then leaseHeard true (leaseBytes h) type act s else s
  | .link f =>
    let s := acceptLease f s
    match s.twinLink.rxLease with
    | [] => s
    | m :: ms =>
      if !(s.sys.phase == .running) || leaseOther type m then s
      else leaseHeard false m type act (setLink 1 (fun k => { k with rxLease := ms }) s)

/-- A PASS, RELEASE or DEPART acts on its first copy only (R434): the EPOCH and SEQ of the last 16 acted on are kept, more than can repeat at one
time (DESIGN CHOICE, log 31). -/
def actOnce (m : List Byte) (f : State → State) (s : State) : State :=
  let k := ((leaseEpoch m).toNat, leaseSeq m)
  if k ∈ s.twin.acted then s else f (setTwin (fun t => { t with acted := (k :: t.acted).take 16 }) s)

/-! ## Messages sent -/

/-- RENEW on both paths with the next SEQ (R429). -/
def sendRenew (s : State) : State :=
  let q := s.twin.seq + 1
  let s := setTwin (fun t => { t with seq := q, sentAt := ((q.toNat, s.clock) :: t.sentAt).take 16 }) s
  sendLease (leaseMsg 2 0 s.twin.epoch.toNat q.toNat s) s

/-- A message other than RENEW and GRANT carries the sender's message count (Table 15.3). -/
def sendHello (s : State) : State :=
  let s := setTwin (fun t => { t with msgSeq := t.msgSeq + 1 }) s
  sendLease (leaseMsg 1 0 s.twin.epoch.toNat s.twin.msgSeq.toNat s) s

/-- The messages still to be repeated are sent in this slot (R434). -/
def sendRepeats (s : State) : State :=
  let ms := s.twin.repeats
  ms.foldl (fun s e => sendLease e.1 s)
    (setTwin (fun t => { t with repeats := (ms.map fun e => (e.1, e.2 - 1)).filter fun e => e.2 != 0 }) s)

/-- The lease column of Table 2.2 is Off in CONFIGURE and SERVICE, as it is in BOOT and KEEPALIVE (R38). -/
def leaseOff (s : State) : Bool :=
  match s.sys.mode with
  | .keepalive | .boot | .configure | .service => true
  | _ => false

/-- The lease exchange of a paired unit runs (R38). -/
def leaseRuns (s : State) : Bool := pairOn s && !leaseOff s

/-- A unit may take the lease in this mode: the lease column is neither Off nor Released (R38), and no warm reset waits for its flush (R41). -/
def leaseTakeable (s : State) : Bool := leaseRuns s && !isStopped s 0x61 && s.sys.mode != .safestop && !s.sys.resetPending

/-- RENEW_TIMER (R429, R434): a 250 µs slot. A holder renews; a unit in NONE that has had no RENEW to answer since the last slot sends HELLO. -/
def execRenewTimer (s : State) : Host.Outcome State Fault Refusal :=
  let s := if leaseOff s then s else sendRepeats s
  .next (if !leaseRuns s || isStopped s 0x61 then s
    else if holdsLease s then sendRenew s
    else if s.twin.vValid && decide (s.clock < s.twin.v - 1600000 + 200000) then s else sendHello s)

/-! ## FOLLOW entered and left -/

/-- Every occupied latch of a class is released under TWIN (R451). -/
def releaseTwin (c : FClass) (s : State) : State := releaseWhere (fun r => r.latch == some c) .twin s

/-- LEASE_EXPIRED is released when the unit enters FOLLOW or holds the lease again (Table 15.9). -/
def leaseBack (s : State) : State := releaseTwin .leaseExpired s

/-- The unit holds the lease and becomes the active: LEASE_EXPIRED is released (Table 15.9) and its clock goes on from what it is (R477). -/
def becomeActive (s : State) : State := clockAsActive (leaseBack s)

/-- The unit enters FOLLOW (R422, R211, R470): scheduled lines and job actions are cancelled, its streams stop, and LEASE_EXPIRED and BAR_CONTENTION are
released (Table 15.9). A unit begins unfit. A job's completion under way is overtaken, as the loss of the lease has precedence; a warm reset that waits
for its flush has precedence over FOLLOW (R41). -/
def enterFollow (cause : Nat) (s : State) : State :=
  if s.sys.resetPending then s else
  let s := stopStreams (changeMode .follow cause (cancelFiringActions (dropTransition s)).1)
  let s := setTwin (fun t => { t with
    fit := false, unfitCause := 0, shadow := [], swaps := [], deltaSeen := false, sliceMatch := true, lineMatch := true, swapMatch := true, deltaOk := true
    peerLines := Vector.replicate 16 none }) s
  takeUpAll (releaseTwin .barContention (leaseBack { s with bar := { s.bar with contention := false } }))

/-- FOLLOW is left for a mode: the streams start with IDLE frames (R211), and a job that prints goes on from the channel (Table 2.3). -/
def leaveFollow (target : Mode) (cause : Nat) (s : State) : State :=
  let s := if target = .print then
      { s with job := { s.job with started := true }, pace := { s.pace with source := .channel, params := [], held := false } }
    else s
  takeUpAll (startStreams (changeMode target cause s))

/-- A paired unit without the lease in IDLE, PRINT or HOLD enters FOLLOW once a holder is in contact (R422); one that has answered READY waits for
PASS. -/
def followIfStandby (s : State) : State :=
  let waits := match s.twin.hand with | some h => h.step == .received || h.step == .passed | none => false
  match s.sys.mode with
  | .idle | .print | .hold => if pairOn s && !holdsLease s && !waits then enterFollow causeHandover s else s
  | _ => s

/-- The mode a standby leaves FOLLOW for (Table 2.3): PRINT if the active's last STATE record showed MODE_PRINT or HELD and the job is open here. The
checks of Table 1.9 are made at this entry to PRINT too; a job that fails one does not print, and the unit goes to IDLE (R32; DEDUCED, log 52). -/
def afterFollow (s : State) : Mode :=
  if s.job.isOpen && (s.twin.peer.print || s.twin.peer.held) && (capacityError s s.job.fMax).isNone then .print else .idle

/-- What every change of ownership sets (R444, R445). -/
def ownershipChanged (s : State) : State := setTwin (fun t => { t with layers := 0, revertAt := none, hand := none, release := none }) s

/-! ## Losing and renewing -/

/-- A holder enters NONE (R430, R431): the permit and BAR_OWN follow the lease. -/
def loseLease (status : Nat) (s : State) : State :=
  evLeaseLost status (setTwin (fun t => { t with lease := .none_, hand := none, revertAt := none }) s)

/-- LEASE_EXPIRY (R430). -/
def execLeaseExpiry (s : State) : Host.Outcome State Fault Refusal :=
  .next (if pairOn s && s.twin.lease == .holder && decide (s.twin.e ≤ s.clock) then raiseFault .leaseExpired 0x61 0xFFFF (loseLease 0x62 s) else s)

/-- HELLO_RECEIVED (R429): the path is up; the sender does not hold the lease. -/
def execHelloReceived (m : LeaseIn) (s : State) : Host.Outcome State Fault Refusal :=
  .next (receiveLease m 1 (fun _ s => setTwin (fun t => { t with heardRenew := false }) s) s)

/-- The lease lost to another EPOCH (R431, R450): work in flight is discarded (R410). CAUSE of its `ev.discard` is no class and no opcode (a free
value, log 3). -/
def giveWay (s : State) : State :=
  startDiscard false (Config.freeNat s.free % 65536) (loseLease 0 { s with free := s.free + 1 })

/-- A RENEW acted on (R429, R431): a holder may have to give way; a unit in NONE adopts the EPOCH, takes its view anew and grants. -/
def renewHeard (wire : Bool) (m : List Byte) (s : State) : State :=
  let e := leaseEpoch m
  let s := if holdsLease s && (epochNewer e s.twin.epoch || (e == s.twin.epoch && s.sys.straps.unitId)) then giveWay s else s
  if holdsLease s then s
  else
    let s := setTwin (fun t => { t with epoch := e, v := s.clock + 1600000, vValid := true, heardRenew := true, release := none }) s
    followIfStandby (if leaseRuns s then sendPath wire (leaseMsg 3 0 e.toNat (leaseSeq m) s) s else s)

/-- RENEW_RECEIVED (R429). -/
def execRenewReceived (m : LeaseIn) (s : State) : Host.Outcome State Fault Refusal :=
  .next (receiveLease m 2 (renewHeard (byWires m)) s)

/-- A GRANT acted on (R428, R429): E is 2 ms after the RENEW it answers was sent; a SOLO unit becomes HOLDER. -/
def granted (m : List Byte) (s : State) : State :=
  let s := setTwin (fun t => { t with heardRenew := false }) s
  if !holdsLease s || leaseEpoch m != s.twin.epoch then s
  else match s.twin.sentAt.find? fun e => e.1 == leaseSeq m with
    | none => s
    | some (_, t) => setTwin (fun w => { w with lease := .holder, e := max w.e (t + 1600000) }) s

/-- GRANT_RECEIVED (R429). -/
def execGrantReceived (m : LeaseIn) (s : State) : Host.Outcome State Fault Refusal :=
  .next (receiveLease m 3 granted s)

/-- A PASS acted on by a receiver that has answered READY; while the twin-link path is up, only the copy on the twin link counts (R443). -/
def passHeard (wire : Bool) (m : List Byte) (s : State) : State :=
  if wire && s.twin.linkAt.isSome then s
  else actOnce m (fun s => match s.twin.hand with
    | some h => if h.step = .received ∧ !holdsLease s then
        setTwin (fun t => { t with heardRenew := false, vValid := false, hand := some { h with step := .passed, at_ := s.clock, epoch := (leaseEpoch m).toNat } }) s
      else s
    | none => s) s

/-- PASS_RECEIVED (R443). -/
def execPassReceived (m : LeaseIn) (s : State) : Host.Outcome State Fault Refusal :=
  .next (receiveLease m 4 (passHeard (byWires m)) s)

/-- RELEASE_RECEIVED (R446): noted with its path and CAUSE for a takeover. -/
def execReleaseReceived (m : LeaseIn) (s : State) : Host.Outcome State Fault Refusal :=
  .next (receiveLease m 5 (fun b => actOnce b fun s =>
    if holdsLease s then s else setTwin (fun t => { t with heardRenew := false, release := some (!byWires m, s.clock, uAt b 1 1) }) s) s)

/-- DEPART_RECEIVED (R449): a holder becomes SOLO; a standby stays in FOLLOW and becomes unfit with LINK. -/
def execDepartReceived (m : LeaseIn) (s : State) : Host.Outcome State Fault Refusal :=
  .next (receiveLease m 6 (fun m => actOnce m fun s =>
    let s := setTwin (fun t => { t with heardRenew := false }) s
    if holdsLease s then setTwin (fun t => { t with lease := .solo, peerFit := false, revertAt := none }) s else becomeUnfit 1 0 s) s)

/-! ## Paths -/

/-- A path has been silent for 750 µs (600 000 clocks). -/
def silent (at_ : Option Nat) (s : State) : Bool := match at_ with | some t => decide (t + 600000 ≤ s.clock) | none => false

/-- LEASE_PATH_DOWN (R429, R448, R477): the twin-link path or, with `wire`, the wires. Whether the unit was fit when the last path went down is kept for a
claim; two losses within 750 µs count as one (log 31). -/
def execLeasePathDown (wire : Bool) (s : State) : Host.Outcome State Fault Refusal :=
  if wire then
    .next (if !silent s.twin.wireAt s then s
      else
        let together := s.twin.linkAt.isNone && decide (s.clock < s.twin.downAt + 600000)
        let s := setTwin (fun t => { t with wireAt := none, downAt := s.clock, fitAtDown := if together then t.fitAtDown else t.fit
                                            heardRenew := t.heardRenew && t.linkAt.isSome }) s
        if pairOn s then evPath true false s else s)
  else
    .next (if !silent s.twin.linkAt s then s
      else
        let inTwin := discipline s == .twin
        let s := setTwin (fun t => { t with linkAt := none, downAt := s.clock, fitAtDown := t.fit, heardRenew := t.heardRenew && t.wireAt.isSome }) s
        let s := if inTwin then { s with time := { s.time with slewOnly := true } } else s
        if pairOn s then exchangeLost (becomeUnfit 1 0 (raiseFault .twinLinkDown 0x60 0xFFFF (evPath false false s))) else s)

/-- LEASE_VIEW_EXPIRY (R429): the view V of a unit in NONE has passed. -/
def execLeaseViewExpiry (s : State) : Host.Outcome State Fault Refusal :=
  .next (if !holdsLease s && s.twin.vValid && decide (s.twin.v ≤ s.clock) then setTwin (fun t => { t with vValid := false }) s else s)

/-- BAR_PEER_CHANGE (R252): the sampled level changes, and low times count anew. -/
def execBarPeerChange (level : Bool) (s : State) : Host.Outcome State Fault Refusal :=
  .next (if s.bar.peer == level then s else { s with bar := { s.bar with peer := level, peerSince := s.clock } })

/-- BAR_PEER has been low without a break for n clocks, counted from a moment. -/
def peerLow (n from_ : Nat) (s : State) : Bool := !s.bar.peer && decide (max s.bar.peerSince from_ + n ≤ s.clock)

/-! ## Takeover -/

/-- An axis as the mirror holds it (Table 15.5): raw position, REF_OFFSET, REFERENCED, and the move held; the record does not tell a velocity from a
target, so a held move is taken as a target (log 30). -/
def mirrorAxis (a : Nat) (holds : List HoldSrc) (ref : Bool) (s : State) : State :=
  let r := nthOr s.twin.peerAxes a {}
  setAxis a (fun x => { x with
    p := r.raw * 2 ^ 32, v := 0, a := 0, refOffset := r.refOffset, referenced := ref, move := none, pending := none, stopping := false
    standstill := true, stillAt := s.clock, holds := holds
    heldMove := if r.held then some (.target r.target r.speed.toNat) else none }) s

/-- The axes after a takeover (R447): the HOST hold on every axis with the held move of the last AXIS record; REFERENCED is kept for FB_SRC DRIVE, and
for CHANNEL when the channel has no fault. A unit that was not in FOLLOW has no mirror: its own positions, moves and REFERENCED stand for it (DEDUCED,
log 30). -/
def takeoverAxes (mirrored : Bool) (s : State) : State :=
  (List.range 8).foldl (fun s a =>
    if !axisOn s a then s
    else
      let src := pnat (axisCfg s a) 3 0 0
      let keep := src == 2 || (src == 1 && !(nthOr s.fbk (pnat (axisCfg s a) 4 0 0) {}).chFault)
      if mirrored then mirrorAxis a [.host] ((nthOr s.twin.peerAxes a {}).referenced && keep) s
      else setAxis a (fun x => { x with referenced := x.referenced && keep }) (holdAxis a .host s)) s

/-- The rows' fired lines of a swath that this unit does not prepare, from the last LINE record of each port (R447). -/
def mirrorRows (s : State) : State :=
  if s.swath.active then s
  else
    let t := { s with swath := { s.swath with first := s.twin.peer.swathFirst, ls := none } }
    { s with swath := { s.swath with line := Vector.ofFn fun i =>
        match s.twin.peerLines[i] with | some e => noteRows t i.val e.1 s.swath.line[i] | none => s.swath.line[i] } }

/-- The job after a takeover (R447): the swath has ended, PAC_LINE and the restart marks come from the mirror; after a CLAIM the first slice may begin
later and the marks are cleared. A unit that was not in FOLLOW has no mirror and no swath of the old holder: its own PAC_LINE stands (DEDUCED, log 30). -/
def takeoverJob (mirrored : Bool) (s : State) : State :=
  if !s.job.isOpen then s
  else
    let s := if mirrored then
        endSwathDiscard (mirrorRows (releasePosted { s with job := { s.job with pacLine := BitVec.ofNat 32 s.twin.peer.pacLine } }).1)
      else s
    if s.twin.uncertain then
      { s with
        codec := { s.codec with anyLine := true }
        swath := { s.swath with marksPending := false, line := s.swath.line.map fun l => { l with marks := Vector.replicate 8 none } } }
    else s

/-- The unit takes the bar (R446): kind 1 RELEASE, 2 CLAIM, 3 COMMAND; `certain` is that of a RELEASE over the twin link. -/
def takeBar (kind : Nat) (certain : Bool) (s : State) : State :=
  let cause := match s.twin.release with | some (_, _, c) => c | none => 0
  let was := s.sys.mode
  let s := ownershipChanged (setTwin (fun t => { t with
    epoch := t.epoch + 1, lease := if inContact s then .holder else .solo, e := s.clock + 1600000, vValid := false, fit := false
    uncertain := !certain, heardRenew := false }) s)
  let s := becomeActive (sendRenew s)
  let follows := was == .follow
  let target := afterFollow s
  let s := takeoverAxes follows (takeoverJob follows s)
  let s := if follows then leaveFollow target causeTakeover (if target = .print then { s with job := { s.job with started := true } } else s) else s
  let s := evTakeover kind cause s
  if s.sys.mode = .print then armNext s else s

/-- A RELEASE has come over the twin link, and BAR_PEER has been low for 1 µs (Table 15.7, RELEASE). -/
def releaseReady (s : State) : Bool :=
  leaseTakeable s && !holdsLease s && (match s.twin.release with | some (true, _, _) => peerLow 800 0 s | _ => false)

/-- The view has passed with both paths down, or RELEASE has come over the wires alone, and BAR_PEER has then been low for 1 ms (Table 15.7, CLAIM). -/
def claimReady (s : State) : Bool :=
  leaseTakeable s && !holdsLease s &&
    (match s.twin.release with
     | some (false, t, _) => peerLow 800000 t s
     | some (true, _, _) => false
     | none => !inContact s && decide (s.twin.v ≤ s.clock) && peerLow 800000 s.twin.v s)

/-- TAKEOVER_RELEASE (R446). -/
def execTakeoverRelease (s : State) : Host.Outcome State Fault Refusal :=
  .next (if releaseReady s && takeoverAuto s && s.twin.fit then takeBar 1 true s else s)

/-- LEASE_CLAIM (R446). -/
def execLeaseClaim (s : State) : Host.Outcome State Fault Refusal :=
  .next (if claimReady s && takeoverAuto s && s.twin.fitAtDown then takeBar 2 false s else s)

/-- `twin.takeover` (Table 15.7, COMMAND). -/
def twinTakeover (_ : List Byte) (s : State) : Reply × State :=
  if releaseReady s then okWith [] (takeBar 3 true s)
  else if claimReady s then okWith [] (takeBar 3 false s)
  else refuse .badState 0 s

/-- TWIN_TAKEOVER (R446). -/
def execTwinTakeover (s : State) : Host.Outcome State Fault Refusal := .next (runCommand 0x1205 twinTakeover s)

/-! ## Leaving the pair, and contention -/

/-- `twin.unpair` (R425). -/
def twinUnpair (_ : List Byte) (s : State) : Reply × State :=
  if !pairOn s || (!holdsLease s && s.bar.peer) then refuse .badState 0 s
  else
    let s := sendRepeated 6 0 s
    let s := setTwin (fun t => { t with paired := false, lease := .none_, fit := false }) (ownershipChanged s)
    okWith [] (if s.sys.mode = .follow then leaveFollow .idle 0x1202 s else s)

/-- TWIN_UNPAIR (R425). -/
def execTwinUnpair (s : State) : Host.Outcome State Fault Refusal := .next (runCommand 0x1202 twinUnpair s)

/-- CONTENTION_RESOLVE (R450): BAR_PEER has been low for 1 ms. A primary that still holds the lease, with an EPOCH no older than any it has received,
or an unpaired unit resumes; any other primary enters NONE. -/
def execContentionResolve (s : State) : Host.Outcome State Fault Refusal :=
  .next (if s.bar.contention && peerLow 800000 0 s && !(pairOn s && s.sys.straps.unitId) then
      let older := match s.twin.newest with | some e => epochNewer e s.twin.epoch | none => false
      releaseTwin .barContention { (if pairOn s && holdsLease s && older then giveWay s else s) with bar := { s.bar with contention := false } }
    else s)

end Sys2Proof.Machine
end

