-- ==== Sys2Proof/Machine/TwinLink.lean ====
section
/-! DEFINITION. What the frames of the twin link carry (Table 15.4): the requests and responses of the twin mailboxes TMB0 and TMB1 (R55, R72, R435), the
time messages (R475), and the records of MIRROR frames (R436). -/
namespace Sys2Proof.Machine

/-! ## Messages of the twin mailboxes -/

/-- A command message: a version 2 header and its payload (Table 3.6). -/
def tmbMessage (op sq : Nat) (p : List Byte) : List Byte := leBytes 2 op ++ zeros 2 ++ leBytes 4 sq ++ leBytes 4 p.length ++ zeros 4 ++ p

/-- A response message: the sequence is the command's, and the timestamp that of its effect (Table 3.6). -/
def tmbResponse (sq : Nat) (r : Reply) (s : State) : List Byte :=
  leBytes 2 r.status.code ++ leBytes 2 r.detail ++ leBytes 4 sq ++ leBytes 4 r.payload.length ++ leBytes 4 s.time.tb.toNat ++ r.payload

/-- Opcode or status, sequence and payload of a message. -/
def tmbOp (m : List Byte) : Nat := uAt m 0 2
def tmbSeqOf (m : List Byte) : Nat := uAt m 4 4
def tmbPayload (m : List Byte) : List Byte := (m.drop 16).take (uAt m 8 4)

/-- A message with a status in place of an opcode is a response. -/
def tmbAnswers (m : List Byte) : Bool := decide (tmbOp m < 0xF000)

/-- The opcodes of a unit's requests, and of the time messages (R435, R475). -/
def tmbKnown : List Nat := [0xF001, 0xF002, 0xF003, 0xF004, 0xF010, 0xF011]

/-- A request sent on TMB0: the first carries sequence 0 and each the next (R55, R72). It is kept until its response comes; no request waits for the
response to another (DESIGN CHOICE, log 56). -/
def twinRequest (op : Nat) (p : List Byte) (s : State) : State :=
  if s.twinLink.linkUp then
    let q := s.twin.tmbSeq
    sendTmb (tmbMessage op q p) { s with twin := { s.twin with tmbSeq := (q + 1) % 2 ^ 32, tmbOut := s.twin.tmbOut ++ [(q, op, p)] } }
  else s

/-- The request whose response has come is no longer waited for. -/
def requestDone (q : Nat) (s : State) : State := { s with twin := { s.twin with tmbOut := s.twin.tmbOut.filter fun e => e.1 != q } }

/-- A request with this opcode waits for its response. -/
def requestOut (op : Nat) (s : State) : Bool := s.twin.tmbOut.any fun e => e.2.1 == op

/-- A message that arrives on TMB0 or TMB1, with the stamp of its arrival. BAD_SEQ sends the request again with the sequence that the peer expects, whose
upper half is taken from the request (DESIGN CHOICE, log 56). A response that asks nothing of this unit ends its request. -/
def fileTmb (m : List Byte) (s : State) : State :=
  let wait (s : State) : State := setLink 1 (fun k => { k with rxTmb := k.rxTmb ++ [(s.time.tb.toNat, m)] }) s
  if !tmbAnswers m then wait s
  else match s.twin.tmbOut.find? fun e => e.1 == tmbSeqOf m with
    | none => s
    | some (q, op, p) =>
      if tmbOp m = Status.badSeq.code then
        let s := requestDone q s
        twinRequest op p { s with twin := { s.twin with tmbSeq := q / 65536 * 65536 + uAt m 2 2 } }
      else if op = 0xF001 ∨ op = 0xF002 then wait s
      else requestDone q s

/-- A TMB frame accepted (Table 15.4). No bytes stand for the message that waits already. -/
def acceptTmb (f : List Byte) (s : State) : State :=
  if f.isEmpty then s
  else receiveFrame 1 0x20 0 (fun h => twinHeader h && decide (16 ≤ h.len) && decide (h.len ≤ 1024)) (fun _ p s => fileTmb p s) f s

/-- The message that has waited longest, taken off when it is one of those asked for and Verup runs. -/
def takeTmb (mine : List Byte → Bool) (act : Nat → List Byte → State → State) (f : List Byte) (s : State) : State :=
  let s := acceptTmb f s
  match s.twinLink.rxTmb with
  | [] => s
  | (t, m) :: ms =>
    if mine m && s.sys.phase == .running then act t m (setLink 1 (fun k => { k with rxTmb := ms }) s) else s

/-- The sequence rule of R72 at TMB1: a request that carries the next sequence is executed, the last executed one draws its stored response, and any
other BAD_SEQ. Header flags that are reserved, and the reserved word, are not looked at: R13 speaks of mailbox commands, and no rule says what a request
of the peer with them set draws (DESIGN CHOICE, log 56). -/
def executeTmb (act : List Byte → State → Reply × State) (m : List Byte) (s : State) : State :=
  let sq := tmbSeqOf m
  let next := (s.twin.tmb1Seq + 1) % 2 ^ 32
  if sq = next then
    let x := act (tmbPayload m) s
    let bytes := tmbResponse sq x.1 x.2
    sendTmb bytes { x.2 with twin := { x.2.twin with tmb1Seq := sq, tmb1Done := true, tmb1Reply := bytes } }
  else if sq = s.twin.tmb1Seq ∧ s.twin.tmb1Done then sendTmb s.twin.tmb1Reply s
  else sendTmb (tmbResponse sq { status := .badSeq, detail := next % 65536 } s) s

/-- A request with an opcode served at TMB1. -/
def serveTmb (op : Nat) (act : List Byte → State → Reply × State) : List Byte → State → State :=
  takeTmb (fun m => tmbOp m == op) fun _ m s => executeTmb act m s

/-- A message is the response to a waiting request with an opcode. -/
def answersTo (op : Nat) (s : State) (m : List Byte) : Bool := tmbAnswers m && s.twin.tmbOut.any fun e => e.1 == tmbSeqOf m && e.2.1 == op

/-- The response to a request with an opcode taken, and the request ended. -/
def heardResponse (op : Nat) (act : List Byte → State → State) (f : List Byte) (s : State) : State :=
  let s := acceptTmb f s
  takeTmb (answersTo op s) (fun _ m s => act m (requestDone (tmbSeqOf m) s)) [] s

/-! ## MIRROR records -/

/-- The oldest record that waits, taken off and, in a unit that mirrors, acted on when it is of a kind. -/
def takeMirror (kind : Nat) (heard : Bool) (act : List Byte → State → State) (s : State) : State :=
  match s.twinLink.rxMirror with
  | [] => s
  | b :: bs =>
    if uAt b 0 1 ≠ kind then s
    else
      let s := setLink 1 (fun k => { k with rxMirror := bs }) s
      if heard then act b s else s

end Sys2Proof.Machine
end

