-- ==== Sys2Proof/Machine/Twin.lean ====
section
/-! DEFINITION. The twin: `twin.config` and the other twin commands (R423, R440, R441), the mirror and the shadow preparation of FOLLOW (R436 to
R439), and handover (R441 to R445). -/
namespace Sys2Proof.Machine

/-- The unit takes what the active mirrors (R437). -/
def mirrors (s : State) : Bool := pairOn s && !holdsLease s && s.twinLink.linkUp && s.sys.mode == .follow

/-! ## Commands -/

/-- The parameters of Table 15.1. -/
def twinSpecs : List PSpec := [⟨1, 1, 0, 1, some 0⟩, ⟨2, 1, 0, 3600, some 10⟩, ⟨3, 1, 0, 255, some 8⟩, ⟨4, 1, 0, 1, some 0⟩]

/-- `twin.config` (R423). -/
def twinConfig (p : List Byte) (s : State) : Reply × State :=
  if listTarget p 0 ≠ 0 then refuse .badArg 0 s
  else match judgeList twinSpecs noRelation s.cfg.staged.twin (listItems p 0) with
    | .error d => refuse .badArg d s
    | .ok m => okWith [] { s with cfg := { s.cfg with staged := { s.cfg.staged with twin := m } } }

/-- TWIN_CONFIG (R423). -/
def execTwinConfig (s : State) : Host.Outcome State Fault Refusal := .next (runCommand 0x1201 twinConfig s)

/-- A handover falls due, unless one already is (R441). -/
def makeDue (trigger : Nat) (s : State) : State :=
  setTwin (fun t => { t with hand := t.hand.or (some { trigger := trigger, step := .due }) }) s

/-- `twin.swap` (R441), to the active. -/
def twinSwap (_ : List Byte) (s : State) : Reply × State :=
  if pairOn s && holdsLease s then okWith [] (makeDue 1 s) else refuse .badState 0 s

/-- TWIN_SWAP (R441). -/
def execTwinSwap (s : State) : Host.Outcome State Fault Refusal := .next (runCommand 0x1203 twinSwap s)

/-! ## The conditions of a handover -/

/-- No latch is occupied at region or chip level (R438, R442). -/
def noLatch (s : State) : Bool := s.faults.recs.all fun r => r.latch.isNone || r.inst.level == .cell || r.inst.level == .block

/-- A table or bank swap is pending (R442). -/
def swapPending (s : State) : Bool :=
  s.swath.subst.pending.isSome || s.swath.grey.toList.any (fun g => g.pending.isSome) || s.wave.toList.any (fun w => w.pending.isSome)

/-- The first condition of R442 that fails, from 1; 0 when all hold. `fitness` says whether the standby shall be fit (R440). -/
def handoverFails (trigger : Nat) (fitness : Bool) (s : State) : Nat :=
  let printing := s.sys.mode == .print
  if printing && (s.swath.active || (trigger == 2 && !s.swath.layerEnd)) then 1
  else if (List.range 8).any fun a => jobAxis s a && s.job.isOpen && !(nthOr s.axes a {}).standstill then 2
  else if s.pace.armed && !(nthOr s.fbk (paceChannel s) {}).report.standstill then 3
  else if (fitness && !s.twin.peerFit) || !noLatch s then 4
  else if swapPending s then 5
  else 0

/-- The trigger of the handover that is due: one asked for, or the periodic swap (R444). -/
def dueTrigger (s : State) : Option Nat :=
  match s.twin.hand with
  | some h => if h.step = .due then some h.trigger else none
  | none => if swapEvery s ≠ 0 ∧ swapEvery s ≤ s.twin.layers then some 2 else none

/-- `ev.twin_swap_deferred` (R442). -/
def evDeferred (cond trigger : Nat) (s : State) : State :=
  emit { code := 0x1204, source := 0x61, status := cond, payload := leBytes 1 trigger ++ zeros 15 } s

/-- The payload of HANDOVER as this part lays it out (Table 15.6 step 1, log 30). -/
def snapshotBytes (trigger : Nat) (s : State) : List Byte :=
  leBytes 2 s.twin.epoch.toNat ++ leBytes 1 trigger ++ leBytes 1 (bitAt s.pace.armed 0 + bitAt s.pace.dirRev 1) ++ leBytes 4 s.pace.queue.length ++
    stateRecord s ++ (List.range 16).flatMap (fun p => leBytes 4 (nthOr s.swath.line p {}).fired) ++
    ((List.range 8).filter (axisOn s)).flatMap (fun a => axisRecord a (nthOr s.axes a {})) ++
    s.pace.queue.flatMap fun e => leBytes 8 (ofSigned 64 e.1) ++ leBytes 8 (bitAt e.2 0)

/-- A snapshot: what HANDOVER carries (Table 15.6 step 1). -/
structure Snap where
  epoch : BitVec 16
  trigger : Nat
  record : List Byte
  axes : List (List Byte)
  fired : List Nat
  armed : Option Bool
  queue : List (Int × Bool)
deriving DecidableEq, Repr

/-- Pieces of a size, from bytes. -/
def pieces (size n : Nat) (bs : List Byte) : List (List Byte) := (List.range n).map fun i => (bs.drop (size * i)).take size

/-- The snapshot in the payload of HANDOVER, laid out as `snapshotBytes` does. -/
def snapOf (p : List Byte) : Snap :=
  let n := uAt p 4 4
  { epoch := BitVec.ofNat 16 (uAt p 0 2), trigger := uAt p 2 1, record := (p.drop 8).take 64
    axes := pieces 32 ((p.length - 136 - 16 * n) / 32) (p.drop 136), fired := (pieces 4 16 (p.drop 72)).map leNat
    armed := if bitOf (uAt p 3 1) 0 then some (bitOf (uAt p 3 1) 1) else none
    queue := (pieces 16 n (p.drop (p.length - 16 * n))).map fun e => (iAt e 0 8, bitOf (uAt e 8 1) 0) }

/-- The length of a HANDOVER payload is that of a snapshot: at most 16 entries of the queue and 8 AXIS records. -/
def snapGood (p : List Byte) : Bool :=
  let n := uAt p 4 4
  decide (n ≤ 16) && decide (136 + 16 * n ≤ p.length) && (p.length - 136 - 16 * n) % 32 == 0 && decide (p.length ≤ 392 + 16 * n)

/-- Step 1 of a handover (Table 15.6): permission is withheld while the step stands, and HANDOVER is sent. -/
def offerBar (trigger : Nat) (s : State) : State :=
  let s := twinRequest 0xF002 (snapshotBytes trigger s) s
  bgStart .handover (setTwin (fun t => { t with hand := some { trigger := trigger, step := .offered, at_ := s.clock, epoch := t.epoch.toNat } }) s)

/-- HANDOVER_START (R442): at a boundary, with no transition under way (R41), the due handover begins, or the first failed condition is reported and it stays due. -/
def execHandoverStart (s : State) : Host.Outcome State Fault Refusal :=
  .next (match s.sys.mode, dueTrigger s with
    | .idle, some t | .print, some t | .hold, some t =>
      if !(pairOn s && holdsLease s) || moving s || (s.sys.mode == .print && s.swath.active) then s
      else
        let n := handoverFails t true s
        if n = 0 then offerBar t s else evDeferred n t s
    | _, _ => s)

/-- `twin.resolve` (R440), to the active; in SAFESTOP, where the lease has been released, to either unit, and SWAP is BUSY there (DESIGN CHOICE,
log 30). -/
def twinResolve (p : List Byte) (s : State) : Reply × State :=
  let k := uAt p 0 1
  if 1 < k then refuse .badArg 0 s
  else if !(pairOn s && (holdsLease s || s.sys.mode == .safestop)) || latchedAt s { level := .region, source := 4 } != some .xcheckMismatch then refuse .badState 0 s
  else
    let t := twinRequest 0xF004 (leBytes 4 k) (releaseTwin .xcheckMismatch s)
    if k = 0 then okWith [] t
    else if handoverFails 4 false t = 0 ∧ !(t.sys.mode == .safestop) then okWith [] (offerBar 4 t)
    else refuse .busy 0 s

/-- TWIN_RESOLVE (R440). -/
def execTwinResolve (s : State) : Host.Outcome State Fault Refusal := .next (runCommand 0x1204 twinResolve s)

/-- RESOLVE at the standby (R440): its latch is released. -/
def resolveHeard (p : List Byte) (s : State) : Reply × State :=
  if p.length ≠ 4 then refuse .badArg 0 s
  else if pairOn s then okWith [] (releaseTwin .xcheckMismatch s)
  else refuse .badState 0 s

/-- RESOLVE_RECEIVED (R440): the bytes of the TMB frame. -/
def execResolveReceived (f : List Byte) (s : State) : Host.Outcome State Fault Refusal := .next (serveTmb 0xF004 resolveHeard f s)

/-- REVERT_HOLD_EXPIRY (R445). -/
def execRevertHoldExpiry (s : State) : Host.Outcome State Fault Refusal :=
  .next (match s.twin.revertAt with
    | some t =>
      if pairOn s && holdsLease s && s.sys.straps.unitId && s.twin.peerFit && revertHold s != 0 && decide (t + 800000000 * revertHold s ≤ s.clock) then
        makeDue 3 s
      else s
    | none => s)

/-! ## Fitness -/

/-- The active's CONFIG_CV in its latest PAIR_INFO (log 30). -/
def peerCv (s : State) : Option Nat := s.twin.peerInfo.map fun b => uAt b 8 4

/-- The cause of the first condition of R438 that fails; 0 when all hold. -/
def fitCause (s : State) : Nat :=
  let r := s.twin.peer
  if !(s.sys.mode == .follow) || s.twin.linkAt.isNone then 1
  else if peerCv s != some s.cfg.cv.toNat then 2
  else if r.jobOpen && !(s.job.isOpen && s.job.id == r.job) then 3
  else if !s.twin.sliceMatch then 4
  else if !s.twin.lineMatch then 5
  else if !s.twin.swapMatch then 7
  else if !s.twin.deltaOk then 8
  else if !noLatch s then 9
  else 0

/-- In a unit that is not fit, the conditions on records count anew (R438, log 30). -/
def recount (s : State) : State :=
  if s.twin.fit then s else setTwin (fun t => { t with sliceMatch := true, lineMatch := true, swapMatch := true, deltaOk := true }) s

/-- Fitness returns where every condition holds (R438). -/
def regainFit (s : State) : State :=
  if !s.twin.fit && fitCause s == 0 then evTwinFit (setTwin (fun t => { t with fit := true, unfitCause := 0 }) s) else s

/-- The conditions that end fitness as they change: the job, the configuration, a latch (R438). -/
def checkFit (s : State) : State :=
  if s.twin.fit then
    let c := fitCause s
    if c = 0 then s else becomeUnfit c (if c = 9 then ((s.faults.recs.find? fun r => r.latch.isSome && r.inst.level != .cell && r.inst.level != .block).bind
      (·.latch)).elim 0 FClass.code else 0) s
  else s

/-! ## The standby's swath -/

/-- The head line waiting on a port is noted for the comparison with its LINE record (R437, R439). -/
def shadowNote (s : State) (p : Nat) : State :=
  match (nthOr s.swath.line p {}).ready with
  | some h =>
    if s.twin.shadow.any fun e => e.1 == p && e.2.1 == h.lineId then s
    else setTwin (fun t => { t with shadow := (p, h.lineId, h.hlcv.toNat) :: t.shadow }) s
  | none => s

/-- The swaps of SWAP records for a port that its next line, f, has reached are made before that line is prepared (R437). -/
def dueSwaps (p f : Nat) (s : State) : State :=
  let mine (e : Bool × Nat × Nat × Bool) : Bool := e.2.1 == p && decide (e.2.2.1 ≤ f)
  let s' := setTwin (fun t => { t with swaps := t.swaps.filter fun e => !mine e }) s
  (s.twin.swaps.filter mine).foldl (fun s e => if e.1 then swapWave p e.2.2.1 e.2.2.2 s else swapGrey p e.2.2.1 e.2.2.2 s) s'

/-- Every swap of a SWAP record that still waits is made: the swath whose line it named is over. -/
def allSwaps (s : State) : State := (List.range 16).foldl (fun s p => dueSwaps p (2 ^ 32) s) s

/-- The standby's swath begins with the active's: line 0 is prepared on every port and delivered to none (R437). -/
def shadowStart (s : State) : State :=
  let s := allSwaps s
  match s.swath.plans.head? with
  | none => s
  | some q =>
    if q.first ≠ s.twin.peer.swathFirst then s
    else
      let t := { s with swath := { s.swath with active := true, kind := .job, first := q.first, ls := q.ls
                                                line := s.swath.line.map fun l => { l with readLine := q.first } } }
      match underrunHead t 0 with
      | some _ => becomeUnfit 5 0 (setTwin (fun t => { t with lineMatch := false }) s)
      | none => (portsOn s).foldl shadowNote (beginSwath .job q (setTwin (fun t => { t with shadow := [] }) s))

/-- The standby's swath ends when every port's last line has been mirrored. -/
def shadowEnd (s : State) : State :=
  if s.swath.active && swathDone s then
    { s with swath := { s.swath with
      active := false, no := s.swath.no + 1, plans := s.swath.plans.tail, held := [], marksInForce := false
      line := if s.swath.marksInForce then s.swath.line.map fun l => { l with marks := Vector.replicate 8 none } else s.swath.line } }
  else s

/-! ## Cross-check -/

/-- `ev.xcheck_mismatch` and the fault, on either unit (R439): the active's HLCV, then the standby's. -/
def xcheckFault (standby : Bool) (p lineId mine theirs : Nat) (s : State) : State :=
  let s := countTwin (fun t => { t with xcheck := wrapAdd 32 t.xcheck 1 }) s
  let s := emit { code := 0x1203, source := 0x61, flags := bitAt standby 0, keep := true
                  payload := leBytes 1 p ++ zeros 3 ++ leBytes 4 lineId ++ leBytes 4 mine ++ leBytes 4 theirs } s
  raiseFault .xcheckMismatch 0x61 0xFFFF s

/-- A difference found by the standby: it raises the fault, becomes unfit and sends XCHECK. -/
def xcheckFound (p lineId active own : Nat) (s : State) : State :=
  let s := becomeUnfit 6 lineId (xcheckFault true p lineId active own (setTwin (fun t => { t with lineMatch := false }) s))
  twinRequest 0xF003 (leBytes 4 p ++ leBytes 4 lineId ++ leBytes 4 active ++ leBytes 4 own) s

/-- XCHECK at the active (R439): the port, LINE_ID, and the HLCVs of the active and of the standby. -/
def xcheckHeard (p : List Byte) (s : State) : Reply × State :=
  if p.length ≠ 16 ∨ 15 < uAt p 0 4 then refuse .badArg 0 s
  else if pairOn s && holdsLease s && s.sys.profile == .markhor && !s.sys.legacy then
    okWith [] (xcheckFault false (uAt p 0 4) (uAt p 4 4) (uAt p 8 4) (uAt p 12 4) s)
  else refuse .badState 0 s

/-- XCHECK_RECEIVED (R439): the bytes of the TMB frame. -/
def execXcheckReceived (f : List Byte) (s : State) : Host.Outcome State Fault Refusal := .next (serveTmb 0xF003 xcheckHeard f s)

/-! ## Records -/

/-- The fields of a LINE record acted on: the fired line, the comparison, and, where its fault has not discarded the swath, the shadow token (R437,
R439). -/
def lineRecordHeard (err : PrepErr) (b : List Byte) (s : State) : State :=
  let p := uAt b 1 1 % 16; let n := uAt b 2 2; let f := uAt b 4 4; let id := uAt b 8 4; let hlcv := uAt b 12 4
  let s := setTwin (fun t => { t with peerLines := updAt t.peerLines p fun _ => some (f, id) }) s
  if !s.swath.active then becomeUnfit 5 id (setTwin (fun t => { t with lineMatch := false }) s)
  else
    let mine := s.twin.shadow.find? fun e => e.1 == p && e.2.1 == id
    let s := setTwin (fun t => { t with shadow := t.shadow.filter fun e => !(e.1 == p && e.2.1 == id) }) s
    let s := commitLines (setLine p (fun l => { noteRows s p f l with fired := f + 1, ready := none }) s)
    let s := match mine with
      | none => becomeUnfit 5 id (setTwin (fun t => { t with lineMatch := false }) s)
      | some (_, _, h) => if s.sys.profile = .markhor ∧ !s.sys.legacy ∧ h ≠ hlcv then xcheckFound p id hlcv h s else s
    if s.swath.active then shadowEnd (shadowNote (prepareNext p (f + 1 + n) err (dueSwaps p (f + 1 + n) (countSkips p n s))) p) else s

/-- A MIRROR frame accepted, and its oldest record acted on when it is of a kind; no bytes stand for the record that waits already (R436). -/
def mirrorHeard (kind : Nat) (act : List Byte → State → State) (f : List Byte) (s : State) : State :=
  let s := acceptMirror f s
  takeMirror kind (mirrors s) act s

/-- LINE_RECORD (R437): the bytes of the MIRROR frame, with what the preparation it starts meets. -/
def execLineRecord (f : List Byte) (err : PrepErr) (s : State) : Host.Outcome State Fault Refusal := .next (mirrorHeard 1 (lineRecordHeard err) f s)

/-- A swap that a SWAP record asks for is made when a READY shadow has an equal CV; else the standby is unfit with TABLE (R437, R438). -/
def swapIf (ok : Bool) (f : State → State) (s : State) : State :=
  if ok then f s else becomeUnfit 7 0 (setTwin (fun t => { t with swapMatch := false }) s)

/-- A swap of a greyscale map or of a bank takes effect from the firing line that its record names: at once where this unit has prepared every line
before that one or prepares no swath, else when it comes to that line (R437). Until then it is pending, so that no load replaces the shadow. -/
def swapFrom (wave : Bool) (p first : Nat) (linked : Bool) (s : State) : State :=
  if s.swath.active && decide ((nthOr s.swath.line p {}).prep < first) then
    let s := setTwin (fun t => { t with swaps := t.swaps ++ [(wave, p, first, linked)] }) s
    if wave then setWave p (fun w => { w with pending := some false }) s
    else setGrey p (fun g => { g with pending := some { required := false, link := linked } }) s
  else if wave then swapWave p first linked s
  else swapGrey p first linked s

/-- The swaps of a SWAP record; the one of the substitution map holds from the job line it names (R189). -/
def swapRecordHeard (b : List Byte) (s : State) : State :=
  let fl := uAt b 1 1; let p := fl % 16; let first := uAt b 4 4; let cv := uAt b 8 4; let linked := bitOf fl 7
  let g := greyPair s p; let w := nthOr s.wave p {}; let m := s.swath.subst
  let s := if bitOf fl 5 then swapIf (g.shadow == .ready && g.built.map (·.cv) == some cv) (swapFrom false p first linked) s else s
  let s := if bitOf fl 6 then swapIf (w.shadow == .ready && (shadowBank w).map (·.cv) == some cv) (swapFrom true p first linked) s else s
  if bitOf fl 4 then swapIf (m.shadow == .ready && m.built.map (·.cv) == some cv) (swapSubst first) s else s

/-- SWAP_RECORD (R437). -/
def execSwapRecord (f : List Byte) (s : State) : Host.Outcome State Fault Refusal := .next (mirrorHeard 2 swapRecordHeard f s)

/-- SLICE_NO, FIRST_LINE and HDR_CV of a SLICE record shall be those of a slice held (R438). -/
def sliceRecordHeard (b : List Byte) (s : State) : State :=
  if s.codec.posted.any fun q => q.no == uAt b 4 4 && q.first == uAt b 8 4 && q.hdrCv == uAt b 12 4 then s
  else becomeUnfit 4 (uAt b 4 4) (setTwin (fun t => { t with sliceMatch := false }) s)

/-- SLICE_RECORD (R438). -/
def execSliceRecord (f : List Byte) (s : State) : Host.Outcome State Fault Refusal := .next (mirrorHeard 3 sliceRecordHeard f s)

/-- The fields of a STATE record (Table 15.5). -/
def peerOf (b : List Byte) : PeerState :=
  let f := uAt b 1 1
  { jobOpen := bitOf f 0, swathActive := bitOf f 1, held := bitOf f 2, print := bitOf f 3, layers := uAt b 2 2, job := uAt b 4 4, pacLine := uAt b 8 4
    swathFirst := uAt b 12 4, x := iAt b 16 8, u := iAt b 24 8, origin := iAt b 32 8, time := uAt b 40 8 }

/-- Δ formed from a STATE record with this unit's own sample at or before its TIME; successive values shall agree within JITTER + 1 (R437, R438). Positions wrap, so their
differences are signed on 48 bits (R272). -/
def takeDelta (r : PeerState) (s : State) : State :=
  match s.twin.samples.find? fun e => decide (e.1 ≤ r.time) with
  | none => s
  | some (_, x) =>
    let d := diff48 x r.x
    let bad := s.twin.deltaSeen && decide (pnat s.job.params 6 0 2 + 1 < (diff48 d s.twin.delta).natAbs)
    let s := setTwin (fun t => { t with delta := d, deltaSeen := true, deltaOk := t.deltaOk && !bad }) s
    if bad then becomeUnfit 8 0 s else s

/-- A STATE record acted on. A unit that was not fit before it regains fitness at a swath start or outside PRINT, when every condition holds (R438). -/
def stateRecordHeard (b : List Byte) (s : State) : State :=
  let r := peerOf b
  let starts := r.swathActive && !s.twin.peer.swathActive
  let returns := (starts || !r.print) && !s.twin.fit
  let s := if returns then recount s else s
  let s := takeDelta r (setTwin (fun t => { t with
    peer := r, layers := r.layers, peerLines := if starts then Vector.replicate 16 none else t.peerLines }) s)
  let s := if starts && !s.swath.active then shadowStart s else s
  let s := if !r.swathActive && s.swath.active && !r.held then
      becomeUnfit 5 0 (setTwin (fun t => { t with lineMatch := false })
        { s with swath := { s.swath with active := false, held := [], line := s.swath.line.map fun l => { l with ready := none } } })
    else s
  let s := if returns then regainFit s else checkFit s
  takeUpAll s

/-- STATE_RECORD (R437). -/
def execStateRecord (f : List Byte) (s : State) : Host.Outcome State Fault Refusal := .next (mirrorHeard 4 stateRecordHeard f s)

/-- The fields of an AXIS record (Table 15.5). -/
def peerAxisOf (b : List Byte) : PeerAxis :=
  let f := uAt b 1 1
  { raw := iAt b 2 6, refOffset := iAt b 8 6, target := iAt b 16 6, speed := iAt b 24 4, referenced := bitOf f 3, held := bitOf f 4 }

/-- The mirror's copy of an axis. -/
def axisRecordHeard (b : List Byte) (s : State) : State := setTwin (fun t => { t with peerAxes := updAt t.peerAxes (uAt b 1 1 % 8) fun _ => peerAxisOf b }) s

/-- AXIS_RECORD (R436). -/
def execAxisRecord (f : List Byte) (s : State) : Host.Outcome State Fault Refusal := .next (mirrorHeard 5 axisRecordHeard f s)

/-- MIRROR_STATE_TIMER (R436, R437): a multiple of 100 µs of the timebase; the active sends STATE, the standby samples its own position. -/
def execMirrorStateTimer (s : State) : Host.Outcome State Fault Refusal :=
  .next (if 2 ≤ s.time.tb.toNat % 100000 then s
    else if s.sys.mode = .follow then checkFit (setTwin (fun t => { t with samples := ((s.time.tb.toNat, pacingX s) :: t.samples).take 16 }) s)
    else mirror (stateRecord s) s)

/-! ## Handover -/

/-- Pacing as the snapshot gives it, in this unit's coordinates (R437, Table 15.6). -/
def adoptPace (q : Snap) (r : PeerState) (s : State) : State :=
  let d := s.twin.delta
  { s with pace := { s.pace with
    queue := q.queue.map fun e => (e.1 + d, e.2), owed := false, begun := true, armed := q.armed.isSome, dirRev := q.armed.getD s.pace.dirRev
    origin := r.origin + paceDen s * d, hi := r.u, u := r.u, reversed := false, ended := false, armedNo := s.swath.no, gateDone := false
    prevOrigin := r.origin + paceDen s * d, prevLines := (swathLines s).getD 0
    port := Vector.ofFn fun i => { next := q.fired.getD i.val 0, lastAt := s.pace.port[i].lastAt } } }

/-- Step 2 of a handover (Table 15.6): the snapshot is taken, the mode is left for that of the giver, and the streams start. -/
def acceptBar (q : Snap) (s : State) : State :=
  let r := peerOf q.record
  let s := q.axes.foldl (fun s b => axisRecordHeard b s) (setTwin (fun t => { t with peer := r, layers := r.layers }) s)
  let s := setTwin (fun t => { t with hand := some { trigger := q.trigger, step := .received, at_ := s.clock, epoch := q.epoch.toNat
                                                     print := r.print, hold := r.held } }) s
  leaveFollow (afterFollow s) causeHandover (adoptPace q r s)

/-- HANDOVER at the standby (R443): JOB, PAC_LINE, SWATH_FIRST and EPOCH shall equal the mirror's; READY is OK, and the cause of BAD_STATE is the first
that differs, from 1, or 0 in a unit that does not mirror, or whose warm reset waits for its flush (R41, log 30). Without READY the giver abandons the handover, and the standby becomes unfit with
LAG. -/
def handoverHeard (p : List Byte) (s : State) : Reply × State :=
  let q := snapOf p
  let r := peerOf q.record; let m := s.twin.peer
  let lag := becomeUnfit 5 0 s
  if !snapGood p then refuse .badArg 0 lag
  else if !mirrors s || s.sys.resetPending then refuse .badState 0 lag
  else if r.job != m.job then refuse .badState 1 lag
  else if r.pacLine != m.pacLine then refuse .badState 2 lag
  else if r.swathFirst != m.swathFirst then refuse .badState 3 lag
  else if q.epoch != s.twin.epoch then refuse .badState 4 lag
  else okWith [] (acceptBar q s)

/-- HANDOVER_RECEIVED (R443): the bytes of the TMB frame. -/
def execHandoverReceived (f : List Byte) (s : State) : Host.Outcome State Fault Refusal := .next (serveTmb 0xF002 handoverHeard f s)

/-- Step 3 of a handover (Table 15.6): the giver enters FOLLOW and NONE and sends PASS with EPOCH + 1. -/
def passBar (trigger : Nat) (s : State) : State :=
  let s := ownershipChanged (setTwin (fun t => { t with lease := .none_, epoch := t.epoch + 1, peerFit := false, vValid := false }) s)
  evHandover trigger false (sendRepeated 4 0 (enterFollow causeHandover (bgEnd .handover s)))

/-- The giver abandons the handover and keeps the lease (R443). -/
def abandonBar (s : State) : State := bgEnd .handover (setTwin (fun t => { t with hand := none }) s)

/-- FOLLOW may be entered by a handover from this mode, with no transition under way (Table 2.3, R41). -/
def mayPass (s : State) : Bool := !moving s && (s.sys.mode == .idle || s.sys.mode == .print || s.sys.mode == .hold)

/-- The answer to HANDOVER at the giver: READY, or a refusal. A giver that has left the modes of a handover meanwhile keeps the lease. -/
def readyHeard (m : List Byte) (s : State) : State :=
  match s.twin.hand with
  | some h =>
    if h.step = .offered ∧ pairOn s ∧ holdsLease s then (if tmbOp m = Status.ok.code && mayPass s then passBar h.trigger s else abandonBar s) else s
  | none => s

/-- HANDOVER_READY_RECEIVED (R443): the bytes of the TMB frame of the response. -/
def execHandoverReadyReceived (f : List Byte) (s : State) : Host.Outcome State Fault Refusal := .next (heardResponse 0xF002 readyHeard f s)

/-- HANDOVER_TIMEOUT (R443): 1 ms after HANDOVER. The giver keeps the lease; a receiver that has seen no PASS becomes unfit with LAG and follows
again. -/
def execHandoverTimeout (s : State) : Host.Outcome State Fault Refusal :=
  .next (match s.twin.hand with
    | some h =>
      if s.clock < h.at_ + 800000 then s
      else match h.step with
        | .offered => abandonBar s
        | .received => (if s.twin.vValid then followIfStandby else id) (becomeUnfit 5 0 (setTwin (fun t => { t with hand := none }) s))
        | _ => s
    | none => s)

/-- The axes as the snapshot gives them (Table 15.6, step 5): the giver's hold is the JOB hold of a held job, else HOST. -/
def handoverAxes (hold : Bool) (s : State) : State :=
  (List.range 8).foldl (fun s a =>
    let r := nthOr s.twin.peerAxes a {}
    if !axisOn s a then s
    else mirrorAxis a (if !r.held then [] else if hold && jobAxis s a then [.job] else [.host]) r.referenced s) s

/-- Steps 4 to 6 of a handover (Table 15.6): HOLDER with E set by the arrival of PASS, RENEW, the axes of the snapshot without the start-up cycles, and
`job.hold` when the giver was in HOLD. -/
def receiveBar (h : Handover) (s : State) : State :=
  let s := ownershipChanged (setTwin (fun t => { t with
    lease := .holder, epoch := BitVec.ofNat 16 h.epoch, e := h.at_ + 1600000, vValid := false, fit := false, uncertain := false }) s)
  let s := becomeActive (sendRenew s)
  let s := handoverAxes h.hold { s with drive := s.drive.map fun d => { d with running := false, skipStartup := true } }
  let s := evHandover h.trigger true s
  let s := if h.hold ∧ s.sys.mode = .print then (jobHoldWith 0xFF s).2 else s
  if s.sys.mode = .print ∨ s.sys.mode = .hold then armNext s else s

/-- HANDOVER_TAKE_BAR (R443): PASS has come and BAR_PEER has been low for 1 µs, in a mode in which the lease may be held (R38). -/
def execHandoverTakeBar (s : State) : Host.Outcome State Fault Refusal :=
  .next (match s.twin.hand with
    | some h => if h.step = .passed ∧ pairOn s ∧ leaseTakeable s ∧ !holdsLease s ∧ peerLow 800 0 s then receiveBar h s else s
    | none => s)

end Sys2Proof.Machine
end

