-- ==== Sys2Proof/Machine/Commit.lean ====
section
/-! DEFINITION. Configuration and the mode commands: `cfg.bar`, `cfg.head` and `cfg.commit` (R50, R51, R166, R167, R223, R424, R511 to R513), CONFIG_CV
(R512), the pair formed at a commit (R424), and `sys.` and `svc.` commands (Table 2.3, R47, R59). -/
namespace Sys2Proof.Machine

/-! ## `cfg.bar` -/

/-- A block of Table 14.1 that the part has (R4). -/
def hasBlock (src : Nat) : Bool :=
  isBlock src && !(src == 0x25 && !Config.hasAudit) && !(decide (0x30 + Config.ports ≤ src) && decide (src ≤ 0x3F))

/-- The parameters of `cfg.bar` (Table 18.5, Table 6.6); a WEIGHT is indexed by SOURCE. -/
def barSpecs : List PSpec :=
  [⟨1, 1, 0, 1, some 0⟩, ⟨2, 1, 0, 1, none⟩, ⟨3, 0x75, 1, 15, some 4⟩, ⟨4, 1, 2, 32, some 16⟩, ⟨5, 1, 1, 32, none⟩, ⟨6, 1, 0, 1, some 0⟩,
    ⟨7, 1, 0, 1, some 1⟩]

/-- Items that a test finds wrong are given the ID 0, which no set has. -/
def spoil (bad : PItem → Bool) (its : List PItem) : List PItem := its.map fun it => if bad it then { it with id := 0 } else it

/-- The rules that relate the parameters of `cfg.bar`: Markhor with LEGACY 1, GUARD_N above GUARD_W. -/
def barRelation (lgcySel : Bool) (m : ParamSet) : Option (List Nat) :=
  if pon m 1 0 false && pon m 2 0 lgcySel then some [1, 2]
  else if pnat m 4 0 16 < pnat m 5 0 (pnat m 4 0 16) then some [4, 5]
  else none

/-- `cfg.bar` (R511, Table 18.5). -/
def cfgBar (p : List Byte) (s : State) : Reply × State :=
  let its := listItems p 0
  if its.any fun it => it.id == 3 && isBlock it.index && !hasBlock it.index then refuse .notPresent 0 s
  else if listTarget p 0 ≠ 0 then refuse .badArg 0 s
  else match judgeList barSpecs (barRelation s.sys.straps.lgcySel) s.cfg.staged.bar (spoil (fun it => it.id == 3 && !isBlock it.index) its) with
    | .error d => refuse .badArg d s
    | .ok m => okWith [] { s with cfg := { s.cfg with staged := { s.cfg.staged with bar := m } } }

/-- CFG_BAR (R511). -/
def execCfgBar (s : State) : Host.Outcome State Fault Refusal := .next (runCommand 0x0201 cfgBar s)

/-! ## `cfg.head` -/

/-- The parameters of `cfg.head` (Tables 6.3 and 8.2, R296). -/
def headSpecs : List PSpec :=
  [⟨1, 1, 0, 1, some 0⟩, ⟨2, 1, 0, 1, some 0⟩, ⟨3, 8, 0, 512, some 0⟩, ⟨4, 1, 0, 255, some 255⟩, ⟨5, 1, 0, 256, some 0⟩, ⟨6, 1, 0, 1, some 0⟩,
    ⟨7, 1, 0, 256, none⟩, ⟨8, 1, 0, 2 ^ 48 - 1, some 0⟩, ⟨9, 1, 0, 16777215, some 0⟩, ⟨10, 1, 1, 8, some 1⟩, ⟨11, 1, 1, 30, some 10⟩,
    ⟨12, 1, 0, 1, some 1⟩, ⟨13, 1, 0, 1000000, some 0⟩]

/-- An item outside the ranges that a record or a list of values gives: a DELAY of a row the head has not, UPPER, PATTERN_ADDR, SHIFT_DIV below
MIN_DIV. -/
def headItemBad (g : Option HeadRecord) (now : Option HeadRecord) (it : PItem) : Bool :=
  let v := it.value.toNat
  (it.id == 3 && decide ((g.map (·.rows)).getD 8 ≤ it.index)) || (it.id == 4 && decide (15 < v) && v != 255) || (it.id == 8 && v % 64 != 0) ||
    (it.id == 10 && (!divOk v || decide (v < (((now.or g).map (·.minDiv)).getD 1))))

/-- The rules that relate the parameters of `cfg.head`: OVERLAP without UPPER, CUT above OVERLAP. -/
def headRelation (m : ParamSet) : Option (List Nat) :=
  if upperIn m = 0xFF ∧ overlapIn m ≠ 0 then some [4, 5] else if overlapIn m < cutIn m then some [5, 7] else none

/-- Delay-line bytes that the set of a port takes (R173). -/
def delayBytes (bits : Nat) (g : HeadRecord) (m : ParamSet) : Nat :=
  ((List.range g.rows).map fun r => pnat m 3 r 0 * (8 * ceilDiv (g.nozzles / g.rows * bits) 64)).sum

/-- Delay-line bytes of every configured port of an image. -/
def delayTotal (s : State) (heads : Vector ParamSet 16) : Nat :=
  let bits := bitsPerDrop (asCommitted s)
  ((List.range Config.ports).map fun p =>
    let m := nthOr heads p []
    match geometryOf s p with
    | some g => if pon m 1 0 false then delayBytes bits g m else 0
    | none => 0).sum

/-- `cfg.head` (R164, R166, R173, R223): a record that breaks R164 is named by the TARGET's offset (log 51). -/
def cfgHead (p : List Byte) (s : State) : Reply × State :=
  let port := listTarget p 0; let its := listItems p 0
  let g := geometryOf s port
  if 16 ≤ port || (nthOr s.heads port {}).geomBad then refuse .badArg 0 s
  else match judgeList headSpecs headRelation (nthOr s.cfg.staged.heads port []) (spoil (headItemBad g (nthOr s.heads port {}).record) its) with
    | .error d => refuse .badArg d s
    | .ok m =>
      let heads := updAt s.cfg.staged.heads port fun _ => m
      if g.isNone && !(its.all fun it => it.id == 1 && it.value == 0) then refuse .badState 0 s
      else if max 16777216 (delayTotal s s.cfg.staged.heads) < delayTotal s heads then refuse .noSpace 0 s
      else okWith [] { s with cfg := { s.cfg with staged := { s.cfg.staged with heads := heads } } }

/-- CFG_HEAD (R166). -/
def execCfgHead (s : State) : Host.Outcome State Fault Refusal := .next (runCommand 0x0202 cfgHead s)

/-! ## CONFIG_CV (R512) -/

/-- The records of one parameter set: every parameter by ID and INDEX, with the value set or its default. -/
def imageRecords (op target : Nat) (specs : List PSpec) (has : Nat → Nat → Bool) (dflt : Nat → Int) (m : ParamSet) : List Byte :=
  specs.flatMap fun q =>
    ((List.range q.count).filter (has q.id)).flatMap fun i =>
      leBytes 2 op ++ leBytes 1 target ++ [0] ++ leBytes 2 q.id ++ leBytes 2 i ++
        leBytes 8 (ofSigned 64 (pget m q.id i ((q.dflt).getD (dflt q.id))))

/-- Every element of a parameter set is in the image. -/
def wholeSet (_ _ : Nat) : Bool := true

/-- The committed configuration image (R512): every axis has a record for every parameter of Table 12.1, also for those it does not take. -/
def configImage (s : State) : List Byte :=
  let c := s.cfg.live
  imageRecords 0x0201 0 barSpecs (fun id i => id != 3 || hasBlock i)
      (fun id => if id = 2 then (if s.sys.straps.lgcySel then 1 else 0) else (pnat c.bar 4 0 16 : Int)) c.bar ++
    (List.range Config.ports).flatMap (fun p =>
      let m := nthOr c.heads p []; imageRecords 0x0202 p headSpecs wholeSet (fun _ => (overlapIn m / 2 : Nat)) m) ++
    (List.range Config.ports).flatMap (fun p => imageRecords 0x0703 p waveSpecs wholeSet (fun _ => 0) (nthOr c.waves p [])) ++
    (List.range 8).flatMap (fun a =>
      imageRecords 0x0D01 a ((List.range 25).flatMap fun i => (axisSpecs 0 ++ microSpecs).filter fun q => q.id == i) wholeSet (fun _ => 0) (nthOr c.axes a [])) ++
    imageRecords 0x0E01 0 memSpecs wholeSet (fun _ => 0) c.mem ++ imageRecords 0x1201 0 twinSpecs wholeSet (fun _ => 0) c.twin

/-- CONFIG_CV of the committed image (R424). -/
def configCv (s : State) : Word := crc32c (configImage s)

/-! ## Checks of `cfg.commit` (Table 18.7) -/

/-- The lowest configured port that a test picks, with an item. -/
def portItem (c : State) (item : Nat) (bad : Nat → Bool) : Option (Nat × Nat) := ((portsOn c).find? bad).map fun p => (item, p)

/-- Another configured port names the same UPPER. -/
def sharesUpper (c : State) (p : Nat) : Bool :=
  upperOf c p != 0xFF && (portsOn c).any fun q => q != p && upperOf c q == upperOf c p

/-- The chain of UPPER links from q returns to p. -/
def upperLoop (c : State) (p : Nat) : Nat → Nat → Bool
  | 0, _ => false
  | n + 1, q =>
    let u := upperOf c q
    if u = 0xFF || !portOn c q then false else if u = p then true else upperLoop c p n u

/-- The overlap of the head that names p as its UPPER. -/
def lowerOverlap (c : State) (p : Nat) : Nat :=
  match (portsOn c).find? fun q => upperOf c q == p with | some q => overlapOf c q | none => 0

/-- The items that need no memory read, up to UPPER_ABSENT, on the state as it would be committed. -/
def commitItemA (s c : State) : Option (Nat × Nat) :=
  let built (p : Nat) : Bool := let w := nthOr s.wave p {}; (activeBank w).isSome || w.shadow == .ready
  let mapped (p : Nat) : Bool := let g := greyPair s p; g.active.isSome || g.shadow == .ready
  portItem c 0x01 (fun p => !(nthOr s.heads p {}).present)
  |>.or (portItem c 0x02 (fun p => let h := nthOr s.heads p {}; h.record.isNone || h.mismatch))
  |>.or (portItem c 0x03 (fun p => !built p))
  |>.or (portItem c 0x04 (fun p => !mapped p))
  |>.or (if channelBytes s = 0 then some (0x11, 0) else none)
  |>.or (if !s.mem.swept || s.mem.sweepBusy then some (0x05, 0) else none)
  |>.or (portItem c 0x06 (sharesUpper c))
  |>.or (portItem c 0x07 (fun p => upperLoop c p 16 p))
  |>.or (portItem c 0x08 (fun p => upperOf c p != 0xFF &&
      (decide (nozzlesOf c p < overlapOf c p) || (portOn c (upperOf c p) && decide (nozzlesOf c (upperOf c p) < overlapOf c p)))))
  |>.or (portItem c 0x09 (fun p => decide (nozzlesOf c p < overlapOf c p + lowerOverlap c p)))
  |>.or (portItem c 0x0A (fun p => upperOf c p != 0xFF && !portOn c (upperOf c p)))

/-- The active bank, or a READY one, longer than the period floor that the commit would set (R297). -/
def periodBad (s c : State) (p : Nat) : Bool :=
  let w := nthOr s.wave p {}
  [activeBank w, if w.shadow = .ready then shadowBank w else none].any fun b => match b with | some b => decide (tPortNow c p < (b.length + 1) * 40) | none => false

/-- The items after PATTERN. -/
def commitItemB (s c : State) : Option (Nat × Nat) :=
  portItem c 0x0C (fun p => decide (ampLatencyOf c p < 2))
  |>.or (portItem c 0x0D (periodBad s c))
  |>.or (if Config.cells < cellSlices c ∨ 100000 < passes c then some (0x0E, 0) else none)
  |>.or (portItem c 0x12 (fun p => decide (shiftDivIn (headCfg c p) < ((recordOf c p).map (·.minDiv)).getD 1)))

/-- A port uses a stitch pattern. -/
def usesPattern (c : State) (p : Nat) : Bool := upperOf c p != 0xFF && stitchPattern (headCfg c p)

/-- The stitch patterns of ports, read from the DRAM (R167, R176): the words of each, or the port whose pattern fails. -/
def readPatterns (c : State) : List Nat → State → Except Nat (List (Nat × List Nat)) × State
  | [], s => (.ok [], s)
  | p :: ps, s =>
    let v := overlapOf c p; let a := pnat (headCfg c p) 8 0 0
    if beyondFitted s a (8 * v + 4) || uninitRange s a (8 * v + 4) then (.error p, s)
    else match dramRead 1 a (8 * v + 4) s with
      | (none, s) => (.error p, s)
      | (some d, s) =>
        if !cvOk d (8 * v) then (.error p, s)
        else match readPatterns c ps s with
          | (.ok xs, s) => (.ok ((p, (List.range v).map fun j => uAt d (8 * j) 8) :: xs), s)
          | (.error q, s) => (.error q, s)

/-! ## The pair at a commit (R424) -/

/-- The payload of PAIR_INFO as this part lays it out (log 30). -/
def pairInfo (cv : Word) (s : State) : List Byte :=
  leBytes 2 Config.partCode ++ leBytes 1 Config.stepCode ++ leBytes 1 (bitsOf s.sys.verupVer.toNat 31 24) ++
    leBytes 1 (bitsOf s.sys.verupVer.toNat 23 16) ++ leBytes 1 (bitAt s.sys.straps.unitId 0) ++ [0, 0] ++ leBytes 4 cv.toNat

/-- The command of the commit in progress, if one is. -/
def commitUnderWay (s : State) : Option Command :=
  match s.sys.transition with
  | some tr => (match tr.waiting with | some c => if c.opcode = 0x0203 then some c else none | none => none)
  | none => none

/-- The CONFIG_CV this unit stands by: the committed one, or that of the image being committed. -/
def standingCv (s : State) : Word := if (commitUnderWay s).isSome then configCv (asCommitted s) else s.cfg.cv

/-- The peer differs in a field other than UNIT_ID, or has the same UNIT_ID (R424). -/
def pairMismatch (s : State) : Bool :=
  match s.twin.peerInfo with
  | none => false
  | some b =>
    let mine := pairInfo (standingCv s) s
    b.take 5 != mine.take 5 || uAt b 5 1 == uAt mine 5 1 || uAt b 8 4 != uAt mine 8 4

/-- A holder other than this unit is in contact. -/
def peerHolds (s : State) : Bool := inContact s && s.twin.heardRenew

/-- The peer's PAIR_INFO, from its request or its response. -/
def notePairInfo (b : List Byte) (s : State) : State := if b.length = 12 then setTwin (fun t => { t with peerInfo := some b }) s else s

/-- The peer's PAIR_INFO request, which is answered with this unit's (R424). -/
def pairInfoHeard (p : List Byte) (s : State) : Reply × State :=
  if p.length ≠ 12 then refuse .badArg 0 s else let t := notePairInfo p s; okWith (pairInfo (standingCv t) t) t

/-- An opcode that R435 does not list for TMB1. -/
def tmbUnknown (m : List Byte) : Bool := !tmbAnswers m && !tmbKnown.contains (tmbOp m)

/-- PAIR_INFO_RECEIVED (R424): the bytes of a TMB frame, with the peer's request, which is answered, or its response. A request that R435 does not list
is turned away here with BAD_OPCODE. -/
def execPairInfoReceived (f : List Byte) (s : State) : Host.Outcome State Fault Refusal :=
  let s := acceptTmb f s
  .next (match s.twinLink.rxTmb with
    | [] => s
    | (_, m) :: _ =>
      if tmbAnswers m then heardResponse 0xF001 (fun m => notePairInfo (tmbPayload m)) [] s
      else if tmbUnknown m then takeTmb tmbUnknown (fun _ m s => executeTmb (fun _ s => refuse .badOpcode 0 s) m s) [] s
      else serveTmb 0xF001 pairInfoHeard [] s)

/-! ## `cfg.commit` -/

/-- A table or a bank is being built (R187, R203). -/
def isBuilding (s : State) : Bool :=
  s.swath.subst.shadow == .building || s.swath.grey.toList.any (fun g => g.shadow == .building) || s.wave.toList.any (fun w => w.shadow == .building)

/-- PAIR of the staged `twin.config`. -/
def pairStaged (s : State) : Bool := pon s.cfg.staged.twin 1 0 false

/-- `cfg.commit` being executed (R40, R41, R424): BUSY while a build runs; else the checks begin as a mode transition, which MODE_TRANSITION_END ends
with the response. With PAIR 1, PAIR_INFO goes to the peer. -/
def commitNow (s : State) : State :=
  match s.mbx.current with
  | none => s
  | some c =>
    if c.opcode ≠ 0x0203 then s
    else if let some st := turnedAway 0x0203 s then finishCommand c { status := st } s
    else if isBuilding s then finishCommand c { status := .busy } s
    else
      let s := bgStart .transition s
      let s := { s with
        mbx := { s.mbx with current := none }, sys := { s.sys with transition := some { target := .idle, cause := 0x0203, waiting := some c } } }
      if pairStaged s && s.twinLink.linkUp then
        let s := setTwin (fun t => { t with peerInfo := none }) s
        twinRequest 0xF001 (pairInfo (standingCv s) s) s
      else s

/-- CFG_COMMIT (R40). -/
def execCfgCommit (s : State) : Host.Outcome State Fault Refusal :=
  .next (withStuck 0x0203 commitNow s)

/-- The commit is refused and leaves the mode (Table 18.7). -/
def refuseCommit (c : Command) (item n : Nat) (s : State) : State :=
  answerWaiting c { status := .badState, detail := item * 256 + n }
    (bgEnd .transition { s with sys := { s.sys with transition := none }, twin := { s.twin with takeAtCommit := false } })

/-- What a commit puts in force: the image and its CV, the profile and the legacy bit, the records and period floors of the configured ports, the limits
of the axes, whose runs of missed replies end and whose Q0 is set anew where its channel or factor has changed, and the patterns; with legacy behaviour the camera lanes carry no traffic, and no event says so (R52, R166, R296, R297, R336, R338, R366, R577). -/
def applyCommit (pats : List (Nat × List Nat)) (s : State) : State :=
  let c := asCommitted s
  let s := { s with
    cfg := { s.cfg with live := s.cfg.staged, cv := configCv c }
    sys := { s.sys with profile := c.sys.profile, legacy := c.sys.legacy }
    heads := Vector.ofFn fun i =>
      let h := s.heads[i]
      if portOn c i.val then { h with committed := h.record, tPort := tPortNow c i.val }
      else { h with committed := none, mismatch := false, tPort := 0 }
    wave := Vector.ofFn fun i => let w := s.wave[i]; if (activeBank w).isNone then { w with level := restDefaultOf c i.val } else w
    axes := Vector.ofFn fun i =>
      let x := s.axes[i]
      let same (k : Nat) : Bool := pget s.cfg.live.axes[i] k 0 (k / 5) == pget s.cfg.staged.axes[i] k 0 (k / 5)
      { x with lim := x.staged, deferred := none, missRun := 0, q0Set := x.q0Set && [3, 4, 5, 6].all same }
    swath := { s.swath with patterns := Vector.ofFn fun i => (pats.find? fun e => e.1 == i.val).elim [] (·.2) }
    bar := { s.bar with committed := true }
    audit := if c.sys.legacy then clearedCamera s.audit else s.audit }
  [6, 7].foldl (fun s a => if axisOn s a && pnat (axisCfg s a) 3 0 0 == 1 then setQ0 a s else s) s

/-- The mailboxes in the format of the legacy bit: every sequence at its start and no stored response (R51, R84). -/
def switchFormat (s : State) : State :=
  { s with mbx := { s.mbx with
    fmt1 := s.sys.legacy
    box := s.mbx.box.map fun m => { m with seq := if s.sys.legacy then 0x0000FFFF else 0xFFFFFFFF, executed := false, stored := [] } } }

/-- The commit ends in its mode: the image is in force, `ev.mode` is raised, and the response carries CONFIG_CV. Where the mailbox format
changes, the commands issued before that response are refused first, in the old format (R51). -/
def commitInto (target : Mode) (pats : List (Nat × List Nat)) (c : Command) (s : State) : State :=
  let was := s.sys.legacy
  let s := if (asCommitted s).sys.legacy = was then s else s.mbx.order.foldl (fun s n => acceptBox n s) s
  let s := applyCommit pats (bgEnd .transition { s with sys := { s.sys with transition := none }, twin := { s.twin with takeAtCommit := false } })
  let s := setTwin (fun t => { t with paired := pairStaged s, lease := if pairStaged s then t.lease else .none_ }) s
  let s := if target = .follow then enterFollow 0x0203 s else changeMode target 0x0203 s
  let s := answerWaiting c { status := .ok, payload := leBytes 4 s.cfg.cv.toNat } s
  if s.sys.legacy = was then s else switchFormat s

/-- The primary takes the lease at its commit with EPOCH 1, SOLO (R424, R428). EPOCH begins anew there, so what was received of earlier ones counts no
more (DEDUCED, log 31). -/
def takeLease (s : State) : State :=
  becomeActive (ownershipChanged (setTwin (fun t => { t with lease := .solo, epoch := 1, newest := none, vValid := false, uncertain := false }) s))

/-- How the checked commit of a pair goes on (R424): a unit that holds the lease already keeps it (log 30). -/
def commitPair (take : Bool) (pats : List (Nat × List Nat)) (c : Command) (s : State) : State :=
  if inContact s && pairMismatch s then refuseCommit c 0x0F 0 s
  else if peerHolds s then commitInto .follow pats c (setTwin (fun t => { t with lease := .none_ }) s)
  else if pairOn s && holdsLease s then commitInto .idle pats c s
  else if s.sys.straps.unitId then refuseCommit c 0x10 0 s
  else if take then commitInto .idle pats c (takeLease s)
  else setTwin (fun t => { t with takeAtCommit := true }) s

/-- The checks of a commit and what follows them; `take` once BAR_PEER has been low for 1 ms. -/
def endCommit (take : Bool) (c : Command) (s : State) : State :=
  let k := asCommitted s
  match commitItemA s k with
  | some (i, n) => refuseCommit c i n s
  | none =>
    match readPatterns k ((portsOn k).filter (usesPattern k)) s with
    | (.error p, s) => refuseCommit c 0x0B p s
    | (.ok pats, s) =>
      match commitItemB s k with
      | some (i, n) => refuseCommit c i n s
      | none => if pairStaged s then commitPair take pats c s else commitInto .idle pats c s

/-- MODE_TRANSITION_END (R41): the commit's checks end. With PAIR 1 and the peer in contact over the twin link, they wait for its PAIR_INFO (R424).
The end of a job waits for the last windows to close. -/
def execModeTransitionEnd (s : State) : Host.Outcome State Fault Refusal :=
  .next (match commitUnderWay s with
    | none => if jobEnding s && !cyclesRun s then changeMode .idle causeComplete { s with sys := { s.sys with transition := none } } else s
    | some c => if pairStaged s && inContact s && s.twin.peerInfo.isNone && requestOut 0xF001 s then s else endCommit false c s)

/-- LEASE_TAKE_AT_COMMIT (R424): the primary's commit has passed its checks, no holder is in contact, and BAR_PEER has been low for 1 ms. -/
def execLeaseTakeAtCommit (s : State) : Host.Outcome State Fault Refusal :=
  .next (match commitUnderWay s with
    | none => s
    | some c => if s.twin.takeAtCommit && !peerHolds s && peerLow 800000 0 s then endCommit true c s else s)

/-! ## Mode commands -/

/-- Every configured axis is at standstill. -/
def axesStill (s : State) : Bool := (List.range 8).all fun a => !axisOn s a || (nthOr s.axes a {}).standstill

/-- SAFESTOP is left: the chip latch and every latch that was passed to the chip are released under CLEAR, and the SAFESTOP holds turn into HOST (R348,
R414, R416). -/
def leaveSafestop (s : State) : State :=
  let s := releaseWhere (fun r => r.toChip && r.inst.level != .chip) .clear (releaseLatch chipInst .clear s)
  (List.range 8).foldl (fun s a => holdToHost a .safestop s) s

/-- Entry into CONFIGURE from another mode after BOOT: nothing is lost of the mailboxes; MBX_EVR_LOST starts anew (R78). -/
def toConfigure (cause : Nat) (s : State) : State :=
  let s := dropHand (changeMode .configure cause s)
  { s with evr := { s.evr with lost := 0 }, audit := { s.audit with passNo := 0 } }

/-- `sys.configure` (Table 2.3). The table names no status for an axis that is not at standstill: BAD_STATE is the model's choice (DESIGN CHOICE,
log 12). -/
def sysConfigure (tries : List (List BusTry)) (_ : List Byte) (s : State) : Reply × State :=
  if !axesStill s then refuse .badState 0 s
  else
    let s := if s.sys.mode = .safestop then leaveSafestop s else s
    okWith [] (toConfigure 0x0103 (if s.job.isOpen then (closeJob tries s).2 else s))

/-- SYS_CONFIGURE (R40). -/
def execSysConfigure (tries : List (List BusTry)) (s : State) : Host.Outcome State Fault Refusal :=
  .next (runCommand 0x0103 (sysConfigure tries) s)

/-- `sys.safestop` (Table 2.3). -/
def sysSafestop (_ : List Byte) (s : State) : Reply × State := okWith [] (raiseFault .hostCommand 0 0xFFFF s)

/-- SYS_SAFESTOP (R40). -/
def execSysSafestop (s : State) : Host.Outcome State Fault Refusal := .next (runCommand 0x0102 sysSafestop s)

/-- `sys.reset` being executed (R47): the response is written before the reset begins. -/
def resetNow (s : State) : State :=
  match s.mbx.current with
  | none => s
  | some c =>
    if c.opcode ≠ 0x0101 then s
    else if let some st := turnedAway 0x0101 s then finishCommand c { status := st } s
    else if uAt c.payload 0 2 ≠ 0xA5C3 then finishCommand c { status := .badArg } s
    else requestReset 1 (finishCommand c { status := .ok } s)

/-- SYS_RESET (R47). -/
def execSysReset (s : State) : Host.Outcome State Fault Refusal := .next (withStuck 0x0101 resetNow s)

/-- `sys.secver` (R59). -/
def sysSecver (p : List Byte) (s : State) : Reply × State :=
  let v := uAt p 0 1
  if 63 < v ∨ v ≤ s.sys.secVer then refuse .badArg 0 s
  else if uAt p 2 2 ≠ 0x5EC5 then refuse .badArg 2 s
  else okWith (leBytes 1 v) { s with sys := { s.sys with secVer := v } }

/-- SYS_SECVER (R59). -/
def execSysSecver (s : State) : Host.Outcome State Fault Refusal := .next (runCommand 0x0104 sysSecver s)

/-- `svc.enter` (Table 2.3, Table 2.2), with BAD_STATE as for `sys.configure` (DESIGN CHOICE, log 12). -/
def svcEnter (_ : List Byte) (s : State) : Reply × State :=
  if !axesStill s then refuse .badState 0 s
  else okWith [] (changeMode .service 0x1801 (stopScrub (if s.sys.mode = .safestop then leaveSafestop s else s)))

/-- SVC_ENTER (R40). -/
def execSvcEnter (s : State) : Host.Outcome State Fault Refusal := .next (runCommand 0x1801 svcEnter s)

/-- `svc.exit` (Table 2.3, R214, R393): test words are restored and waveform tests end. -/
def svcExit (_ : List Byte) (s : State) : Reply × State :=
  okWith [] (toConfigure 0x1802 (restoreTestWords { s with wave := s.wave.map fun w => { w with test := 0 } }))

/-- SVC_EXIT (R40). -/
def execSvcExit (s : State) : Host.Outcome State Fault Refusal := .next (runCommand 0x1802 svcExit s)

end Sys2Proof.Machine
end

