-- ==== Sys2Proof/Machine/Audit.lean ====
section
/-! DEFINITION. The nozzle audit: the camera link and its frames (R308 to R314), passes (R317 to R327), verdicts and substitution edits (R321 to R324),
results (R328 to R330), in-line inspection (R331, R332) and errors of the audit store (R333). -/
namespace Sys2Proof.Machine

/-- SOURCE of the audit block (Table 14.1). -/
def auditSource : Nat := 0x25

/-- A pass measures: it has not ended (R326). -/
def passRuns (s : State) : Bool := s.sys.mode == .audit && s.audit.pass.any fun a => a.result.isNone

/-! ## The camera link -/

/-- `ev.audit_lane` (Table 19.5): WIDTH is the number of lanes then up. -/
def evAuditLane (lane : Nat) (up : Bool) (s : State) : State :=
  emit { code := 0x0C01, source := auditSource
         payload := leBytes 1 lane ++ leBytes 1 (bitAt up 0) ++ leBytes 1 (popCount 2 s.audit.laneUp) ++ leBytes 1 (pnat s.audit.params 1 0 5) ++ zeros 12 } s

/-- Every camera lane goes down, each change reported. -/
def lanesDown (s : State) : State :=
  let was := s.audit.laneUp
  let s := { s with audit := clearedCamera s.audit }
  [0, 1].foldl (fun s i => if bitOf was i then evAuditLane i false s else s) s

/-- The parameters of Table 11.3. -/
def auditConfigSpecs : List PSpec :=
  [ ⟨1, 1, 2, 5, some 5⟩, ⟨2, 1, 1, 2, some 2⟩, ⟨3, 1, 64, 32768, some 16384⟩, ⟨4, 16, -(2 ^ 31), 2 ^ 31 - 1, some 0⟩, ⟨5, 16, -65535, 65535, some 8192⟩,
    ⟨6, 1, 1, 127, some 26⟩, ⟨7, 1, 1, 128, some 77⟩, ⟨8, 1, 1, 65535, some 128⟩, ⟨9, 1, 256, 65536, some 4096⟩, ⟨10, 1, 1, 65535, some 64⟩,
    ⟨11, 1, 1, 255, some 240⟩, ⟨12, 1, 1, 127, some 51⟩ ]

/-- A value of Table 11.3 within its bounds and yet outside its range. -/
def auditConfigBad (it : PItem) : Bool := (it.id == 3 && it.value % 64 != 0) || (it.id == 5 && it.value == 0)

/-- WEAK_T is at least MISS_T. -/
def auditConfigRelation (m : ParamSet) : Option (List Nat) := if pnat m 7 0 77 < pnat m 6 0 26 then some [6, 7] else none

/-- `audit.config` (R316): settings in force at once; camera bring-up runs whenever RATE or WIDTH is set, to whatever value (R309). -/
def auditConfig (p : List Byte) (s : State) : Reply × State :=
  let its := listItems p 0
  if listTarget p 0 ≠ 0 then refuse .badArg 0 s
  else match judgeList auditConfigSpecs auditConfigRelation s.audit.params (spoil auditConfigBad its) with
    | .error d => refuse .badArg d s
    | .ok m =>
      let s := { s with audit := { s.audit with params := m } }
      okWith [] (if its.any (fun i => i.id == 1 || i.id == 2) then
          lanesDown { s with audit := { s.audit with configured := true, lostAt := none } }
        else s)

/-- AUDIT_CONFIG (R316). -/
def execAuditConfig (s : State) : Host.Outcome State Fault Refusal := .next (runCommand 0x0C01 auditConfig s)

/-- A camera lane has been through LOCK, ALIGN where WIDTH is 2, and VERIFY: 2 ms without an invalid block or a LANE_CHECK mismatch (R309). -/
def cameraPassed (lane : Nat) (s : State) : Bool :=
  let n := nthOr s.audit.lanes lane {}
  cameraHears lane s && n.lock && (pnat s.audit.params 2 0 2 == 1 || decide (4 ≤ n.aligns)) && decide (n.verifyAt + 1600000 ≤ s.clock)

/-- A camera lane comes up: its receiver has adapted in bring-up, and the equaliser's peaking, a free value (log 3), is frozen (R92, R308); the 1 ms
windows of mismatches begin anew. -/
def laneIsUp (lane : Fin 2) (s : State) : State :=
  { s with
    free := s.free + 1
    audit := { s.audit with
      laneUp := s.audit.laneUp + 2 ^ lane.val
      lanes := s.audit.lanes.set lane { s.audit.lanes[lane] with intervalErr := 0, peaking := Config.freeNat s.free % 16, dfe := true } } }

/-- CAMERA_LANE_UP (R309): a lane that the link uses has passed VERIFY. -/
def execCameraLaneUp (lane : Fin 2) (s : State) : Host.Outcome State Fault Refusal :=
  .next (if cameraPassed lane.val s && !bitOf s.audit.laneUp lane.val then
      let s := noteRecord (12 + lane.val) (fun h => { h with state := 0, lastRate := pnat s.audit.params 1 0 5, bringups := satAdd 32 h.bringups 1 }) s
      evAuditLane lane.val true (laneIsUp lane s)
    else s)

/-- A camera lane that is up has shown 4 LANE_CHECK mismatches within its present 1 ms window (R309). -/
def cameraErrors (s : State) : Bool :=
  [0, 1].any fun i =>
    let n := nthOr s.audit.lanes i {}
    bitOf s.audit.laneUp i && decide (4 ≤ n.intervalErr) && decide (s.clock < n.windowAt + 800000)

/-- The camera link is lost, and bring-up waits 1 ms. No fault is raised. -/
def cameraLost (s : State) : State :=
  let note (s : State) (i : Nat) : State :=
    if bitOf s.audit.laneUp i then noteRecord (12 + i) (fun h => { h with state := 5, lastFail := s.time.tb.toNat }) s else s
  lanesDown { [0, 1].foldl note s with audit := { s.audit with lostAt := some s.clock } }

/-- CAMERA_LINK_LOST (R309): a lane that is up loses block lock, or without `lock` the mismatches of a lane have reached 4; a lane still in bring-up takes
its lock anew. -/
def execCameraLinkLost (lock : Option (Fin 2)) (s : State) : Host.Outcome State Fault Refusal :=
  .next (if !auditPresent s then s
    else match lock with
      | some i =>
        if bitOf s.audit.laneUp i.val then cameraLost s
        else { s with audit := { s.audit with lanes := s.audit.lanes.set i { s.audit.lanes[i] with lock := false, train2 := 0, aligns := 0, alignSeen := false } } }
      | none => if cameraErrors s then cameraLost s else s)

/-- CAMERA_RESTART (R309): 1 ms after the loss, bring-up runs again. -/
def execCameraRestart (s : State) : Host.Outcome State Fault Refusal :=
  .next (match s.audit.lostAt with
    | some t => if t + 800000 ≤ s.clock then { s with audit := { s.audit with lostAt := none } } else s
    | none => s)

/-! ## `audit.start` -/

/-- The parameters of Table 11.4: those of Table 10.2, then TRIG_OUT to F_MAX. -/
def auditStartSpecs : List PSpec :=
  paceSpecs ++
  [ ⟨14, 1, 0, 1, some 0⟩, ⟨15, 1, 0, 1048575, none⟩, ⟨16, 1, 8, 64, some 32⟩, ⟨17, 1, 2, 64, some 8⟩, ⟨18, 1, 4, 64, some 8⟩, ⟨19, 1, 1, 7, some 7⟩,
    ⟨20, 1, 1, 8, some 2⟩, ⟨21, 16, 0, 65535, some 0⟩, ⟨22, 1, 0, 3, some 0⟩, ⟨23, 1, 0, 1, some 0⟩, ⟨24, 1, 0, 1, some 0⟩, ⟨25, 1, 0, 1, some 0⟩,
    ⟨26, 1, 0, 2 ^ 40 - 1, none⟩, ⟨27, 1, 0, 2 ^ 40, none⟩, ⟨28, 1, 0, 2 ^ 40 - 1, none⟩, ⟨29, 1, 1, 10000, some 1000⟩, ⟨30, 1, 0, 255, some 255⟩,
    ⟨31, 1, -(2 ^ 47), 2 ^ 47 - 1, some 0⟩, ⟨32, 1, 1, 100000, some 100000⟩ ]

/-- A value of Table 11.4 within its bounds and yet outside its range: ORIGIN_MODE 1, AXIS 8 to 254, an address that is no multiple of 64. -/
def auditStartBad (it : PItem) : Bool :=
  (it.id == 7 && it.value == 1) || (it.id == 30 && decide (7 < it.value) && it.value != 255) ||
    ((it.id == 26 || it.id == 28) && it.value % 64 != 0)

/-- DETAIL and COMPRESS of a pass, and RAW_LEN (R329). -/
def auditDetail (m : ParamSet) : Bool := pon m 24 0 false
def auditCompress (m : ParamSet) : Bool := pon m 25 0 false
def auditRawLen (s : State) (m : ParamSet) : Nat := (if auditDetail m then 4 else 1) * ((portsOn s).map (nozzlesOf s)).sum

/-- The work area of a pass: a compressor's context, then the raw body (Table 11.4). -/
def auditWorkLen (s : State) (m : ParamSet) : Nat := 262144 + auditRawLen s m

/-- The least RESULT_CAP (R325). -/
def auditLeastCap (s : State) (m : ParamSet) : Nat := let r := auditRawLen s m; 320 + r + 6 * ceilDiv r 1024 + 8

/-- The rules of R313, R320 and R325 between parameters: those of the first that fails. -/
def auditStartRelation (s : State) (m : ParamSet) : Option (List Nat) :=
  let a := pnat m 30 0 255
  let near (p : Nat) : Bool := decide (pnat m 16 0 32 * (pget s.audit.params 5 p 8192).natAbs < 262144)
  match paceRelation s (if a < 8 then 2 ^ a else 0) m with
  | some ids => some ids
  | none =>
    if 65535 < pnat m 3 0 0 then some [3]
    else if (portsOn s).any near then some [16]
    else if s.sys.profile = .markhor ∧ guardN s < pnat m 17 0 8 then some [17]
    else if beyondFitted s (pnat m 26 0 0) (pnat m 27 0 0) then some [26, 27]
    else if pnat m 27 0 0 < auditLeastCap s m then some [24, 27]
    else if auditCompress m ∧ beyondFitted s (pnat m 28 0 0) (auditWorkLen s m) then some [28]
    else none

/-- The parameters of `audit.start` judged, from their defaults (R508, R511, R325). -/
def judgeAudit (s : State) (its : List PItem) : Except Nat ParamSet :=
  match judgeList auditStartSpecs noRelation [] (spoil auditStartBad its) with
  | .error d => .error d
  | .ok m =>
    match missingParam ([1, 3, 11, 15, 26, 27] ++ (if auditCompress m then [28] else [])) m with
    | some d => .error d
    | none => match auditStartRelation s m with
      | some ids => .error (0x8000 + itemOf its ids)
      | none => .ok m

/-- Some memory that the pass names is outside the initialised range (R325). -/
def auditUninit (s : State) (m : ParamSet) : Bool :=
  uninitRange s (pnat m 26 0 0) (pnat m 27 0 0) || (auditCompress m && uninitRange s (pnat m 28 0 0) (auditWorkLen s m))

/-- CAMERA_RATE (R325): the payload rate against RATE's data rate of Table 4.1 over the lanes up, times 4096/4098. Both sides are in bytes per second times
PITCH_NUM × 4098 × 65, a lane of G Gbaud carrying G × 8 × 10⁹ / 65 bytes per second. -/
def cameraRateError (s : State) (m : ParamSet) : Bool :=
  decide (mbaud (pnat s.audit.params 1 0 5) * 8000000 * popCount 2 s.audit.laneUp * 4096 * pnat m 3 0 0 < (cameraPixels s + 20) * pnat m 11 0 0 * pnat m 4 0 1 * 4098 * 65)

/-- The capacity checks of R325, in the order of `job.start`: Table 1.9 without the decoders, Table 10.5, CAMERA_RATE. -/
def auditCapacity (s : State) (m : ParamSet) : Option Nat :=
  let f := pnat m 32 0 100000
  if Config.cells < cellSlices s ∨ 100000 < passes s * f then some 0x11
  else if lineBytes s ≠ 0 ∧ 6291456 / lineBytes s < 64 then some 0x14
  else match paceRateError s m f with
    | some d => some d
    | none => if (nthOr s.fbk (pnat m 1 0 0) {}).chFault then some 0x23 else if cameraRateError s m then some 0x31 else none

/-- The move of AXIS by DIST at the axis's own speed limit, where its limits allow it (R326, log 32). -/
def auditMove (m : ParamSet) (s : State) : State :=
  let a := pnat m 30 0 255
  if 8 ≤ a then s
  else
    let goal := userPos (nthOr s.axes a {}) + pget m 31 0 0
    let mv : Move := .target goal 0
    if (nthOr s.axes a {}).reaches goal && moveOk s a mv then giveMove a mv s else s

/-- An output that the part has enabled for the open job is disabled before a pass takes it up (R313). -/
def releaseTrigger (i : Nat) (s : State) : State :=
  setFbo i (fun o => if o.enabled && o.byAudit then { o.halt s.clock with params := pset o.params ⟨1, 0, 0⟩ } else o) s

/-- The pass begins (R326): the open job's swath and pacing are set aside, AUDIT is entered, the trigger output is reserved, and pacing arms. -/
def enterAudit (m : ParamSet) (s : State) : State :=
  let s := if s.job.isOpen then park s else s
  let s := releaseTrigger (pnat m 14 0 0) s
  let w := sequenceSwath s
  let s := { s with
    swath := { w with line := w.line.map fun l => { l with fired := 0 } }
    pace := { source := .channel, params := m, dirRev := pon m 2 0 false, port := s.pace.port.map fun q => { lastAt := q.lastAt } }
    fbo := updAt s.fbo (pnat m 14 0 0) fun o => { o with byAudit := true }
    audit := { s.audit with
      pass := some { params := m }, passNo := s.audit.passNo + 1, origins := [], jobOrigins := s.audit.origins, framing := 0, crc := 0, format := 0, dup := 0, lost := 0
      accepted := 0 } }
  armNext (auditMove m (bgStart .audit (changeMode .audit 0x0C02 s)))

/-- `audit.start` (R325, R326). -/
def auditStart (p : List Byte) (s : State) : Reply × State :=
  if s.audit.laneUp = 0 then refuse .badState 0 s
  else if listTarget p 0 ≠ 0 then refuse .badArg 0 s
  else match judgeAudit s (listItems p 0) with
    | .error d => refuse .badArg d s
    | .ok m =>
      let a := pnat m 30 0 255
      let o := nthOr s.fbo (pnat m 14 0 0) {}
      if o.enabled && !o.byAudit then refuse .badState 0 s
      else if auditUninit s m then refuse .uninit 0 s
      else match auditCapacity s m with
        | some d => refuse .overCapacity d s
        | none => if a < 8 ∧ !(nthOr s.axes a {}).referenced then refuse .notReferenced a s else okWith [] (enterAudit m s)

/-- AUDIT_START (R325). -/
def execAuditStart (s : State) : Host.Outcome State Fault Refusal := .next (runCommand 0x0C02 auditStart s)

/-- TRIGGER_OUTPUT_ENABLE (R313): the part enables the output reserved for a pass, or for a started job, once it has been disabled for 100 µs. -/
def execTriggerOutputEnable (i : Fin 2) (s : State) : Host.Outcome State Fault Refusal :=
  let o := s.fbo[i]
  let use : Bool := if s.sys.mode = .audit then passRuns s && triggerOutput s == some i.val
    else s.job.started && triggerOutput s == some i.val
  .next (if use && o.byAudit && !o.enabled && (o.disabledAt == 0 || decide (o.disabledAt + 80000 ≤ s.clock)) then
      setFbo i.val (fun o => { o with params := triggerParams (pacePars s) }.start) { s with audit := { s.audit with trigLast := 0 } }
    else s)

/-! ## Measuring (R320) -/

/-- STRIDE, DASH, GAPL and REPEAT of a pass. -/
def strideOf (m : ParamSet) : Nat := pnat m 16 0 32
def dashOf (m : ParamSet) : Nat := pnat m 17 0 8
def gapOf (m : ParamSet) : Nat := pnat m 18 0 8
def repeatsOf (m : ParamSet) : Nat := pnat m 20 0 2

/-- LS of a pass (R318). -/
def auditLines (m : ParamSet) : Nat :=
  repeatsOf m * 2 * strideOf m * (gapOf m + dashOf m) + ((List.range 16).map fun p => pnat m 21 p 0).foldl max 0

/-- The pixels q with |256q + 128 − c| < HALF. -/
def dashPixels (half : Nat) (c : Int) : List Int :=
  ((List.range (half / 128 + 3)).map fun (k : Nat) => (c - 128 - (half : Int)) / 256 + (k : Int)).filter fun q => decide ((256 * q + 128 - c).natAbs < half)

/-- What one dash shows: its area and, when that is above 0, its deviation. -/
structure DashSeen where
  area : Nat
  dev : Option Int
deriving DecidableEq, Repr

/-- The dash from the white lines and the dash lines that image it, as lists of pixel values of the pixels q. -/
def seenDash (c : Int) (qs : List Int) (white dark : List (List Nat)) : DashSeen :=
  let w (i : Nat) : Nat := ((white.map fun l => l.getD i 0).sum) / white.length
  let d (i : Nat) : Nat := ((dark.map fun l => w i - l.getD i 0)).sum
  let a := ((List.range qs.length).map d).sum
  let qd : Int := (qs.zipIdx.map fun e => e.1 * (d e.2 : Int)).sum
  { area := a, dev := if a = 0 then none else some (256 * qd / a + 128 - c) }

/-- The dash of nozzle n of port p in a repeat; none where it is UNSEEN (R320). Its phase block is that of pattern lines (R318), which image their
own medium lines whatever the port's SHIFT (log 32). -/
def measureDash (s : State) (a : AuditPass) (p n rep : Nat) : Option DashSeen :=
  let m := a.params
  let len := gapOf m + dashOf m
  let base := (rep * 2 + chainDepth s 16 p % 2) * strideOf m * len + n % strideOf m * len
  let c := cameraPos s p n
  let qs := dashPixels (strideOf m * (pget s.audit.params 5 p 8192).natAbs / 512) c
  let line (k : Nat) : Option (List Nat) := (a.frames.find? fun f => f.1 == base + k).map fun f => qs.map fun q => (f.2.getD q.toNat 0).toNat
  if qs.any fun q => decide (q < 0) || decide ((cameraPixels s : Int) ≤ q) then none
  else
    let white := (List.range (gapOf m - 2)).map fun k => line (k + 2)
    let dark := (List.range (dashOf m)).map fun k => line (gapOf m + k)
    if (white ++ dark).any (·.isNone) then none else some (seenDash c qs (white.filterMap id) (dark.filterMap id))

/-! ## Verdicts (R321, R322) -/

/-- The lower median. -/
def lowerMedian (l : List Nat) : Nat :=
  let h := (l.length - 1) / 2
  (l.find? fun x => decide ((l.filter (· < x)).length ≤ h) && decide (h < (l.filter (· ≤ x)).length)).getD 0

/-- A_rel. -/
def areaRel (area med : Nat) : Nat := 128 * area / med

/-- The verdict of a seen dash (Table 11.5). -/
def dashVerdict (s : State) (med : Nat) (d : DashSeen) : Nat :=
  if med = 0 ∨ areaRel d.area med < pnat s.audit.params 6 0 26 then 3
  else if d.dev.any fun x => decide (pnat s.audit.params 8 0 128 < x.natAbs) then 2
  else if areaRel d.area med < pnat s.audit.params 7 0 77 then 1
  else 0

/-- The verdict of a nozzle from those of its seen dashes (R322). -/
def nozzleVerdict (vs : List Nat) : Nat :=
  if vs.isEmpty then 0xF else ([3, 2, 1].find? fun v => decide (ceilDiv vs.length 2 ≤ vs.count v)).getD 0

/-- What a pass makes of one nozzle: its verdict, its A_rel in the repeats in which it was seen (none where A_med is 0), and its deviations. -/
structure NozzleResult where
  verdict : Nat
  rels : List (Option Nat)
  devs : List Int
deriving DecidableEq, Repr

/-- The nozzles of a head. -/
def judgeHead (s : State) (a : AuditPass) (p : Nat) : List NozzleResult :=
  let reps := List.range (repeatsOf a.params)
  let dashes := (List.range (nozzlesOf s p)).map fun n => reps.map (measureDash s a p n)
  let meds := reps.map fun r => lowerMedian (dashes.filterMap fun ds => (ds.getD r none).map (·.area))
  dashes.map fun ds =>
    let seen := (ds.zip meds).filterMap fun e => e.1.map fun d => (d, e.2)
    { verdict := nozzleVerdict (seen.map fun e => dashVerdict s e.2 e.1)
      rels := seen.map fun e => if e.2 = 0 then none else some (areaRel e.1.area e.2)
      devs := seen.filterMap fun e => e.1.dev }

/-- The verdicts of every configured port. -/
def judgePass (s : State) (a : AuditPass) : List (Nat × List NozzleResult) := (portsOn s).map fun p => (p, judgeHead s a p)

/-! ## Substitution edits (R323) -/

/-- The codes of a map. -/
abbrev Codes := Vector (List Nat) 16

/-- The code of a nozzle in a map, and a map with one changed. -/
def codeAt (m : Codes) (p n : Nat) : Nat := (nthOr m p []).getD n 0
def setCode (m : Codes) (p n k : Nat) : Codes := updAt m p fun l => l.set n k

/-- The active map with a code for every nozzle of the cell slices. -/
def fullCodes (s : State) : Codes :=
  Vector.ofFn fun i => if portOn s i.val then (List.range (256 * slicesOf (nozzlesOf s i.val))).map fun n => codeAt s.swath.subst.active.codes i.val n else []

/-- R180 permits a map around a nozzle just changed: on it, on its neighbours, and on the nozzle it coincides with. -/
def permits (s : State) (m : Codes) (p n : Nat) : Bool :=
  let ok (q k : Nat) : Bool := (substBreach s m q k).isNone
  ok p n && (n == 0 || ok p (n - 1)) && ok p (n + 1) && (match coinciding s p n with | some (_, _, h, k) => ok h k | none => true)

/-- POLICY covers a verdict (Table 11.4). -/
def policyCovers (policy verdict : Nat) : Bool :=
  (verdict == 3 && decide (1 ≤ policy)) || (verdict == 2 && decide (2 ≤ policy)) || (verdict == 1 && policy == 3)

/-- The codes R323 tries on a nozzle, in its order. -/
def codesToTry (s : State) (m : Codes) (verdict : Nat → Nat → Nat) (p n : Nat) : List Nat :=
  let usable (q k : Nat) : Bool := codeAt m q k == 0 && verdict q k == 0
  let left := n != 0 && usable p (n - 1); let right := decide (n + 1 < nozzlesOf s p) && usable p (n + 1)
  let partner := match coinciding s p n with | some (_, _, h, k) => usable h k | none => false
  (if partner then [5] else []) ++ (if left && right then [4] else if left then [2] else if right then [3] else []) ++ [1]

/-- One nozzle of the edit: the map and the edits made so far. -/
def editNozzle (s : State) (m : ParamSet) (verdict : Nat → Nat → Nat) (x : Codes × List (Nat × Nat)) (e : Nat × Nat) : Codes × List (Nat × Nat) :=
  let v := verdict e.1 e.2; let c := codeAt x.1 e.1 e.2; let id := e.1 * 8192 + e.2
  let fits (k : Nat) : Bool := permits s (setCode x.1 e.1 e.2 k) e.1 e.2
  if policyCovers (pnat m 22 0 0) v && c == 0 then
    match (codesToTry s x.1 verdict e.1 e.2).find? fits with
    | some k => (setCode x.1 e.1 e.2 k, x.2 ++ [(id, k)])
    | none => x
  else if pon m 23 0 false && v == 0 && c != 0 && s.audit.record.contains id && fits 0 then (setCode x.1 e.1 e.2 0, x.2 ++ [(id, 0)])
  else x

/-- The edits of a pass: in ascending port and nozzle order, and none under POLICY REPORT (R323). -/
def auditEdits (s : State) (m : ParamSet) (js : List (Nat × List NozzleResult)) : List (Nat × Nat) :=
  let verdict (p n : Nat) : Nat := match js.find? fun j => j.1 == p with | some j => (j.2[n]?).elim 0xF (·.verdict) | none => 0xF
  if pnat m 22 0 0 = 0 then []
  else (js.foldl (fun x j => (List.range j.2.length).foldl (fun x n => editNozzle s m verdict x (j.1, n)) x) (fullCodes s, [])).2

/-! ## The result (R328 to R330) -/

/-- A mean over a list, rounded down or, where `up`, up; the manual states no rounding (log 32). -/
def meanOf (up : Bool) (l : List Int) : Int := let t := l.sum; let n : Int := l.length; if up then -((-t) / n) else t / n

/-- The A_rel byte and the DEV bytes of a record with DETAIL (R329); a mean over nothing is a free value, the k-th from here (log 32). -/
def detailBytes (k : Nat) (up : Bool) (r : NozzleResult) : List Byte :=
  (if r.rels.isEmpty || r.rels.any (·.isNone) then [Config.freeByte k]
   else leBytes 1 (min 255 (meanOf up (r.rels.map fun x => ((x.getD 0 : Nat) : Int))).toNat)) ++
  (if r.devs.isEmpty then [Config.freeByte (k + 1), Config.freeByte (k + 2)]
   else leBytes 2 (ofSigned 16 (max (-32768) (min 32767 (meanOf up r.devs)))))

/-- The record of nozzle n of port p (R329). -/
def nozzleBytes (s : State) (m : ParamSet) (es : List (Nat × Nat)) (rec : List Nat) (up : Bool) (k p n : Nat) (r : NozzleResult) : List Byte :=
  let id := p * 8192 + n
  leBytes 1 (r.verdict + bitAt (es.any fun e => e.1 == id) 4 + bitAt (rec.contains id) 5) ++
    (if auditDetail m then detailBytes (s.free + 3 * (k + n)) up r else [])

/-- The raw body: every configured head in turn. The number given counts the nozzles before. -/
def rawBody (s : State) (m : ParamSet) (es : List (Nat × Nat)) (rec : List Nat) (up : Bool) : Nat → List (Nat × List NozzleResult) → List Byte
  | _, [] => []
  | k, j :: js => (j.2.zipIdx.flatMap fun e => nozzleBytes s m es rec up k j.1 e.2 e.1) ++ rawBody s m es rec up (k + j.2.length) js

/-- A head entry (Table 11.6). -/
def headEntry (es : List (Nat × Nat)) (p : Nat) (rs : List NozzleResult) : List Byte :=
  leBytes 1 p ++ [0] ++ leBytes 2 rs.length ++
    ([0, 1, 2, 3, 0xF].flatMap fun v => leBytes 2 (rs.filter fun r => r.verdict == v).length) ++
    leBytes 2 (es.filter fun e => e.1 / 8192 == p).length

/-- The firing lines of the pass that have fired on every configured port. -/
def auditFired (s : State) : Nat := ((portsOn s).map fun p => (nthOr s.swath.line p {}).fired).foldl min (2 ^ 32 - 1)

/-- The result of a pass that ends with a status (R321 to R323, R327 to R329). -/
def formResult (status : Nat) (incomplete : Bool) (lines : Nat) (a : AuditPass) (s : State) : AuditResult × State :=
  let js := judgePass s a
  let es := if incomplete then [] else auditEdits s a.params js
  let (up, s) := freeBool s
  let raw := rawBody s a.params es (recordAfter s.audit.record es) up 0 js
  let n := (js.map fun j => j.2.length).sum
  ({ status := status, incomplete := incomplete, stamp := s.time.tb.toNat, lines := lines, heads := js.map (·.1), raw := raw, edits := es
     entries := (List.range 16).flatMap fun p => match js.find? fun j => j.1 == p with | some j => headEntry es p j.2 | none => zeros 16 },
   { s with free := s.free + 3 * n })

/-- FLAGS of a result (Table 11.6). -/
def resultFlags (m : ParamSet) (r : AuditResult) (compressed : Bool) : Nat :=
  bitAt compressed 0 + bitAt (auditDetail m) 1 + bitAt (!r.edits.isEmpty) 2 + bitAt r.incomplete 3

/-- The result area but its body: header and head entries (Table 11.6). -/
def resultHead (s : State) (a : AuditPass) (r : AuditResult) (body : List Byte) (compressed : Bool) : List Byte :=
  let h := leBytes 4 0x52445541 ++ [1] ++ leBytes 1 (resultFlags a.params r compressed) ++ zeros 2 ++ leBytes 8 r.stamp ++ leBytes 4 s.audit.passNo ++
    leBytes 4 r.lines ++ leBytes 4 a.framesLost ++ leBytes 4 body.length ++ leBytes 4 r.raw.length ++ leBytes 4 (crc32c body).toNat ++ zeros 20
  h ++ leBytes 4 (crc32c (h ++ r.entries)).toNat ++ r.entries

/-- `ev.audit_done` (Table 19.5). -/
def evAuditDone (status body lost flags : Nat) (entries : List (List Byte)) (s : State) : State :=
  emit { code := 0x0C02, source := auditSource, status := status, keep := true
         payload := leBytes 4 s.audit.passNo ++ leBytes 4 body ++ leBytes 4 lost ++ leBytes 1 flags ++ leBytes 1 entries.length ++ zeros 2 ++ entries.flatten } s

/-- What a pass's gate holds is released when the pass ends (R302; DEDUCED, log 32). -/
def releasePassGate (a : AuditPass) (s : State) : State := match a.gateAxis with | some x => clearHold x .gate s | none => s

/-- The origins of the open job's swaths once a pass has ended: those it had, unless the pass has used the job's own output, whose count has begun anew
since (R313, R314). -/
def originsAfter (a : AuditPass) (s : State) : List (Int × Nat) :=
  if s.job.isOpen && pnat a.params 14 0 0 != s.job.trigOut then s.audit.jobOrigins else []

/-- The pass is over: nothing of it is left, and what was set aside takes its place again. -/
def clearPass (s : State) : State :=
  match s.audit.pass with
  | none => s
  | some a =>
    let s := releasePassGate a s
    let s := if s.job.isOpen then unpark s
      else { s with swath := { s.swath with active := false }, pace := { port := s.pace.port.map fun q => { lastAt := q.lastAt } } }
    let s := (s.codec.requests.filter fun r => r.owner = .audit).foldl (fun s r => dropRequest r s) s
    bgEnd .audit { s with audit := { s.audit with pass := none, origins := originsAfter a s, jobOrigins := [] } }

/-- A pass ends and AUDIT with it. -/
def leaveAudit (cause : Nat) (s : State) : State :=
  let s := clearPass s
  if s.sys.mode = .audit then changeMode .idle cause s else s

/-- The result of a pass is complete with its body, which stands in the result area: header and entries are written, the event is raised, the mode
is IDLE, and the edits wait for their rebuild (R324, R326, R327). -/
def finishPass (a : AuditPass) (r : AuditResult) (body : List Byte) (compressed : Bool) (s : State) : State :=
  let s := dramWrite 4 (pnat a.params 26 0 0) (resultHead s a r body compressed) s
  let entries := r.heads.map fun p => (r.entries.drop (16 * p)).take 16
  let s := evAuditDone r.status body.length a.framesLost (resultFlags a.params r compressed) entries s
  leaveAudit (if r.incomplete then 0x0C03 else causeComplete) { s with audit := { s.audit with edits := if r.edits.isEmpty then s.audit.edits else r.edits } }

/-- The raw body is copied into the result area (R330). -/
def finishRaw (a : AuditPass) (r : AuditResult) (s : State) : State :=
  finishPass a r r.raw false (dramWrite 4 (pnat a.params 26 0 0 + 320) r.raw s)

/-- The body waits for a compressor no more where one is free (R330): the settings are those of Table 5.8 at their defaults. -/
def startAuditDeflate (s : State) : State :=
  match s.audit.pass with
  | none => s
  | some a =>
    match a.result, a.waiting, deflateUnit s with
    | some r, some _, some u =>
      let m := a.params; let w := pnat m 28 0 0
      let q : CodecReq := { owner := .audit, unit := u, deflate := true, ctx := w, inAddr := w + 262144, inLen := r.raw.length, outAddr := pnat m 26 0 0 + 320
                            outCap := pnat m 27 0 0 - 320, limit := 0, entry := 0, start := true, final := true, tag := 0 }
      bgStart (.codec u) { s with
        audit := { s.audit with pass := some { a with waiting := none } }, codec := { s.codec with requests := s.codec.requests ++ [q] } }
    | _, _, _ => s

/-- The pass ends with a status, its measurement over (R326 step 5, R327): the trigger output is disabled, and the result is written, at once or once
its body is compressed. -/
def endAuditPass (status : Nat) (incomplete : Bool) (lines : Nat) (a : AuditPass) (s : State) : State :=
  let (r, s) := formResult status incomplete lines a (triggerOff (pnat a.params 14 0 0) s)
  if auditCompress a.params then
    startAuditDeflate (dramWrite 4 (pnat a.params 28 0 0 + 262144) r.raw
      { s with audit := { s.audit with pass := some { a with result := some r, waiting := some s.clock } } })
  else finishRaw a r s

/-- A fault ends the pass: no result, and `ev.audit_done` with FAULT (R327). The mode stays AUDIT until `audit.stop` (R413, Table 2.3). -/
def failPass (s : State) : State :=
  match s.audit.pass with
  | none => s
  | some a => clearPass (evAuditDone 0x201 0 a.framesLost 0 [] (triggerOff (pnat a.params 14 0 0) s))

/-- `audit.stop` (R327): work in flight is discarded, the axis stops as for `job.abort`, and the pass ends at once with a partial result whose body is
raw, whatever COMPRESS asks (DESIGN CHOICE, log 32); a result that was being compressed is formed anew, without edits. After a fault has ended the pass,
only the mode is left to end. -/
def auditStop (_ : List Byte) (s : State) : Reply × State :=
  match s.audit.pass with
  | none => okWith [] (if s.sys.mode = .audit then changeMode .idle 0x0C03 s else s)
  | some a =>
    let lines := match a.result with | some r => r.lines | none => auditFired s
    let ax := pnat a.params 30 0 255
    let s := startDiscard true 0x0C03 s
    let s := if ax < 8 then abortHold ax s else s
    let x := formResult 0x200 true lines a (triggerOff (pnat a.params 14 0 0) s)
    okWith [] (finishRaw a x.1 x.2)

/-- AUDIT_STOP (R327). -/
def execAuditStop (s : State) : Host.Outcome State Fault Refusal := .next (runCommand 0x0C03 auditStop s)

/-- AUDIT_TIMEOUT (R326): TIMEOUT has passed since the last token; dashes not measured are UNSEEN. -/
def execAuditTimeout (s : State) : Host.Outcome State Fault Refusal :=
  .next (match s.audit.pass with
    | none => s
    | some a =>
      match a.result, a.lastToken with
      | none, some t => if s.sys.mode = .audit ∧ t + pnat a.params 29 0 1000 * 800000 ≤ s.clock then endAuditPass 0 false (auditFired s) a s else s
      | _, _ => s)

/-- AUDIT_COMPRESS_TIMEOUT (R330): no compressor within 100 ms. -/
def execAuditCompressTimeout (s : State) : Host.Outcome State Fault Refusal :=
  .next (match s.audit.pass with
    | none => s
    | some a =>
      match a.result, a.waiting with
      | some r, some t => if s.sys.mode = .audit ∧ t + 80000000 ≤ s.clock then finishRaw a r s else s
      | _, _ => s)

/-- The end of the audit's own compression: the body as stored (R330); where the raw body could not be read back, it is copied (log 32). -/
def auditCompressed (body : Option (List Byte)) (s : State) : State :=
  match s.audit.pass with
  | none => s
  | some a => match a.result, body with
    | some r, some b => finishPass a r b true s
    | some r, none => finishRaw a r s
    | none, _ => s

/-! ## Camera frames -/

/-- The medium line of a frame against an O₀ (R314), the count taken on 32 bits. -/
def mediumLine (trig camDist : Nat) (o : Int) : Int := toSigned 32 (ofSigned 32 ((trig : Int) - o - camDist))

/-- Where a frame's medium line lies: a job line of a swath, or beyond a swath's last line, whose successor is given. -/
inductive Imaged where
  | line (n : Nat)
  | beyond (limit : Nat)
deriving DecidableEq, Repr

/-- The place of a trigger count in the newest of the swaths given whose O₀ it has passed, against the swath's limit. -/
def lineAmong (trig camDist : Nat) : Option Nat → List (Int × Nat) → Option Imaged
  | _, [] => none
  | limit, (o, first) :: rest =>
    let m := mediumLine trig camDist o
    if m < 0 then lineAmong trig camDist (some first) rest
    else match limit with
      | some n => some (if n ≤ first + m.toNat then .beyond n else .line (first + m.toNat))
      | none => some (.line (first + m.toNat))

/-- The limit of the newest swath's lines: its end as far as that is known, or its lines committed. -/
def newestLimit (s : State) : Option Nat := if s.swath.active then s.swath.ls.map (s.swath.first + ·) else some s.job.pacLine.toNat

/-- What a frame images (R314, R331). -/
def imagedLine (s : State) (trig : Nat) : Option Imaged := lineAmong trig s.job.camDist (newestLimit s) s.audit.origins

/-- S_q of one accepted line added to a window's sums (R331). -/
def addDark (white : Nat) (px : List Byte) (dark : List Nat) : List Nat :=
  (List.range px.length).map fun q => dark.getD q 0 + (white - (px.getD q 0).toNat)

/-- An accepted frame in in-line inspection: its line joins its window, and windows of earlier lines close; a frame beyond a swath's last line is later
than every line of that swath, and beyond the job's last swath than every line of a window begun in it (R331). -/
def inlineFrame (trig : Nat) (px : List Byte) (s : State) : State :=
  match imagedLine s trig with
  | none => s
  | some (.beyond n) =>
    let last := s.swath.last && newestLimit s == some n
    { s with audit := closeWindows (fun w => !w.closed && (decide (w.first + w.len ≤ n) || (last && decide (w.first < n)))) s.audit }
  | some (.line l) =>
    let white := pnat s.audit.params 11 0 240
    let a := closeWindows (fun w => !w.closed && decide (w.first + w.len ≤ l)) s.audit
    { s with audit := intoWindow l (fun w => { w with dark := addDark white px w.dark }) a }

/-- The measurement of a pass is over: its swath has ended, and a frame for medium line LS − 1 has been accepted (R326 step 4). -/
def passMeasured (a : AuditPass) (s : State) : Bool :=
  a.result.isNone && a.lastToken.isSome && !s.swath.active && a.frames.any fun f => f.1 + 1 == auditLines a.params

/-- A pass whose measurement is over ends (R326 step 5). -/
def endMeasured (s : State) : State :=
  match s.audit.pass with
  | some a => if s.sys.mode = .audit ∧ passMeasured a s = true then endAuditPass 0 false (auditFired s) a s else s
  | none => s

/-- An accepted frame in a pass (R320, R326): kept while its line is one of the swath's; the measurement may be over with it. -/
def passFrame (trig : Nat) (px : List Byte) (a : AuditPass) (s : State) : State :=
  match s.audit.origins with
  | [] => s
  | (o, _) :: _ =>
    let m := mediumLine trig (pnat a.params 15 0 0) o
    let a := if 0 ≤ m ∧ m < auditLines a.params then { a with frames := (m.toNat, px) :: a.frames } else a
    endMeasured { s with audit := { s.audit with pass := some a } }

/-- The rows of Table 11.2 that a frame may meet: the row, from 1, or none where it is accepted without a gap. -/
inductive FrameCheck where
  | framing | crc | format | dup | accepted (gap : Nat)
deriving DecidableEq, Repr

/-- Table 11.2 in row order. A run of bytes that is not PIXELS + 20 long fails its check value. -/
def checkFrame (s : State) (f : List Byte) : FrameCheck :=
  let n := uAt f 2 2
  let d := toSigned 32 (ofSigned 32 ((uAt f 4 4 : Int) - s.audit.trigLast.toNat))
  if uAt f 0 1 ≠ 0x10 then .framing
  else if f.length ≠ n + 20 ∨ (crc32c (f.take (16 + n))).toNat ≠ uAt f (16 + n) 4 then .crc
  else if n ≠ cameraPixels s ∨ 1 < uAt f 1 1 ∨ uAt f 12 4 ≠ 0 then .format
  else if d ≤ 0 then .dup
  else .accepted d.toNat

/-- A refused frame counted and, after a framing error, data discarded up to the next ALIGN set, or a gap before an accepted one (Table 11.2, FRAMES_LOST of Table 11.6). -/
def countFrame (c : FrameCheck) (s : State) : State :=
  let a := s.audit
  let lost := match c with | .accepted g => g - 1 | _ => 1
  let a := match c with
    | .framing => { a with framing := satAdd 32 a.framing 1, rxDiscard := true, rxAligned := 0 }
    | .crc => { a with crc := satAdd 32 a.crc 1 }
    | .format => { a with format := satAdd 32 a.format 1 }
    | .dup => { a with dup := satAdd 32 a.dup 1 }
    | .accepted g => { a with lost := satAdd 32 a.lost (g - 1), accepted := wrapAdd 32 a.accepted 1 }
  touchGroup 2 { s with audit := { a with pass := a.pass.map fun q => { q with framesLost := q.framesLost + lost } } }

/-- An uncorrectable word of the audit store (R333, R384): AUD_ECC; a pass ends without a result, its lines discarded and its axis stopped, and
inspection stops until `fn.reinit`. -/
def auditError (s : State) : State :=
  let s := raiseFault .audEcc auditSource 0xFFFF s
  let s := { s with audit := { s.audit with stopped := true } }
  match s.audit.pass with
  | some a =>
    let ax := pnat a.params 30 0 255
    let s := startDiscard false FClass.audEcc.code s
    failPass (if ax < 8 then abortHold ax s else s)
  | none => s

/-- A camera frame checked, counted and used (R312 to R314). -/
def takeFrame (f : List Byte) (s : State) : State :=
  let c := checkFrame s f
  let s := countFrame c s
  match c with
  | .accepted _ =>
    let n := uAt f 2 2; let trig := uAt f 4 4; let px := (f.drop 16).take n
    let s := cvuUnit 7 (fun _ => true) (f.take (16 + n)) { s with audit := { s.audit with trigLast := BitVec.ofNat 32 trig } }
    match s.audit.pass with
    | some a => passFrame trig px a s
    | none => inlineFrame trig px s
  | _ => s

/-- CAMERA_FRAME (R312): a frame whose bytes are given arrives; with `err`, a word of the audit store was found in error in its measurement (R380).
Frames that come while neither a pass nor an inspection runs are discarded. -/
def execCameraFrame (f : List Byte) (err : Option AuditErr) (s : State) : Host.Outcome State Fault Refusal :=
  .next (if !(auditPresent s && s.audit.laneUp != 0 && !s.audit.rxDiscard && !isStopped s auditSource && (passRuns s || inspecting s)) then s
    else
      let (bad, s) := match err with
        | some e => ownerFinds auditSource 6 (464 * 8192 + e.word.val) e.synd s
        | none => (false, s)
      if bad then auditError s else takeFrame f s)

/-! ## In-line verdicts (R332) -/

/-- The columns a head is judged on in a window: its own, with E_q of at least IL_MIN, and none that a lower port has: with S_q, E_q and the first and
last nozzle. -/
def judgedColumns (s : State) (w : InlineWin) (p : Nat) : List (Nat × Nat × Nat × Nat × Nat) :=
  let nozzles (h : Nat) : List (Nat × Nat) := (List.range (nozzlesOf s h)).filterMap fun n => (cameraColumn s h n).map fun q => (q, n)
  let mine := nozzles p
  let lower := ((portsOn s).filter (· < p)).flatMap nozzles
  (List.range (cameraPixels s)).filterMap fun q =>
    let e := SMap.get 0 w.fires q
    let ns := (mine.filter fun x => x.1 == q).map (·.2)
    match ns.head?, ns.getLast? with
    | some a, some b => if pnat s.audit.params 10 0 64 ≤ e ∧ !lower.any (fun x => x.1 == q) then some (q, w.dark.getD q 0, e, a, b) else none
    | _, _ => none

/-- S/E of one pair is below that of another. -/
def ratioLt (a b : Nat × Nat) : Bool := decide (a.1 * b.2 < b.1 * a.2)

/-- The lower median of ratios. -/
def medianRatio (l : List (Nat × Nat)) : Nat × Nat :=
  let h := (l.length - 1) / 2
  (l.find? fun x => decide ((l.filter fun y => ratioLt y x).length ≤ h) && decide (h < (l.filter fun y => !ratioLt x y).length)).getD (0, 1)

/-- r_q (R332); where the median is 0 the quotient is not stated, and it is a free value (log 32). -/
def streakRatio (free : Nat) (m : Nat × Nat) (s e : Nat) : Nat := if m.1 = 0 then Config.freeNat free else 128 * s * m.2 / (e * m.1)

/-- The streaks of a head: r_q and the nozzles of each column below STREAK_T. -/
def headStreaks (s : State) (w : InlineWin) (p : Nat) : List (Nat × Nat × Nat) :=
  let cs := judgedColumns s w p
  let m := medianRatio (cs.map fun c => (c.2.1, c.2.2.1))
  cs.filterMap fun (q, dark, e, a, b) =>
    let r := streakRatio (s.free + p * 32768 + q) m dark e
    if r < pnat s.audit.params 12 0 51 then some (r, a, b) else none

/-- `ev.audit_streak` (Table 19.5). -/
def evStreak (p : Nat) (w : InlineWin) (k : Nat) (x : Nat × Nat × Nat) (s : State) : State :=
  emit { code := 0x0C03, source := auditSource
         payload := leBytes 1 p ++ leBytes 1 x.1 ++ leBytes 2 x.2.1 ++ leBytes 2 x.2.2 ++ zeros 2 ++ leBytes 4 w.first ++ leBytes 4 k } s

/-- A closed window judged: its streaks by port and column, of which the first eight are reported and all are counted (R332). -/
def judgeWindow (w : InlineWin) (s : State) : State :=
  let all := (portsOn s).flatMap fun p => (headStreaks s w p).map fun x => (p, x)
  let s := (all.take 8).zipIdx.foldl (fun s e => evStreak e.1.1 w (e.2 + 1) e.1.2 s) s
  { s with audit := { s.audit with streaks := all.length }, free := s.free + 16 * 32768 }

/-- INLINE_WINDOW_CLOSE (R331): the oldest window that a later frame has closed, or whose last line was committed 1 s ago, is judged. -/
def execInlineWindowClose (s : State) : Host.Outcome State Fault Refusal :=
  let due (w : InlineWin) : Bool := w.closed || w.lastCommit.any fun t => decide (t + 800000000 ≤ s.clock)
  .next (match s.audit.windows.find? due with
    | none => s
    | some w =>
      let s := { s with audit := { s.audit with windows := s.audit.windows.erase w, winDone := max s.audit.winDone (w.first + w.len) } }
      if s.audit.stopped then s else judgeWindow w s)

end Sys2Proof.Machine
end

