-- ==== Sys2Proof/Machine/Requests.lean ====
section
/-! DEFINITION. The ends of memory-to-memory requests (R150): those of host software, the audit's result (R330), and the life export that waits for a
compressor (R497). -/
namespace Sys2Proof.Machine

/-! ## The life export -/

/-- The size of the life-memory image. -/
def lifeBytes : Nat := 1048576

/-- A compressed export takes a free compressor once its flush has ended (R497), with the settings of Table 5.8 at their defaults. -/
def startExport (s : State) : State :=
  match s.life.export_, deflateUnit s with
  | some x, some u =>
    if !x.compress || s.life.flush.isSome || s.codec.requests.any (fun r => r.owner = .lifeExport) then s
    else
      let q : CodecReq := { owner := .lifeExport, unit := u, deflate := true, ctx := 0, inAddr := 0, inLen := lifeBytes, outAddr := x.addr
                            outCap := x.cap, limit := 0, entry := 0, start := true, final := true, tag := 0 }
      bgStart (.codec u) { s with codec := { s.codec with requests := s.codec.requests ++ [q] } }
  | _, _ => s

/-- What waits for a compressor takes one that has become free. -/
def startWaiting (s : State) : State := startExport (startAuditDeflate (takeUpAll s))

/-! ## The ends of requests -/

/-- The audit's own compression ends with a body that inflates to the result (R330). -/
def endAuditDeflate (r : CodecReq) (made : List Byte) (s : State) : State :=
  let ((bs, bad), s1) := readInput r s
  if bad ≠ 0 then auditCompressed none (dropRequest r s1)
  else if !compressorMay r [] bs made [] made.length then s
  else auditCompressed (some made) (dramWrite 6 r.outAddr made (dropRequest r s1))

/-- CODEC_REQUEST_END (R150): the request on a unit ends. For a compressor the operands are what it has chosen to make: the input it has used (all of
it unless it is full), the whole bytes, the pending bits, and the next whole code where it stopped for want of output space. -/
def execCodecRequestEnd (unit used : Nat) (made : List Byte) (pend next : List Bool) (s : State) : Host.Outcome State Fault Refusal :=
  match s.codec.requests.find? fun r => r.unit == unit with
  | none => .next s
  | some r =>
    if isStopped s (if r.deflate then 0x12 else codecSource) then .next s
    else match r.owner with
    | .host => .next (startWaiting (if r.deflate then endDeflate r used made pend next s else endInflate r r.outCap false s))
    | .audit => .next (startWaiting (endAuditDeflate r made s))
    | .lifeExport => .next s

end Sys2Proof.Machine
end

