-- ==== Sys2Proof/Machine/Life.lean ====
section
/-! DEFINITION. The life memory: its commands (R488, R497, R498), what a flush does (R485, R489, R490), damage and spare blocks (R492 to R495). -/
namespace Sys2Proof.Machine

/-! ## Damage and spare blocks -/

/-- A block is remapped to the lowest free spare, a spare that held it being retired; with none free, SPARES_EXHAUSTED is set and LIF_FAIL raised, after
entry into CONFIGURE where Verup is starting (R492, R493). Block 0 is never remapped (R481). Causes: 1 verify, 2 uncorrectable, 3 correctable count. -/
def remapBlock (b cause : Nat) (s : State) : State :=
  let h := s.life.hdr
  let place (v : Nat) : Option Nat := (List.range 16).find? fun i => nthOr h.remap i 0 == v
  if b = 0 ∨ !lifeWritable s then s
  else match place 0xFFFF with
    | some i =>
      let old := place b
      let r := match old with | some j => updAt h.remap j fun _ => 0xFFFE | none => h.remap
      let s := setHeader { h with remap := updAt r i fun _ => b } s
      emit { code := 0x1602, source := lifeSource, status := cause
             payload := leBytes 2 b ++ leBytes 1 i ++ leBytes 1 (old.getD 0xFF) ++ zeros 12 }
        { s with life := { s.life with blockCe := SMap.put 0 s.life.blockCe b 0, nv := { s.life.nv with weak := s.life.nv.weak.filter (· ≠ b) } } }
    | none =>
      let s := setHeader { h with sparesExhausted := true } s
      if s.sys.mode = .boot then { s with life := { s.life with noSpare := true } } else raiseFault .lifFail lifeSource 0xFFFF s

/-- The blocks whose writes have failed their compare are remapped (R492). -/
def remapDue (s : State) : State := s.life.due.foldl (fun s b => remapBlock b 1 s) { s with life := { s.life with due := [] } }

/-- The record that holds a logical offset outside the fire counters: its offset, its length, and the offset of its other copy (Table 17.1). -/
def recordAt (off : Nat) : Nat × Nat × Option Nat :=
  if off < 0x1000 then (off / 0x800 * 0x800, 0x800, some (0x800 - off / 0x800 * 0x800))
  else if off < 0x1080 then (0x1000 + (off - 0x1000) / 64 * 64, 64, some (0x1040 - (off - 0x1000) / 64 * 64))
  else if off < 0x2000 then (off / 16 * 16, 16, none)
  else if off < 0x3000 then (off / 0x800 * 0x800, 0x800, some (0x5000 - 0x800 - off / 0x800 * 0x800))
  else if off < 0x5000 then (off / 256 * 256, 256, none)
  else if off < 0x15000 then (off / 32 * 32, 32, none)
  else (off / 8 * 8, 8, none)

/-- A copy of a two-copy record, by its offset, is valid (R481). -/
def copyValid (s : State) (off : Nat) : Bool :=
  if off < 0x1000 then headerGood s (off / 0x800)
  else if off < 0x2000 then calendarGood s ((off - 0x1000) / 64)
  else repairGood s ((off - 0x2000) / 0x800)

/-- A record that cannot be read: restored from its valid copy, else rewritten as zero and named (R495). -/
def restoreRecord (off : Nat) (s : State) : State :=
  let (a, n, other) := recordAt off
  match other.filter (copyValid s) with
  | some c => mramPut a (mramBytes s c n) s
  | none => evLifeDamage 3 (if 0x3000 ≤ off ∧ off < 0x4000 then (off - 0x3000) / 256 else 0) 0 0 (off / 4096) (mramPut a (zeros n) s)

/-- A counter group that cannot be read counts anew from zero; COUNTS_LOST is set (R495). -/
def loseGroup (off : Nat) (s : State) : State :=
  let p := (off - 0x15000) / 0xC000
  let g := (off - 0x15000) % 0xC000 / 24
  let s := mramPut (groupOffset p (4 * g)) (zeros 24) s
  let s := if s.life.hdr.countsLost then s else setHeader { s.life.hdr with countsLost := true } s
  evLifeDamage 2 p (4 * g) 4 (off / 4096) s

/-- A word of the MRAM read where it does not agree with its check bits (R380, R384, R492, R494, R495): a correctable one is corrected and counted, and
its block remapped at the eighth since reset; one that cannot be read is counted, its block remapped, and its record restored or begun anew. What would
write the MRAM is left undone while that may not be written (R482, R493), and the word stays as it is. -/
def meetWord (s : State) (w : Nat) : State :=
  let y := SMap.get 0 s.life.nv.synd w
  let off := 8 * w; let b := w / 512
  match classify y with
  | .clean => s
  | .dataBit _ | .checkBit =>
    let n := SMap.get 0 s.life.blockCe b + 1
    let s := touchGroup 9 (countCe 7 w y 6 { s with life := { s.life with blockCe := SMap.put 0 s.life.blockCe b n, mramCe := satAdd 32 s.life.mramCe 1 } })
    if !lifeWritable s then s
    else
      let s := { s with life := { s.life with nv := { s.life.nv with synd := SMap.put 0 s.life.nv.synd w 0 } } }
      if 8 ≤ n then remapBlock b 3 s else s
  | _ =>
    let s := remapBlock b 2 (countUe 7 w y 6 0 0 false s)
    if !lifeWritable s then s else if 0x15000 ≤ off ∧ off < 0xD5000 then loseGroup off s else restoreRecord off s

/-- The words of a range of the logical map are read. -/
def meetWords (off n : Nat) (s : State) : State :=
  ((s.life.nv.synd.map (·.1)).filter fun w => decide (off < 8 * w + 8) && decide (8 * w < off + n)).foldl meetWord s

/-- What has befallen the life memory stands in it from now on, for the first read or write that meets it. -/
def damage (s : State) (f : LifeFinding) : State :=
  match f with
  | .accumulator w y => { s with mem := { s.mem with ondie := SMap.put 0 s.mem.ondie (accWord w.val) (SMap.get 0 s.mem.ondie (accWord w.val) ^^^ y) } }
  | .word w y => { s with life := { s.life with nv := { s.life.nv with synd := SMap.put 0 s.life.nv.synd w.val (SMap.get 0 s.life.nv.synd w.val ^^^ y) } } }
  | .verify b => { s with life := { s.life with nv := { s.life.nv with weak := b.val :: s.life.nv.weak.filter (· ≠ b.val) } } }

/-- Bytes of the logical map as stored, for a reader: a byte of a word that cannot be read, and that could not be rewritten, is a free value (log 3). -/
def storedBytes (off n : Nat) (s : State) : List Byte × State :=
  if readable s off n then (mramBytes s off n, s)
  else ((List.range n).map fun i => if readable s (off + i) 1 then Mem.read s.life.nv.mram (off + i) else Config.freeByte (s.free + i),
        { s with free := s.free + n })

/-! ## Flush -/

/-- The fault-log and mode-history entries that wait are written (R489 step 1). -/
def writePending (s : State) : State :=
  let s := s.life.pendingLog.foldl (fun s b => writeLog b s) s
  let s := s.life.pendingModes.foldl (fun s b => writeModeEntry b s) s
  { s with life := { s.life with pendingLog := [], pendingModes := [] } }

/-- The stored total of a nozzle (R485); a group that cannot be read counts as zero (R495). -/
def storedTotal (s : State) (p n : Nat) : Nat :=
  if readable s (groupOffset p n) 24 then counterTotal (mramBytes s (counterOffset p n) 6) else 0

/-- A counter group moved, as one operation (R485, R489 step 2): its record is read, its four accumulators are added to it and zeroed. -/
def moveGroup (s : State) (g : Nat) : State :=
  let p := g / 2048; let n := 4 * (g % 2048)
  let s := meetWords (groupOffset p n) 24 (meetAccs (fun w => w / 2 == g) s)
  let bs := (List.range 4).flatMap fun i => counterBytes (storedTotal s p (n + i) + SMap.get 0 s.life.acc (accKey p (n + i)))
  let s := if lifeWritable s then mramPut (groupOffset p n) bs { s with life := { s.life with acc := SMap.clear s.life.acc (4 * g) (4 * g + 4) } } else s
  { s with life := { s.life with flush := s.life.flush.map fun f => { f with next := g + 1, groups := f.groups + 1 } } }

/-- The groups with an accumulator that is not zero and that a flush has still to move, in ascending order (R489, R490). -/
def groupsLeft (s : State) : List Nat :=
  match s.life.flush with
  | some f => ((s.life.acc.map fun e => e.1 / 4).filter (f.next ≤ ·)).eraseDups
  | none => []

/-- A running flush goes on by a clock: what waits is written first, then one group a clock is moved in ascending order, so that a fire counted in a
group already moved stays for the next flush (R489, R490; DESIGN CHOICE for the pace, log 58). -/
def flushStep (s : State) : State :=
  if s.life.flush.isSome && flushMayEnd s && lifeWritable s then
    let s := writePending s
    match groupsLeft s with
    | g :: _ => moveGroup s g
    | [] => s
  else s

/-- The head histories with their partial minutes, and the lane histories (R486, R489 step 3). -/
def writeHistories (s : State) : State :=
  let s := (List.range 16).foldl (fun s p => mramPut (0x3000 + 256 * p) (withCv (headHistBody (nthOr s.life.heads p {}))) s) s
  let s := (List.range 14).foldl (fun s i => mramPut (0x4000 + 256 * i) (withCv (laneHistBody i (nthOr s.life.lanes i {}))) s) s
  { s with life := { s.life with nv := { s.life.nv with
    firingSec := s.life.heads.map fun h => h.firingTicks / 800000000, presentSec := s.life.heads.map fun h => h.presentTicks / 800000000 } } }

/-- The repair map, where it has changed while the MRAM could not be written. -/
def writeWaitingRepairs (s : State) : State :=
  if s.life.repairsDirty then writeRepairs s.life.repairs { s with life := { s.life with repairsDirty := false } } else s

/-- The steps of a flush that are left (R489); they end where a block can no longer be remapped, as the MRAM is written no more (R493). -/
def flushSteps (clean : Bool) (s : State) : State :=
  let s := writeWaitingRepairs (writePending s)
  let s := (groupsLeft s).foldl moveGroup s
  if !lifeWritable s then s
  else
    let s := writeHistories s
    writeCalendar { s.life.cal with clean := clean, lastTb := s.time.tb.toNat } s

/-- A flush ends: what has befallen the life memory, the steps left where the MRAM may still be written, and `ev.life_flush` (R488 to R490). -/
def endFlush (findings : List LifeFinding) (s : State) : State :=
  match s.life.flush with
  | none => s
  | some f =>
    let s := findings.foldl damage (countTime s)
    let s := if lifeWritable s then flushSteps f.clean s else s
    let groups := match s.life.flush with | some f => f.groups | none => 0
    emit { code := 0x1603, source := lifeSource, keep := true
           payload := leBytes 1 f.trigger ++ zeros 3 ++ leBytes 4 groups ++ leBytes 4 ((s.clock - f.startAt) / 800) ++ zeros 4 }
      (bgEnd .flush { s with life := { s.life with flush := none } })

/-- FLUSH_END (R489). -/
def execFlushEnd (findings : List LifeFinding) (s : State) : Host.Outcome State Fault Refusal :=
  .next (if flushMayEnd s then startExport (endFlush findings s) else s)

/-- WB_PERIOD has passed since it began (R488). -/
def writebackDue (s : State) : Bool := verupRuns s && decide (s.life.wbAt + 800000000 * pnat s.life.params 1 0 60 ≤ s.clock)

/-- WRITEBACK_TIMER (R488): WB_PERIOD has passed, and the next one begins. -/
def execWritebackTimer (s : State) : Host.Outcome State Fault Refusal :=
  .next (if writebackDue s then startFlush 1 { s with life := { s.life with wbAt := s.clock } } else s)

/-! ## Commands -/

/-- `life.config` (Table 18.5). -/
def lifeConfig (p : List Byte) (s : State) : Reply × State :=
  if listTarget p 0 ≠ 0 then refuse .badArg 0 s
  else match judgeList [⟨1, 1, 1, 3600, some 60⟩] noRelation s.life.params (listItems p 0) with
    | .error d => refuse .badArg d s
    | .ok m => okWith [] { s with life := { s.life with params := m } }

/-- LIFE_CONFIG (R488). -/
def execLifeConfig (s : State) : Host.Outcome State Fault Refusal := .next (runCommand 0x1601 lifeConfig s)

/-- `life.read` (R497): the words are read first, with what that brings (R492). -/
def lifeRead (p : List Byte) (s : State) : Reply × State :=
  let off := uAt p 0 4; let n := uAt p 4 2
  if lifeBytes ≤ off then refuse .badArg 0 s
  else if n = 0 ∨ 1008 < n ∨ lifeBytes < off + n then refuse .badArg 4 s
  else let (bs, s) := storedBytes off n (meetWords off n s); okWith bs s

/-- LIFE_READ (R497). -/
def execLifeRead (s : State) : Host.Outcome State Fault Refusal := .next (runCommand 0x1602 lifeRead s)

/-- The live total of a nozzle, saturating as its record does (R485, R497). -/
def liveTotal (s : State) (p n : Nat) : Nat := min (storedTotal s p n + SMap.get 0 s.life.acc (accKey p n)) (2 ^ 48 - 1)

/-- `life.counters` (R497). -/
def lifeCounters (p : List Byte) (s : State) : Reply × State :=
  let port := uAt p 0 1; let first := uAt p 2 2; let n := uAt p 4 2
  if 16 ≤ port then refuse .badArg 0 s
  else if 8192 ≤ first then refuse .badArg 2 s
  else if n = 0 ∨ 168 < n ∨ 8192 < first + n then refuse .badArg 4 s
  else
    let s := meetAccs (fun w => decide (accKey port first / 2 ≤ w) && decide (w ≤ accKey port (first + n - 1) / 2))
      (meetWords (groupOffset port first) (groupOffset port (first + n - 1) + 24 - groupOffset port first) s)
    okWith ((List.range n).flatMap fun i => leBytes 6 (liveTotal s port (first + i))) s

/-- LIFE_COUNTERS (R497). -/
def execLifeCounters (s : State) : Host.Outcome State Fault Refusal := .next (runCommand 0x1603 lifeCounters s)

/-- The status that refuses a write: BUSY after PWR_FAIL_N has fallen (R490), BAD_STATE while the MRAM may not be written (R482, R493, log 33). -/
def writeRefusal (s : State) : Option Status := if !s.sys.pwrFailN then some .busy else if !lifeWritable s then some .badState else none

/-- `life.write` (R490, R497): the host area only. Words that it shares with others are read first (R492). -/
def lifeWrite (p : List Byte) (s : State) : Reply × State :=
  let off := uAt p 0 4; let n := uAt p 4 2
  if off < 0xD5000 ∨ 0xF5000 < off + n then refuse .badArg 0 s
  else match writeRefusal s with
    | some st => refuse st 0 s
    | none =>
      let t := meetWords off n s
      if lifeWritable t then okWith [] (mramPut off ((p.drop 8).take n) t) else refuse .badState 0 t

/-- LIFE_WRITE (R497). -/
def execLifeWrite (s : State) : Host.Outcome State Fault Refusal := .next (runCommand 0x1604 lifeWrite s)

/-- `life.flush` (R488 to R490). -/
def lifeFlush (_ : List Byte) (s : State) : Reply × State := okWith [] (startFlush 2 s)

/-- LIFE_FLUSH (R488). -/
def execLifeFlush (s : State) : Host.Outcome State Fault Refusal := .next (runCommand 0x1605 lifeFlush s)

/-- A port's counters, stored and accumulated, and its head history become zero (R497). -/
def clearPort (port : Nat) (s : State) : State :=
  let s := countTime s
  let s := mramZero (groupOffset port 0) (groupOffset (port + 1) 0) s
  let s := { s with life := { s.life with
    acc := SMap.clear s.life.acc (accKey port 0) (accKey (port + 1) 0)
    nv := { s.life.nv with
      firingSec := updAt s.life.nv.firingSec port fun _ => 0, presentSec := updAt s.life.nv.presentSec port fun _ => 0 } } }
  setHeadHist port (fun _ => {}) s

/-- `life.clear` (R496, R497). A removed entry leaves its index free. -/
def lifeClear (p : List Byte) (s : State) : Reply × State :=
  let port := uAt p 1 1; let i := uAt p 2 2
  let e := s.life.repairs.getD i []
  match uAt p 0 1 with
  | 0 =>
    if 16 ≤ port then refuse .badArg 1 s
    else match writeRefusal s with
      | some st => refuse st 0 s
      | none => okWith [] (clearPort port s)
  | 1 =>
    if s.life.repairs.length ≤ i ∨ uAt e 0 1 ≠ 3 ∨ (uAt e 1 1 ≠ 1 ∧ uAt e 1 1 ≠ 2) then refuse .badArg 2 s
    else match writeRefusal s with
      | some st => refuse st 0 s
      | none => okWith [] (putRepairs (s.life.repairs.set i (zeros 8)) s)
  | _ => refuse .badArg 0 s

/-- LIFE_CLEAR (R497). -/
def execLifeClear (s : State) : Host.Outcome State Fault Refusal := .next (runCommand 0x1606 lifeClear s)

/-- `life.format` (R498): both header copies afresh, and every other block but the repair map zero; what is kept on die of them starts anew. -/
def lifeFormat (p : List Byte) (s : State) : Reply × State :=
  if uAt p 0 2 ≠ 0x4C1F then refuse .badArg 0 s
  else if !s.sys.pwrFailN then refuse .busy 0 s
  else
    let s := countTime s
    let h : LifeHeader := { seq := 1, formatTb := s.time.tb.toNat, remap := s.life.hdr.remap.map fun v => if v = 0xFFFE then 0xFFFE else 0xFFFF }
    let s := mramZero 0x3000 lifeBytes (mramZero 0 0x2000 s)
    let s := { s with life := { s.life with
      headerOk := true, hdr := h, cal := {}, heads := Vector.replicate 16 {}, logSeq := 0, modeSeq := 0
      lanes := s.life.lanes.map fun l => { state := l.state, lastRate := l.lastRate }
      nv := { s.life.nv with firingSec := Vector.replicate 16 0, presentSec := Vector.replicate 16 0 } } }
    okWith [] (mramPut 0 (withCv (headerBody { h with seq := 0 }) ++ withCv (headerBody h)) s)

/-- LIFE_FORMAT (R498). -/
def execLifeFormat (s : State) : Host.Outcome State Fault Refusal := .next (runCommand 0x1608 lifeFormat s)

/-! ## Export -/

/-- `life.export` (R497): a flush, then the image. -/
def lifeExport (p : List Byte) (s : State) : Reply × State :=
  let a := uAt p 0 8; let cap := uAt p 8 8; let z := uAt p 16 1
  if 1 < z then refuse .badArg 16 s
  else if uninitRange s a cap then refuse .uninit 0 s
  else if z = 0 ∧ cap < lifeBytes then refuse .noSpace 0 s
  else if s.life.export_.isSome then refuse .busy 0 s
  else
    let s := bgStart .lifeExport { s with life := { s.life with export_ := some { addr := a, cap := cap, compress := z == 1 } } }
    okWith [] (startExport (startFlush 2 s))

/-- LIFE_EXPORT (R497). -/
def execLifeExport (s : State) : Host.Outcome State Fault Refusal := .next (runCommand 0x1607 lifeExport s)

/-- The bytes of an export in its buffer, and `ev.life_export` (R497). -/
def finishExport (st : Status) (compressed : Bool) (x : LifeExport) (bs : List Byte) (s : State) : State :=
  emit { code := 0x1604, source := lifeSource, status := st.code, keep := true
         payload := leBytes 4 bs.length ++ leBytes 4 (crc32c bs).toNat ++ leBytes 1 (bitAt compressed 0) ++ zeros 7 }
    (bgEnd .lifeExport (dramWrite 6 x.addr bs { s with life := { s.life with export_ := none } }))

/-- LIFE_EXPORT_DONE (R497): the flush has ended and the image stands in its buffer. With COMPRESS the operands are what the compressor has chosen to
make, as for CODEC_REQUEST_END; where it is full the status is RESUMABLE. -/
def execLifeExportDone (used : Nat) (made : List Byte) (pend next : List Bool) (s : State) : Host.Outcome State Fault Refusal :=
  .next (match s.life.export_ with
    | none => s
    | some x =>
      if s.life.flush.isSome then s
      else
        let (image, t) := storedBytes 0 lifeBytes (meetWords 0 lifeBytes s)
        let full := !next.isEmpty
        if !x.compress then finishExport .ok false x image t
        else match s.codec.requests.find? fun r => r.owner = .lifeExport with
          | none => s
          | some r =>
            let ins := if full then image.take used else image
            if !compressorMay r next ins made pend made.length then s
            else startWaiting (finishExport (if full then .resumable else .ok) true x made (dropRequest r t)))

end Sys2Proof.Machine
end

