-- ==== Sys2Proof/Machine/Time.lean ====
section
/-! DEFINITION. The commands and happenings of the timebase and the scheduler: `time.config` to `time.read` (R456, R458, R466 to R470), occurrences
falling due (R467), TM_OUT and TM_PPS pulses (R459, R466), and the exchange of time between twins (R475, R476). -/
namespace Sys2Proof.Machine

/-! ## `time.config` -/

/-- Table 16.1 by the IDs of Table 18.3; STEP_T in ns. CLOCK_ID has no fixed default: it follows the MAC address. -/
def timeSpecs : List PSpec :=
  [ ⟨1, 1, 0, 1, some 0⟩, ⟨2, 1, 10, 500, some 100⟩, ⟨3, 1, 1000, 1000000000, some 100000⟩, ⟨4, 1, 10, 10000, some 100⟩, ⟨5, 1, 0, 1, some 0⟩,
    ⟨6, 1, 0, 127, some 0⟩, ⟨7, 1, 2, 255, some 3⟩, ⟨8, 1, -(2 ^ 63), 2 ^ 63 - 1, none⟩, ⟨9, 1, 0, 2 ^ 32 - 1, some 0⟩, ⟨10, 1, 0, 10000, some 0⟩,
    ⟨11, 1, 0, 10000, some 0⟩, ⟨12, 1, 0, 1, some 0⟩ ]

/-- IP_ADDR 0.0.0.0 is refused at PTP start with TRANSPORT 1. -/
def timeRelation (m : ParamSet) : Option (List Nat) := if pon m 1 0 false && pon m 5 0 false && pnat m 9 0 0 == 0 then some [1, 5, 9] else none

/-- A PTP slave with nothing of its past but its counter (SOURCE set to FREE). -/
def idlePtp (q : Ptp) : Ptp := { ignored := q.ignored, dreqSeq := q.dreqSeq, dreqNext := q.dreqNext }

/-- `time.config` (R456): each parameter takes effect at once; PTP runs while SOURCE is PTP. -/
def timeConfig (p : List Byte) (s : State) : Reply × State :=
  if listTarget p 0 ≠ 0 then refuse .badArg 0 s
  else match judgeList timeSpecs timeRelation s.time.params (listItems p 0) with
    | .error d => refuse .badArg d s
    | .ok m =>
      let s := { s with time := { s.time with params := m } }
      okWith [] (if timeSourcePtp s then s else setPtp idlePtp s)

/-- TIME_CONFIG (R456). -/
def execTimeConfig (s : State) : Host.Outcome State Fault Refusal := .next (runCommand 0x1301 timeConfig s)

/-! ## `time.set` and `time.adjust` -/

/-- Host software may change TB (R458). -/
def hostSteers (s : State) : Bool := discipline s == .free || discipline s == .holdover

/-- `time.set` (R457, R458). -/
def timeSet (p : List Byte) (s : State) : Reply × State :=
  if !hostSteers s || !stepAllowed s then refuse .badState 0 s else okWith [] (stepTb 2 (uAt p 0 8) s)

/-- TIME_SET (R458). -/
def execTimeSet (s : State) : Host.Outcome State Fault Refusal := .next (runCommand 0x1302 timeSet s)

/-- `time.adjust` (R457, R458): STEP, SLEW, RATE. -/
def timeAdjust (p : List Byte) (s : State) : Reply × State :=
  let v := iAt p 8 8
  let out := decide (1000000000 < v.natAbs)
  match uAt p 0 1 with
  | 0 => if !hostSteers s || !stepAllowed s then refuse .badState 0 s else okWith [] (stepTb 3 (ofSigned 64 (s.time.tb.toNat + v)) s)
  | 1 => if out then refuse .badArg 8 s else if !hostSteers s then refuse .badState 0 s else okWith [] (startSlew (v * 65536) s)
  | 2 => if out then refuse .badArg 8 s else if !hostSteers s then refuse .badState 0 s else okWith [] { s with time := { s.time with r := v } }
  | _ => refuse .badArg 0 s

/-- TIME_ADJUST (R458). -/
def execTimeAdjust (s : State) : Host.Outcome State Fault Refusal := .next (runCommand 0x1303 timeAdjust s)

/-! ## The scheduler's commands -/

/-- The slot a `time.sched` payload programs (Table 18.12). -/
def slotOf (p : List Byte) : Slot :=
  { armed := true, kind := uAt p 1 1, notify := uAt p 2 1 == 1, out := uAt p 3 1, op := uAt p 4 1, t := uAt p 8 8, lateWin := uAt p 16 4
    count := uAt p 20 4, period := uAt p 24 8, width := uAt p 32 4
    left := if uAt p 24 8 = 0 then some 1 else if uAt p 20 4 = 0 then none else some (uAt p 20 4) }

/-- The first field of a `time.sched` payload that is out of range (Table 16.4, R468), by its offset. -/
def schedRange (p : List Byte) (s : State) : Option Nat :=
  let x := slotOf p
  let output := x.kind == 2
  if 63 < uAt p 0 1 ∧ uAt p 0 1 ≠ 0xFF then some 0
  else if x.kind = 0 ∨ 6 < x.kind then some 1
  else if 1 < uAt p 2 1 then some 2
  else if (if output then decide (3 < x.out) else x.out != 0) then some 3
  else if (if output then decide (3 < x.op) else x.op != 0) then some 4
  else if 2 ^ 39 ≤ tbDiff x.t s.time.tb.toNat then some 8
  else if x.period ≠ 0 ∧ (3 < x.kind ∨ x.period < 1000 ∨ 500000000000 < x.period) then some 24
  else if (if output then (x.width != 0 || x.op == 3) && (decide (x.width < 5) || decide (1000000000 < x.width)) else x.width != 0) then some 32
  else none

/-- The slot named, or for 0xFF the lowest free one. -/
def schedSlot (n : Nat) (s : State) : Except Status Nat :=
  if n = 0xFF then
    match (List.range 64).find? fun i => !(nthOr s.time.slots i {}).armed with
    | some i => .ok i
    | none => .error .noSpace
  else if (nthOr s.time.slots n {}).armed then .error .busy else .ok n

/-- `time.sched` (R466, R468, R470). -/
def timeSched (p : List Byte) (s : State) : Reply × State :=
  let x := slotOf p
  match schedRange p s with
  | some d => refuse .badArg d s
  | none =>
    if s.sys.mode = .follow ∧ firesOrJob x.kind then refuse .badState 0 s
    else match schedSlot (uAt p 0 1) s with
      | .error st => refuse st 0 s
      | .ok i =>
        let d := tbDiff x.t s.time.tb.toNat
        let reply (st : Status) (late : Nat) : Reply := { status := st, payload := leBytes 1 i ++ zeros 3 ++ leBytes 4 late }
        if 0 ≤ d then (reply .ok 0, setSlot i (fun _ => if d = 0 then { x with due := some s.clock } else x) s)
        else if -d ≤ x.lateWin then (reply .late d.natAbs, runOccurrence i (some d.natAbs) (setSlot i (fun _ => x) s))
        else refuse .expired 0 s

/-- TIME_SCHED (R468). -/
def execTimeSched (s : State) : Host.Outcome State Fault Refusal := .next (runCommand 0x1304 timeSched s)

/-- `time.cancel` (R470). -/
def timeCancel (p : List Byte) (s : State) : Reply × State :=
  let i := uAt p 0 1
  let x := nthOr s.time.slots i {}
  if 63 < i then refuse .badArg 0 s
  else if !x.armed then refuse .badState 0 s
  else okWith (leBytes 4 x.run) (evSched i x Status.cancelled.code 0 0 (setSlot i (fun x => { x with armed := false }) s))

/-- TIME_CANCEL (R470). -/
def execTimeCancel (s : State) : Host.Outcome State Fault Refusal := .next (runCommand 0x1305 timeCancel s)

/-- A `time.read` record (R521). -/
def slotRecord (x : Slot) : List Byte :=
  leBytes 1 (bitAt x.armed 0) ++ leBytes 1 x.kind ++ leBytes 1 (bitAt x.notify 0) ++ leBytes 1 x.out ++ leBytes 1 x.op ++ zeros 3 ++ leBytes 8 x.t ++
    leBytes 4 x.lateWin ++ leBytes 4 x.count ++ leBytes 8 x.period ++ leBytes 4 x.run ++ leBytes 4 x.expired ++ leBytes 4 x.dropped ++ leBytes 4 x.width

/-- `time.read` (R470, R521). -/
def timeRead (p : List Byte) (s : State) : Reply × State :=
  let first := uAt p 0 1; let n := uAt p 1 1
  if 63 < first then refuse .badArg 0 s
  else if n = 0 ∨ 16 < n ∨ 64 < first + n then refuse .badArg 1 s
  else okWith ((List.range n).flatMap fun i => slotRecord (nthOr s.time.slots (first + i) {})) s

/-- TIME_READ (R470). -/
def execTimeRead (s : State) : Host.Outcome State Fault Refusal := .next (runCommand 0x1306 timeRead s)

/-! ## Occurrences and pulses -/

/-- Verup may take a job action: it executes no command, and none that waits rang before the action fell due (R469). -/
def jobActionMay (s : State) (x : Slot) : Bool :=
  verupRuns s && s.mbx.current.isNone &&
    match pickPending s.mbx.order s with
    | some n => decide (x.due.getD 0 ≤ 2 * s.mbx.box[n].rungAt)
    | none => true

/-- The due slot to run next: the one that fell due in the earliest clock, and among those of one clock the lowest number (R469). -/
def dueSlot (s : State) : Option Nat :=
  let able (i : Nat) : Bool :=
    let x := nthOr s.time.slots i {}
    slotDue s x && (decide (x.kind < 4) || jobActionMay s x)
  let ds := (List.range 64).filter able
  ds.find? fun i => ds.all fun j => decide ((nthOr s.time.slots i {}).due.getD 0 ≤ (nthOr s.time.slots j {}).due.getD 0)

/-- SCHEDULED_OCCURRENCE (R467). -/
def execScheduledOccurrence (s : State) : Host.Outcome State Fault Refusal :=
  .next (match dueSlot s with
    | some i => runOccurrence i none s
    | none => s)

/-- OUTPUT_PULSE_END (R466): WIDTH has passed. -/
def execOutputPulseEnd (n : Fin 4) (s : State) : Host.Outcome State Fault Refusal :=
  .next (match s.time.pulseEnd[n] with
    | some t =>
      if t ≤ s.clock then { s with time := { s.time with outs := s.time.outs.set n false, pulseEnd := s.time.pulseEnd.set n none } } else s
    | none => s)

/-- PPS_PULSE (R459): TB is a whole multiple of 10⁹ ns, or has just passed one, and PPS is set. -/
def execPpsPulse (s : State) : Host.Outcome State Fault Refusal :=
  .next (if pon s.time.params 12 0 false ∧ outputsDriven s ∧ !isStopped s 0x63 ∧ s.time.tb.toNat % 1000000000 < 2 then
      { s with time := { s.time with pps := true, ppsAt := s.clock } }
    else s)

/-- PPS_PULSE_END (R459): 100 ms after the rise. -/
def execPpsPulseEnd (s : State) : Host.Outcome State Fault Refusal :=
  .next (if s.time.pps ∧ s.time.ppsAt + 80000000 ≤ s.clock then { s with time := { s.time with pps := false } } else s)

/-! ## Time between twins -/

/-- TIME_PING_TIMER (R475): the standby sends TIME_PING; a ping still unanswered has lost the exchange (log 33). -/
def execTimePingTimer (s : State) : Host.Outcome State Fault Refusal :=
  .next (if discipline s ≠ .twin ∨ !s.twinLink.linkUp then s
    else
      let s := if s.time.pingOut then exchangeLost s else s
      let sq := (s.time.pingSeq + 1) % 2 ^ 32
      sendTmb (tmbMessage 0xF010 sq (leBytes 4 sq ++ zeros 8)) { s with time := { s.time with pingSeq := sq, pingOut := true } })

/-- A TIME_PING at the active, which answers with TIME_ECHO: SEQ and T1 of the ping, T2 the stamp of its arrival, T3 stamped as it is sent. -/
def pingHeard (t2 : Nat) (m : List Byte) (s : State) : State :=
  if isActive s && m.length == 28 then
    sendTmb (tmbMessage 0xF011 (uAt m 4 4)
      (leBytes 4 (uAt m 16 4) ++ leBytes 8 (uAt m 20 8) ++ leBytes 8 t2 ++ zeros 8 ++ leBytes 4 (bitAt (ptpLocked s) 0))) s
  else s

/-- TIME_PING_RECEIVED (R475): the bytes of the TMB frame. -/
def execTimePingReceived (f : List Byte) (s : State) : Host.Outcome State Fault Refusal :=
  .next (takeTmb (fun m => tmbOp m == 0xF010) pingHeard f s)

/-- The offset a TIME_ECHO gives, arriving at t₄ (R475): positive where the active's clock is ahead. -/
def echoTheta (f : List Byte) (t4 : Nat) : Int := ((tbDiff (uAt f 28 8) (uAt f 20 8)) - tbDiff t4 (uAt f 36 8)) / 2

/-- A TIME_ECHO at the standby, with the stamp of its arrival: it slews by θ, or steps where |θ| exceeds 1 µs, which makes it unfit. -/
def echoHeard (t4 : Nat) (f : List Byte) (s : State) : State :=
  if discipline s ≠ .twin ∨ f.length ≠ 48 ∨ !s.time.pingOut ∨ uAt f 16 4 ≠ s.time.pingSeq then s
    else
      let θ := echoTheta f t4
      let lost := !s.time.exchange && s.time.pingSeq != 1
      let s := { s with time := { s.time with twinTheta := θ, activeLocked := bitOf (uAt f 44 4) 0, exchange := true, pingOut := false } }
      let s := if lost then evTwinTime 3 s.time.pingSeq s else s
      if 1000 < θ.natAbs then
        let s := evTwinTime 1 s.time.pingSeq (stepTb 5 (ofSigned 64 (s.time.tb.toNat + θ)) s)
        becomeUnfit 8 0 { s with twin := { s.twin with deltaOk := false, deltaSeen := false, samples := [] } }
      else startSlew (θ * 65536) s

/-- TIME_ECHO_RECEIVED (R476): the bytes of the TMB frame. -/
def execTimeEchoReceived (f : List Byte) (s : State) : Host.Outcome State Fault Refusal :=
  .next (takeTmb (fun m => tmbOp m == 0xF011) echoHeard f s)

end Sys2Proof.Machine
end

