-- ==== Sys2Proof/Machine/Fawn.lean ====
section
/-! DEFINITION. The Fawn domain: the RTC and its commands (R499 to R501), compensation (R501), alarm and wake (R502). -/
namespace Sys2Proof.Machine

/-- The Fawn domain changed. -/
def setFawn (f : Fawn → Fawn) (s : State) : State := { s with fawn := f s.fawn }

/-- RTC ticks of a TAI time in ns, and the ns of the RTC (R500). -/
def ticksOfNs (ns : Nat) : BitVec 48 := BitVec.ofNat 48 (ns * 32768 / 1000000000)
def rtcNs (s : State) : Nat := s.fawn.rtc.toNat * 1000000000 / 32768

/-- The RTC's seconds, bits [47:15] (R499). -/
def rtcSeconds (s : State) : Nat := s.fawn.rtc.toNat / 32768

/-- `rtc.set` (R499, R500). -/
def rtcSet (p : List Byte) (s : State) : Reply × State :=
  if !hostSteers s then refuse .badState 0 s else okWith [] (setFawn (fun w => { w with rtc := ticksOfNs (uAt p 0 8), phase := 0, valid := true }) s)

/-- RTC_SET (R500). -/
def execRtcSet (s : State) : Host.Outcome State Fault Refusal := .next (runCommand 0x1701 rtcSet s)

/-- `rtc.trim` (R501): OFFSET −127 to 127, K, T0. -/
def rtcTrim (p : List Byte) (s : State) : Reply × State :=
  if iAt p 0 1 = -128 then refuse .badArg 0 s else okWith [] (setFawn (fun w => { w with offset := iAt p 0 1, k := uAt p 2 2, t0 := iAt p 4 2 }) s)

/-- RTC_TRIM (R501). -/
def execRtcTrim (s : State) : Host.Outcome State Fault Refusal := .next (runCommand 0x1702 rtcTrim s)

/-- `rtc.alarm` (R502): 0 disables; a time the RTC has reached is EXPIRED; the RTC holds 33 bits of seconds. -/
def rtcAlarm (p : List Byte) (s : State) : Reply × State :=
  let n := uAt p 0 8
  if 2 ^ 33 ≤ n then refuse .badArg 0 s
  else if n ≠ 0 ∧ n ≤ rtcSeconds s then refuse .expired 0 s
  else okWith [] (setFawn (fun w => { w with alarm := n }) s)

/-- RTC_ALARM (R502). -/
def execRtcAlarm (s : State) : Host.Outcome State Fault Refusal := .next (runCommand 0x1703 rtcAlarm s)

/-- The ticks that 32 s of compensation add: one step is 2⁻²⁰, so OFFSET counts ticks; the parabola in ticks, times 64·10⁹ (R501). -/
def parabola (w : Fawn) : Nat := if w.temp < 80 then 0 else w.k * (w.temp - w.t0).natAbs ^ 2 * 2 ^ 20

/-- RTC_COMPENSATION (R501): 32 s have passed. Whether the part of a tick is rounded up is not stated (log 3). -/
def execRtcCompensation (s : State) : Host.Outcome State Fault Refusal :=
  let q := parabola s.fawn
  let up := if q % 64000000000 = 0 then 0 else Config.freeNat s.free % 2
  .next (setFawn (fun w => { w with rtc := BitVec.ofInt 48 ((w.rtc.toNat : Int) + w.offset - (q / 64000000000 + up : Nat)) }) { s with free := s.free + 1 })

/-- FAWN_TEMP_SAMPLE (R501): the temperature in units of 0.125 °C. -/
def execFawnTempSample (t : BitVec 16) (s : State) : Host.Outcome State Fault Refusal := .next (setFawn (fun w => { w with temp := t.toInt }) s)

/-- RTC_SYNC (R500): under PTP LOCKED, or TWIN, the RTC is set from TB when the two differ by more than 1 ms. -/
def execRtcSync (s : State) : Host.Outcome State Fault Refusal :=
  let steered := discipline s == .twin || (discipline s == .ptp && s.time.ptp.state == .locked)
  .next (if verupRuns s && steered && decide (1000000 < ((rtcNs s : Int) - s.time.tb.toNat).natAbs) then
      setFawn (fun w => { w with rtc := ticksOfNs s.time.tb.toNat, phase := 0 }) s
    else s)

/-- WAKE_N goes low; whichever cause comes first is latched (R502). -/
def wakeBy (c : WakeCause) (s : State) : State := setFawn (fun w => if w.wake then w else { w with wake := true, cause := c }) s

/-- RTC_ALARM_MATCH (R502): the RTC's seconds reach the alarm. -/
def execRtcAlarmMatch (s : State) : Host.Outcome State Fault Refusal :=
  .next (if s.fawn.alarm ≠ 0 ∧ rtcSeconds s = s.fawn.alarm then wakeBy .alarm s else s)

/-- WAKE_REQUEST (R502): WAKE_REQ_N has been low for 10 ms. -/
def execWakeRequest (s : State) : Host.Outcome State Fault Refusal := .next (wakeBy .request s)

/-- VBAT_LOW (R499). -/
def execVbatLow (s : State) : Host.Outcome State Fault Refusal := .next (setFawn (fun w => { w with valid := false }) s)

/-- XTAL_STOP (R499). -/
def execXtalStop (s : State) : Host.Outcome State Fault Refusal := .next (setFawn (fun w => { w with valid := false }) s)

end Sys2Proof.Machine
end

