-- ==== Sys2Proof/Machine/LinkFrames.lean ====
section
/-! DEFINITION. What the frames of the host link do once accepted: MWR, MRD, RWR and RRD, their refusals and completions (R109, R112, R113). -/
namespace Sys2Proof.Machine

/-! ## Accesses refused, and completions -/

/-- `ev.link_access` (Table 19.2) of an access to len bytes at an address: 1 LEN or boundary, 2 byte enables, 3 BOOT, 4 beyond the DRAM,
5 register refused. -/
def evLinkAccess (reason addr len : Nat) (h : FrameHeader) (s : State) : State :=
  emitLimited 0 { code := 0x1506, source := 0x10, status := h.ftype
                  payload := leBytes 8 addr ++ leBytes 2 len ++ leBytes 1 h.be ++ leBytes 1 reason ++ zeros 4 } s

/-- A write discarded and counted (Table 4.9 rows 5 to 7). -/
def discardAccess (reason : Nat) (h : FrameHeader) (s : State) : State :=
  evLinkAccess reason h.addr h.len h (touchGroup 5 { s with host := { s.host with accessDiscard := wrapAdd 32 s.host.accessDiscard 1 } })

/-- A completion is held for the host's credit (R112): CPLR on VC0, CPLM on VC2. -/
def complete (reg : Bool) (h : FrameHeader) (code : Nat) (data : List Byte) (s : State) : State :=
  { s with host := { s.host with held := s.host.held ++
    [{ ftype := if reg then 0x03 else 0x07, vc := if reg then 0 else 2, tag := h.tag, code := code, data := data }] } }

/-! ## Byte enables -/

/-- The byte-enable rules (R109): with LEN 4 only the first enables, not zero; beyond, both not zero. -/
def enablesOk (h : FrameHeader) : Bool :=
  if h.len = 4 then h.be / 16 == 0 && h.be % 16 != 0 else h.be / 16 != 0 && h.be % 16 != 0

/-- Every byte of the payload is enabled. -/
def fullEnables (h : FrameHeader) : Bool := if h.len = 4 then h.be == 0x0F else h.be == 0xFF

/-- The payload's bytes with their enables: the first unit's, the last unit's, and full ones between. -/
def enabledBytes (h : FrameHeader) (bs : List Byte) : List (Byte × Bool) :=
  bs.zipIdx.map fun e =>
    (e.1, if e.2 < 4 then bitOf h.be e.2 else if h.len ≤ e.2 + 4 then bitOf h.be (4 + (e.2 + 4 - h.len)) else true)

/-! ## Memory -/

/-- The mode in which the DRAM does not answer (Table 4.9). -/
def dramAway (s : State) : Bool := s.sys.mode = .boot || s.sys.mode = .keepalive

/-- The part of an MWR once accepted (Table 4.9 rows 5 and 6, R113, R375); `alert` says that the device still reports the write after four retries
(DRC_CRC). -/
def writeMemory (alert : Bool) (h : FrameHeader) (bs : List Byte) (s : State) : State :=
  let a := h.addr
  if h.len = 0 || decide (4096 < a % 4096 + h.len) then discardAccess 1 h s
  else if !enablesOk h then discardAccess 2 h s
  else if dramAway s then discardAccess 3 h s
  else if beyondFitted s a h.len then discardAccess 4 h s
  else if channelStopped s a then s
  else if alert then raiseFault .drcCrc (0x13 + channelOf a) 0xFFFF (nameFault { cls := .drcCrc, addr := 64 * (a / 64) } s)
  else
    let s := cvuUnitStart 1 (fun _ => true) s
    let s := dramWriteEn 3 a (enabledBytes h bs) (cvuFeedWindow 1 a bs s)
    cvuUnitEnd 1 (fun _ => true) s

/-- MWR_RECEIVED (R113): the bytes of the frame. -/
def execMwrReceived (f : List Byte) (alert : Bool) (s : State) : Host.Outcome State Fault Refusal :=
  .next (receiveFrame 0 0x01 1 (fun h => decide (h.len ≤ 4096) && h.tag == 0 && decide (h.addr < 2 ^ 40)) (writeMemory alert) f s)

/-- The read length of an MRD. -/
def mrdLen (h : FrameHeader) : Nat := h.addr / 2 ^ 40

/-- The part of an MRD once accepted: its completion (Tables 4.9 and 4.11, R375, R405). -/
def readMemory (h : FrameHeader) (s : State) : State :=
  let a := h.addr % 2 ^ 40; let n := mrdLen h
  if dramAway s then complete false h 0x5 [] (if s.sys.mode = .boot then evLinkAccess 3 a n h s else s)
  else if beyondFitted s a n then complete false h 0x3 [] (evLinkAccess 4 a n h s)
  else if uninitRange s a n then complete false h 0x1 [] s
  else if (linesOf a n).any (channelStopped s) then complete false h 0x5 [] s
  else match dramRead 3 a n s with
    | (some d, s) => complete false h 0x0 d s
    | (none, s) => complete false h 0x2 [] s

/-- MRD_RECEIVED (R113). A read length out of range or not a multiple of 4 is a protocol error of row 3 (DESIGN CHOICE, log 15): row 3 of Table 4.9 speaks of
LEN alone. -/
def execMrdReceived (f : List Byte) (s : State) : Host.Outcome State Fault Refusal :=
  .next (receiveFrame 0 0x02 2
    (fun h => h.be == 0 && h.len == 0 && decide (h.addr < 2 ^ 53) && decide (4 ≤ mrdLen h) && decide (mrdLen h ≤ 4096) && mrdLen h % 4 == 0)
    (fun h _ s => readMemory h s) f s)

/-! ## Registers -/

/-- A window range that Table 4.9 takes whole and by bytes: within 0x4000 to 0xFFFF. -/
def inAreas (o n : Nat) : Bool := decide (0x4000 ≤ o) && decide (o + n ≤ 0x10000)

/-- Every byte of a range lies in the command areas (Table 3.5). -/
def inCommandAreas (o n : Nat) : Bool :=
  (List.range n).all fun i => decide (o + i < 0x8000) && decide (0x4000 ≤ o + i) && decide ((o + i - 0x4000) % 0x800 < 0x400)

/-- The part of an RWR once accepted (Table 4.9 row 7, R64, R113). -/
def writeWindow (h : FrameHeader) (bs : List Byte) (s : State) : State :=
  let o := h.addr
  if !windowReady s then s
  else if !inAreas o h.len then
    if h.len = 4 ∧ h.be = 0x0F ∧ o % 4 = 0 then writeWord .host o (leNat bs) s else discardAccess 5 h s
  else if !enablesOk h then discardAccess 2 h s
  else if !fullEnables h && !inCommandAreas o h.len then discardAccess 2 h s
  else writeAreaBytes o (enabledBytes h bs) s

/-- RWR_RECEIVED (R109). -/
def execRwrReceived (f : List Byte) (s : State) : Host.Outcome State Fault Refusal :=
  .next (receiveFrame 0 0x04 0 (fun h => decide (h.len ≤ 1024) && h.tag == 0 && decide (h.addr < 2 ^ 16)) writeWindow f s)

/-- The read length of an RRD, and its offset. -/
def rrdLen (h : FrameHeader) : Nat := h.addr / 2 ^ 16
def rrdOffset (h : FrameHeader) : Nat := h.addr % 2 ^ 16

/-- n bytes of the areas and the ring from any offset. -/
def areaBytes (s : State) (o n : Nat) : List Byte :=
  (((List.range (n / 4 + 2)).flatMap fun i => leBytes 4 (windowWord s ((o / 4 * 4 + 4 * i) % 0x10000))).drop (o % 4)).take n

/-- The part of an RRD once accepted: its completion (Tables 4.9 and 4.11, R66). -/
def readWindow (h : FrameHeader) (s : State) : State :=
  let o := rrdOffset h; let n := rrdLen h
  if inAreas o n then complete true h 0x0 (areaBytes s o n) s
  else if n = 4 ∧ o % 4 = 0 then
    let (w, s) := readWord .host o s
    complete true h 0x0 (leBytes 4 w.toNat) s
  else complete true h 0x4 [] (evLinkAccess 5 o n h s)

/-- RRD_RECEIVED (R109). A read length out of range or not a multiple of 4 is a protocol error of row 3 (DESIGN CHOICE, log 15), as for MRD. -/
def execRrdReceived (f : List Byte) (s : State) : Host.Outcome State Fault Refusal :=
  .next (receiveFrame 0 0x05 0
    (fun h => h.be == 0 && h.len == 0 && decide (h.addr < 2 ^ 27) && decide (4 ≤ rrdLen h) && decide (rrdLen h ≤ 1024) && rrdLen h % 4 == 0)
    (fun h _ s => readWindow h s) f s)

end Sys2Proof.Machine
end

