-- ==== Sys2Proof/Machine/Recovery.lean ====
section
/-! DEFINITION. Recovery: `fault.read`, `fault.ack`, `fault.clear` and `fn.reinit` (R398, R416 to R418), the end of a discard (R411), the junction
temperature (Table 14.4, OVERTEMP), and the counter reports of each second (R533). -/
namespace Sys2Proof.Machine

/-! ## Naming an instance -/

/-- The instance that LEVEL, SOURCE and CELL name (R518), or the offset of the first of them that is wrong. -/
def instOf (p : List Byte) : Except Nat Inst :=
  let src := uAt p 1 1; let cell := uAt p 2 2
  match uAt p 0 1 with
  | 0 => if !hasBlock src then .error 1 else if 511 < cell then .error 2 else .ok (cellInst src cell)
  | 1 => if !hasBlock src then .error 1 else if cell ≠ 0xFFFF then .error 2 else .ok (blockInst src)
  | 2 => if src = 0 ∨ 5 < src then .error 1 else if cell ≠ 0xFFFF then .error 2 else .ok { level := .region, source := src }
  | 3 => if src ≠ 0 then .error 1 else if cell ≠ 0xFFFF then .error 2 else .ok chipInst
  | _ => .error 0

/-- An overrun-list entry (Table 14.2). -/
def overrunBytes (e : Overrun) : List Byte := leBytes 1 e.cls.code ++ leBytes 1 e.source ++ leBytes 2 e.cell ++ leBytes 4 e.time.toNat

/-- `fault.read` (R398). -/
def faultRead (p : List Byte) (s : State) : Reply × State :=
  match instOf p with
  | .error d => refuse .badArg d s
  | .ok x =>
    let r := recOf s x
    okWith (leBytes 4 r.word ++ leBytes 2 r.olost ++ [0, 0] ++ padTo 32 (r.overruns.flatMap overrunBytes)) s

/-- FAULT_READ (R398). -/
def execFaultRead (s : State) : Host.Outcome State Fault Refusal := .next (runCommand 0x1001 faultRead s)

/-! ## `fault.ack` -/

/-- The condition of Table 14.4 for an ACK release. -/
def ackCondition (s : State) (r : FaultRec) (c : FClass) : Bool :=
  let p := r.source - 0x30
  match c with
  | .codecCapacity => aggregateOk s
  | .wavEcc => match activeBank (nthOr s.wave p {}) with | some b => !b.bad && !b.old | none => false
  | .headFault => !(nthOr s.heads p {}).fault
  | .headLost => let h := nthOr s.heads p {}; h.present && h.record.isSome && !h.mismatch
  | .paceSource => !(nthOr s.fbk (paceChannel s) {}).chFault
  | .mbxStall => !(s.mbx.box.any fun m => m.stalled && m.state == .exec)
  | _ => true

/-- `fault.ack` (R417). -/
def faultAck (p : List Byte) (s : State) : Reply × State :=
  match instOf p with
  | .error d => refuse .badArg d s
  | .ok x =>
    let r := recOf s x
    match r.latch with
    | none => refuse .badState 0 s
    | some c =>
      if c.code ≠ uAt p 4 1 ∨ c.release ≠ .ack ∨ x.level = .chip then refuse .badState 0 s
      else if !ackCondition s r c || (r.discards && s.faults.discard.isSome) then refuse .busy 0 s
      else okWith [] (releaseLatch x .ack s)

/-- FAULT_ACK (R417). -/
def execFaultAck (s : State) : Host.Outcome State Fault Refusal := .next (runCommand 0x1002 faultAck s)

/-! ## `fault.clear` -/

/-- The condition of Table 14.4 for the class in the chip latch; `ball` is the sampled level of BAR_OWN (R254). -/
def clearCondition (ball : Bool) (s : State) : Bool :=
  match latchedAt s chipInst with
  | some .overtemp => decide (s.sys.tj.toInt ≤ 840)
  | some .powerFail => s.sys.pwrFailN
  | some .ownReadback => ball == barOwn s
  | _ => true

/-- `fault.clear` (R416, Table 2.3). -/
def faultClear (ball : Bool) (_ : List Byte) (s : State) : Reply × State :=
  if !axesStill s || s.life.flush.isSome || !clearCondition ball s then refuse .busy 0 s
  else
    let s := leaveSafestop s
    let s := { s with bar := { s.bar with readbackCut := false } }
    okWith [] (if s.bar.committed then changeMode .idle 0x1003 s else toConfigure 0x1003 s)

/-- FAULT_CLEAR (R416). -/
def execFaultClear (ball : Bool) (s : State) : Host.Outcome State Fault Refusal := .next (runCommand 0x1003 (faultClear ball) s)

/-! ## `fn.reinit` -/

/-- The refusal of a block on its own (R418). -/
def reinitRefusal (s : State) (b : Nat) : Option Status :=
  if (regionOf b = 2 && s.swath.active) || jobUsesBlock b s then some .badState
  else if 0x48 ≤ b ∧ b ≤ 0x4F ∧ !(nthOr s.axes (b - 0x48) {}).standstill then some .busy
  else none

/-- A word that every read of it would find uncorrectable. -/
def isPoisoned (y : BitVec 8) : Bool := match classify y with | .poison | .uncorrectable => true | _ => false

/-- Every poisoned word of a block's banks and stores is written as zero with valid check bits (R385). -/
def rewritePoison (b : Nat) (s : State) : State :=
  let hit (w : Nat) : Bool := wordOwner w == b && isPoisoned (SMap.get 0 s.mem.ondie w)
  { s with mem := { s.mem with
    ondie := s.mem.ondie.filter fun e => !hit e.1
    ondieData := ((s.mem.ondie.map (·.1)).filter hit).map (fun w => (w, 0)) ++ s.mem.ondieData.filter fun e => !hit e.1 } }

/-- The reset of a link's block: the link goes down and bring-up starts. -/
def reinitLink (l : Fin 2) (src : Nat) (s : State) : State :=
  startLink l (if (linkOf l s).linkUp then stopBlockOutputs src s else s)

/-- An axis under `fn.reinit` (R367): the fault bit and the FAULT hold, and REFERENCED unless FB_SRC is CHANNEL and the channel has no fault. -/
def reinitAxis (a : Nat) (s : State) : State :=
  let keep := pnat (axisCfg s a) 3 0 0 == 1 && !(nthOr s.fbk (pnat (axisCfg s a) 4 0 0) {}).chFault
  holdToHost a .fault (setAxis a (fun x => { x with axisFault := false, missRun := 0, followRun := 0, referenced := x.referenced && keep }) s)

/-- What the owning chapters make of the reinit of a block that passes its self-test. `pass` tells which decoders pass (R147). -/
def reinitEffect (b : Nat) (pass : BitVec 9) (s : State) : State :=
  if b = 0x10 then reinitLink 0 b s
  else if b = 0x60 then reinitLink 1 b s
  else if b = 0x11 then reinitDecoders pass (if (openSlices s).isEmpty then s else startDiscard true 0x1101 s)
  else if b = 0x25 then { s with audit := { s.audit with stopped := false } }
  else if 0x40 ≤ b ∧ b ≤ 0x47 then setFbk (b - 0x40) (fun f => Fbk.restart s.clock { f with chFault := false }) s
  else if 0x48 ≤ b ∧ b ≤ 0x4F then reinitAxis (b - 0x48) s
  else if b = 0x50 ∨ b = 0x51 then { s with drive := updAt s.drive (b - 0x50) fun d => { d with running := false } }
  else if b = 0x73 then readHeader s
  else s

/-- The latches that the reinit of a block releases: its own, its cells', and a region's of a class that names the block for REINIT (R418). -/
def reinitReleases (b : Nat) (r : FaultRec) : Bool :=
  match r.inst.level with
  | .cell | .block => r.inst.source == b
  | .region => r.source == b && (match r.latch with | some c => decide (c.release = .reinit) | none => false)
  | .chip => false

/-- A block stays stopped after its self-test: one that was not stopped before raises BLOCK_STOP where its region hears of it (R405, R418). -/
def stayStopped (b : Nat) (s : State) : State :=
  let t := stopBlock b s
  if !s.faults.stopped.contains b && stopReports b t then raiseFault .blockStop b 0xFFFF t else t

/-- The reinit of one block: stopped and tested; on a pass it returns to the committed configuration and its latches are released, else it stays
stopped (R418). -/
def reinitBlock (b : Nat) (fails : List Nat) (pass : BitVec 9) (s : State) : Bool × State :=
  if fails.contains b || (b == 0x11 && pass == 0) then (false, stayStopped b (if b = 0x11 then reinitEffect b 0 s else s))
  else
    let s := { s with faults := { s.faults with stopped := s.faults.stopped.filter (· ≠ b) } }
    (true, releaseWhere (reinitReleases b) .reinit (reinitEffect b pass (rewritePoison b s)))

/-- Blocks reinitialised in turn: the first that fails, if one does. -/
def reinitAll (fails : List Nat) (pass : BitVec 9) : List Nat → State → Option Nat × State
  | [], s => (none, s)
  | b :: bs, s =>
    match reinitBlock b fails pass s with
    | (true, s) => reinitAll fails pass bs s
    | (false, s) => (some b, s)

/-- `fn.reinit` (R418). `fails` are the blocks that fail their self-test. -/
def fnReinit (fails : List Nat) (pass : BitVec 9) (p : List Byte) (s : State) : Reply × State :=
  let src := uAt p 0 1
  let region := decide (1 ≤ src) && decide (src ≤ 5)
  if !(region || hasBlock src) || src = 5 || src = 0x70 || src = 0x72 || src = 0x74 then refuse .badArg 0 s
  else
    let blocks := if region then (List.range 0x75).filter fun b => hasBlock b && regionOf b == src else [src]
    match blocks.findSome? fun b => (reinitRefusal s b).map fun st => (b, st) with
    | some (b, st) => refuse st b s
    | none =>
      match reinitAll fails pass blocks s with
      | (some b, s) => ({ status := .reinitFailed, detail := b }, s)
      | (none, s) => okWith [] (if region then releaseLatch { level := .region, source := src } .reinit s else s)

/-- FN_REINIT (R418). -/
def execFnReinit (fails : List Nat) (pass : BitVec 9) (s : State) : Host.Outcome State Fault Refusal := .next (runCommand 0x1101 (fnReinit fails pass) s)

/-! ## The end of a discard -/

/-- The payload of `ev.discard` (Table 19.6). -/
def discardPayload (d : Discard) (s : State) : List Byte :=
  leBytes 2 d.cause ++ leBytes 1 (min d.joined 255) ++ [0] ++ leBytes 4 s.job.pacLine.toNat ++ leBytes 4 d.first ++ leBytes 2 d.slices ++ leBytes 2 d.actions

/-- A pass whose lines have been discarded ends with the discard and has no result (R327); in SAFESTOP so does one whose result was being written. The
mode stays (R413). -/
def endDiscardedPass (d : Discard) (s : State) : State :=
  match s.audit.pass with
  | none => s
  | some a =>
    if s.sys.mode = .safestop ∨ (s.sys.mode = .audit ∧ a.result.isNone) then failPass s else s

/-- DISCARD_END (R411): `ev.discard`; slices are accepted from PAC_LINE, and pacing arms as far as R304 lets it. -/
def execDiscardEnd (s : State) : Host.Outcome State Fault Refusal :=
  .next (match s.faults.discard with
    | none => s
    | some d =>
      let s := emit { code := 0x1002, status := if d.byCommand then 1 else 0, keep := true, payload := discardPayload d s } s
      let s := endDiscardedPass d s
      armNext (bgEnd .discard { s with
        faults := { s.faults with discard := none }, swath := { s.swath with withheld := false }
        codec := { s.codec with nextLine := s.job.pacLine.toNat } }))

/-! ## Temperature and counters -/

/-- The readings at or above 115 °C (920 counts) in a row after one more; OVERTEMP at the fourth, from which the count starts anew. -/
def tempReading (tj : BitVec 12) (s : State) : State :=
  let n := if 920 ≤ tj.toInt then s.sys.hotReadings + 1 else 0
  let s := { s with sys := { s.sys with tj := tj, tempValid := true, hotReadings := n % 4 } }
  if n = 4 then raiseFault .overtemp 0 0xFFFF s else s

/-- TEMP_UPDATE (R566): SYS_TEMP is updated. -/
def execTempUpdate (tj : BitVec 12) (s : State) : Host.Outcome State Fault Refusal :=
  .next (if s.sys.mode = .keepalive ∨ s.sys.phase = .inReset then s else tempReading tj s)

/-- COUNTERS_REPORT (R533): a second in which counters have changed. -/
def execCountersReport (s : State) : Host.Outcome State Fault Refusal :=
  .next (((List.range 10).filter fun g => s.evr.dirtyGroups.contains g).foldl (fun s g => reportGroup g s) s)

end Sys2Proof.Machine
end

