-- ==== Sys2Proof/Machine/Boot.lean ====
section
/-! DEFINITION. Start-up and restart: supplies and RESET_N (R40, R43, R47, R49), the sequence of R44, the boot ROM (R56 to R58) and Verup's start
(R491, R500). -/
namespace Sys2Proof.Machine

/-! ## Restart -/

/-- A waveform stream at a restart: it finishes the frame it is sending (R215). -/
def lastFrame (w : WavePort) : WavePort :=
  if w.on then
    { banks := w.banks, active := w.active, played := w.played, frType := w.frType, frBank := w.frBank, frRest := w.frRest, frTest := w.frTest
      frValue := w.frValue, prbs := w.prbs, frameNo := w.frameNo, level := w.level, move := w.move, on := true, ending := true }
  else {}

/-- What a restart keeps (Table 2.6): the MRAM, the Fawn domain, fuses, the rows that the DRAM devices have repaired for good, ball levels, the test access port, and the model's own records; everything else is as at reset. -/
def blank (s : State) : State :=
  { sys := { resetN := s.sys.resetN, pwrFailN := s.sys.pwrFailN, supplies := s.sys.supplies, secVer := s.sys.secVer, coldStart := s.sys.coldStart
             keyHash := s.sys.keyHash, tap := s.sys.tap }
    bar := { peer := s.bar.peer, peerSince := s.bar.peerSince }
    wave := s.wave.map lastFrame
    fbk := s.fbk.map fun f => { fa := f.fa, fb := f.fb, fc := f.fc, a := f.a, b := f.b, c := f.c }
    mem := { fuses := s.mem.fuses, pprUsed := s.mem.pprUsed, leakAt := s.clock }
    life := { nv := s.life.nv, countedAt := s.clock }
    fawn := s.fawn, clock := s.clock, free := s.free, sent := s.sent, pending := s.pending }

/-- The straps are sampled (R43) and the sequence of R44 begins: legacy takes LGCY_SEL (R50), and with it the mailbox format (R51, R84). -/
def beginStart (p : Straps) (s : State) : State :=
  { s with
    sys := { s.sys with mode := .boot, phase := .locking, straps := p, legacy := p.lgcySel }
    mbx := { s.mbx with fmt1 := p.lgcySel, box := s.mbx.box.map fun m => { m with seq := if p.lgcySel then 0xFFFF else 0xFFFFFFFF } } }

/-- The part resets; the sequence begins while RESET_N is high, else it waits for its rise. -/
def restart (p : Straps) (s : State) : State :=
  let t := blank s
  if t.sys.resetN then beginStart p t else t

/-! ## The test access port (R550) -/

/-- The instructions that take effect only while RESET_N is low. -/
def TapInstr.confined : TapInstr → Bool
  | .extest | .clamp | .highz => true
  | _ => false

/-- An instruction loaded by a tester: EXTEST, CLAMP and HIGHZ act as BYPASS unless RESET_N is low. No row of the table loads one (log 48). -/
def loadTap (i : TapInstr) (s : State) : State :=
  { s with sys := { s.sys with tap := if i.confined && s.sys.resetN then .bypass else i } }

/-- What IDCODE returns: the stepping code, the part code, 0x2B5 and 1. -/
def tapIdcode : BitVec 32 := BitVec.ofNat 32 (Config.stepCode * 2 ^ 28 + Config.partCode * 2 ^ 12 + 0x2B5 * 2 + 1)

/-- RESET_N rises: the port leaves an instruction that only reset allows for BYPASS. -/
def riseResetN (s : State) : State :=
  { s with sys := { s.sys with resetN := true, tap := if s.sys.tap.confined then .bypass else s.sys.tap } }

/-- RESET_N_RISE (R43, R44, R550): the sequence begins; a rise while a flush holds the internal reset only samples the straps (R47), and without main supplies
the ball alone changes. -/
def execResetNRise (lgcy unitB hold slot1 : Bool) (s : State) : Host.Outcome State Fault Refusal :=
  let p : Straps := { lgcySel := lgcy, unitId := unitB, bootHold := hold, bootSlot1 := slot1 }
  let s := riseResetN s
  .next (
    if s.sys.resetPending then { s with sys := { s.sys with straps := p } }
    else if s.sys.supplies && (s.sys.phase == .inReset || s.sys.mode == .keepalive) then beginStart p s
    else s)

/-- The CAUSE of the mode-history entry of a warm reset: the opcode of `sys.reset`; the manual gives RESET_N and SYS_RESET no code (log 3). -/
def resetCause (s : State) : Nat := if s.sys.resetKind = 1 then 0x0101 else Config.freeNat s.free % 65536

/-- The entries of a warm reset, with the time of its trigger (R487). LEVEL and SOURCE of a RESET entry are not stated (log 3). -/
def logReset (s : State) : State :=
  if lifeWritable s then
    let s := writeModeEntry (modeBody s.sys.mode .boot (resetCause s) s.sys.resetTb) s
    let body := logBody 3 0 (Config.freeNat (s.free + 1) % 256) (Config.freeNat (s.free + 2) % 256) s.sys.resetTb 0xFFFF 0 s.sys.resetKind s
    pushLog body { s with free := s.free + 3 }
  else s

/-- TM_PPS and TM_OUT0 to TM_OUT3 are in high impedance while RESET_N is low (R459): no level and no pulse is left on them. -/
def releaseTimeBalls (s : State) : State :=
  { s with time := { s.time with pps := false, outs := Vector.replicate 4 false, pulseEnd := Vector.replicate 4 none } }

/-- RESET_N_FALL (R47): a warm reset is asked for; in BOOT, where no flush is made, every lane says EIDLE (R102) and the part resets at once. -/
def execResetNFall (s : State) : Host.Outcome State Fault Refusal :=
  let s := { s with sys := { s.sys with resetN := false } }
  .next (match s.sys.mode with
    | .keepalive => s
    | .boot => restart {} (sendEidle 1 (sendEidle 0 s))
    | _ => requestReset 0 (releaseTimeBalls s))

/-- WARM_RESET_FLUSH_DONE (R47): the flush that the reset waits for ends, every lane says EIDLE, and the part resets. -/
def execWarmResetFlushDone (lgcy unitB hold slot1 : Bool) (s : State) : Host.Outcome State Fault Refusal :=
  .next (
    if !s.sys.resetPending || !flushMayEnd s then s
    else
      let p : Straps := if s.sys.resetKind = 0 then s.sys.straps else { lgcySel := lgcy, unitId := unitB, bootHold := hold, bootSlot1 := slot1 }
      let s := if s.sys.mode = .boot then s else endFlush [] (logReset s)
      restart p (sendEidle 1 (sendEidle 0 s)))

/-! ## Main supplies -/

/-- MAIN_SUPPLIES_FALL (R40, R503): only the Fawn domain goes on; a flush still under way is lost. -/
def execMainSuppliesFall (s : State) : Host.Outcome State Fault Refusal :=
  .next (
    if s.sys.mode = .keepalive then { s with sys := { s.sys with supplies := false } }
    else
      let t := blank (stopScrub s)
      setFawn (fun w => { w with held := true, heldSince := rtcSeconds s })
        { t with sys := { t.sys with mode := .keepalive, supplies := false, coldStart := true, tap := .idcode } })

/-- MAIN_SUPPLIES_VALID (R40): with RESET_N high the part leaves KEEPALIVE for BOOT; with RESET_N low it waits for its rise. -/
def execMainSuppliesValid (lgcy unitB hold slot1 : Bool) (s : State) : Host.Outcome State Fault Refusal :=
  let p : Straps := { lgcySel := lgcy, unitId := unitB, bootHold := hold, bootSlot1 := slot1 }
  .next (
    if s.sys.mode ≠ .keepalive then s
    else
      let s := { s with sys := { s.sys with supplies := true } }
      if s.sys.resetN then beginStart p s else s)

/-- PWR_FAIL_N_FALL (R49, R490): a flush starts or is joined, and SAFESTOP is entered with the cause POWER_FAIL. -/
def execPwrFailNFall (s : State) : Host.Outcome State Fault Refusal :=
  let s := { s with sys := { s.sys with pwrFailN := false } }
  .next (if verupRuns s then raiseFault .powerFail 0 0xFFFF (startFlush 5 s) else s)

/-- PWR_FAIL_N_RISE (R49): the mode stays; the condition of `fault.clear` is met. -/
def execPwrFailNRise (s : State) : Host.Outcome State Fault Refusal := .next { s with sys := { s.sys with pwrFailN := true } }

/-! ## Steps 1 and 2: PLLs, repairs, sweep -/

/-- Spares of a kind in a bank that the repairs already use. -/
def sparesUsed (rs : List SramRepair) (kind bank : Nat) : Nat := (rs.filter fun r => r.kind == kind && r.bank == bank).length

/-- A repair taken in if its bank has the spare it needs: two rows, one bit-column (R378, R390). -/
def takeRepair (rs : List SramRepair) (r : SramRepair) : Option (List SramRepair) :=
  if sparesUsed rs r.kind r.bank < (if r.kind = 1 then 2 else 1) then some (rs ++ [r]) else none

/-- The SRAM repair that an entry of the map asks for (Table 17.7). -/
def sramRepairOf (e : RepairEntry) : Option SramRepair :=
  match uAt e 0 1 with
  | 1 => some { bank := uAt e 2 2 % 512, kind := 1, index := uAt e 4 2 }
  | 2 => some { bank := uAt e 2 2 % 512, kind := 2, index := uAt e 4 2 }
  | _ => none

/-- The map's repairs taken after those already there: the repairs in use, and the indices skipped (R390). -/
def takeMap : Nat → List RepairEntry → List SramRepair × List Nat → List SramRepair × List Nat
  | _, [], acc => acc
  | i, e :: es, (rs, sk) =>
    match sramRepairOf e with
    | none => takeMap (i + 1) es (rs, sk)
    | some r => match takeRepair rs r with
      | some rs => takeMap (i + 1) es (rs, sk)
      | none => takeMap (i + 1) es (rs, sk ++ [i])

/-- The repair map as the MRAM holds it: its SEQ and entries (R481, R496). -/
def storedRepairs (s : State) : Nat × List RepairEntry :=
  match currentCopy (repairGood s) (fun i => uAt (repairCopy s i) 0 4) with
  | none => (0, [])
  | some i => (uAt (repairCopy s i) 0 4, repairOfBytes (repairCopy s i))

/-- Step 2 of R44: the repairs of the fuses, then those of the map. -/
def loadRepairs (s : State) : State :=
  let fused := s.mem.fuses.foldl (fun rs r => (takeRepair rs r).getD rs) []
  let (rs, sk) := takeMap 0 (storedRepairs s).2 (fused, [])
  { s with mem := { s.mem with repairs := rs, skipped := sk } }

/-- PLLS_LOCKED (R44, R247): the repairs load, and the sweep and the presence filters start. -/
def execPllsLocked (s : State) : Host.Outcome State Fault Refusal :=
  .next (if s.sys.phase = .locking then
      let s := loadRepairs s
      { s with sys := { s.sys with phase := .sweeping, repairLoaded := true } }
    else s)

/-- The boot ROM stops (R42, R58): its stage and result stand, SYS_IRQ_STATUS.BOOT is set, and bring-up of the host link starts (R102). -/
def bootStop (stage result : Nat) (s : State) : State :=
  startLink 0 (raiseIrq irqBoot { s with sys := { s.sys with phase := .stopped, stage := stage, result := result } })

/-- SRAM_SWEEP_DONE (R379, R58): every bank and store is zero, the window is ready, and the boot ROM starts; BOOT_HOLD holds it. -/
def execSramSweepDone (s : State) : Host.Outcome State Fault Refusal :=
  .next (if s.sys.phase = .sweeping then
      let s := { s with sys := { s.sys with sweepDone := true, phase := .discovering, stage := 3 }, wave := Vector.replicate 16 {} }
      if s.sys.straps.bootHold then bootStop 7 9 s else s
    else s)

/-! ## Step 3: the boot ROM -/

/-- The flash offset of a slot (R57). -/
def slotOffset (n : Nat) : Nat := if n = 0 then 0x10000 else 0x800000

/-- DWORD n of the Basic Flash Parameter Table, counted from 1. -/
def bfptWord (t : List Byte) (n : Nat) : Nat := uAt t (4 * (n - 1)) 4

/-- The density that a table declares, in bits (PRESUMED from JESD216, log 49). -/
def flashBits (t : List Byte) : Nat :=
  let d := bfptWord t 2
  if bitOf d 31 then 2 ^ min 64 (bitsOf d 30 0) else d + 1

/-- Quad modes may be used: the quad-enable requirement field is present and holds a method that the ROM knows (Table 3.1). -/
def quadUsable (t : List Byte) : Bool := decide (60 ≤ t.length) && Config.romKnowsQuadEnable (bitsOf (bfptWord t 15) 22 20)

/-- The read mode chosen: 1-4-4 if declared, else 1-1-4, else 1-1-2; a flash that leaves none is refused (Table 3.1). -/
def flashReadMode (t : List Byte) : Option ReadMode :=
  let d := bfptWord t 1
  if quadUsable t && bitOf d 21 then some .quad144
  else if quadUsable t && bitOf d 22 then some .quad114
  else if bitOf d 16 then some .dual112
  else none

/-- The flash is one of Table 3.1: 128 Mbit to 2 Gbit, and not 4-byte addressing only. -/
def flashFits (t : List Byte) : Bool :=
  decide (2 ^ 27 ≤ flashBits t) && decide (flashBits t ≤ 2 ^ 31) && bitsOf (bfptWord t 1) 18 17 != 2

/-- The slots R58 tries: those whose MAGIC is valid, the higher IMAGE_VER first, slot 0 on a tie; with BOOT_SLOT1, slot 1 alone. -/
def slotCandidates (only1 : Bool) (h0 h1 : List Byte) : List Nat :=
  let magic (h : List Byte) : Bool := uAt h 0 4 == 0x55524556
  if only1 then (if magic h1 then [1] else [])
  else match magic h0, magic h1 with
    | false, false => []
    | true, false => [0]
    | false, true => [1]
    | true, true => if uAt h0 8 4 < uAt h1 8 4 then [1, 0] else [0, 1]

/-- The header's fields are in range and its reserved bytes zero (Table 3.2). -/
def imageHeaderOk (h : List Byte) : Bool :=
  let n := uAt h 4 4
  uAt h 0 4 == 0x55524556 && decide (1 ≤ n) && decide (n ≤ 1835008) && decide (uAt h 14 2 ≤ 63) && decide (uAt h 16 4 < n) &&
    ((h.drop 20).take 12 ++ (h.drop 128).take 8 ++ (h.drop 232).take 24).all (· == 0)

/-- The first check of a header that R58 makes before the load and that it fails, by its result code. -/
def headFailure (h : List Byte) (s : State) : Option Nat :=
  if !imageHeaderOk h then some 4
  else if sha384 ((h.drop 32).take 96) ≠ s.sys.keyHash then some 5
  else if !bitOf (uAt h 12 2) Config.stepCode then some 6
  else if uAt h 14 2 < s.sys.secVer then some 7
  else none

/-- The header read from a slot. -/
def slotHead (n : Nat) (s : State) : List Byte := if n = 0 then s.sys.slotHead0 else s.sys.slotHead1

/-- The candidates are tried in their order: the first whose header passes is loaded; with none left the ROM stops with the last failure (R58). -/
def trySlots : List Nat → State → State
  | [], s => bootStop 0xE s.sys.result s
  | n :: rest, s =>
    let s := { s with sys := { s.sys with slot := n, bootDetail := BitVec.ofNat 32 (slotOffset n) } }
    match headFailure (slotHead n s) s with
    | some r => trySlots rest { s with sys := { s.sys with result := r } }
    | none => { s with sys := { s.sys with phase := .loading, stage := 4, candidates := n :: rest } }

/-- What discovery finds is judged (R56, R58): the SFDP signature, the table against Table 3.1, and the slots. -/
def judgeFlash (f : Flash) (s : State) : State :=
  let w : Word := BitVec.ofNat 32 (uAt f.sfdp 0 4)
  if w ≠ 0x50444653 then bootStop 0xE 1 { s with sys := { s.sys with bootDetail := w } }
  else match flashReadMode f.bfpt, flashFits f.bfpt with
    | some m, true =>
      let s := { s with sys := { s.sys with readMode := some m, slotHead0 := f.slot0, slotHead1 := f.slot1 } }
      match slotCandidates s.sys.straps.bootSlot1 f.slot0 f.slot1 with
      | [] => bootStop 0xE 3 s
      | n :: rest => trySlots (n :: rest) { s with sys := { s.sys with firstCandidate := n } }
    | _, _ => bootStop 0xE 2 { s with sys := { s.sys with bootDetail := w } }

/-- FLASH_DISCOVERY_DONE (R56). -/
def execFlashDiscoveryDone (found : Flash) (s : State) : Host.Outcome State Fault Refusal :=
  .next (if s.sys.phase = .discovering then judgeFlash found s else s)

/-- The signature of an image is valid (R57): ECDSA over header bytes 0 to 135 and the body, its numbers little-endian by R9 (DEDUCED, log 49). -/
def signatureOk (h body : List Byte) : Bool :=
  let num (off : Nat) : Nat := uAt h off 48
  ecdsaOk (num 32) (num 80) (num 136) (num 184) (sha384 (h.take 136 ++ body))

/-- The body is loaded and STAGE is VERIFY: a valid signature starts Verup, else the next candidate is tried (R58). -/
def verifyImage (body : List Byte) (s : State) : State :=
  let s := { s with sys := { s.sys with stage := 5 } }
  if signatureOk (slotHead s.sys.slot s) body then
    raiseIrq irqBoot { s with sys := { s.sys with phase := .starting, stage := 6, fallback := s.sys.slot != s.sys.firstCandidate } }
  else trySlots (s.sys.candidates.drop 1) { s with sys := { s.sys with result := 8 } }

/-- BOOT_IMAGE_LOADED (R58): the body, of the length its header gives, is loaded and verified. -/
def execBootImageLoaded (body : List Byte) (s : State) : Host.Outcome State Fault Refusal :=
  .next (if s.sys.phase = .loading ∧ body.length = uAt (slotHead s.sys.slot s) 4 4 then verifyImage body s else s)

/-! ## Step 4: Verup's start -/

/-- NEW of the newest entry of the mode history. -/
def historyNewest (s : State) : Option Nat :=
  let b := mramBytes s (0x1080 + 16 * ((s.life.modeSeq - 1) % 248)) 16
  if s.life.modeSeq = 0 ∨ uAt b 0 4 ≠ s.life.modeSeq then none else some (uAt b 5 1)

/-- The newest mode of the mode history other than BOOT and KEEPALIVE (R36), by the codes stored. -/
def historyPrior (s : State) : Option Mode :=
  let entry (k : Nat) : Option Mode :=
    let sq := s.life.modeSeq - k
    let b := mramBytes s (0x1080 + 16 * ((sq - 1) % 248)) 16
    if sq = 0 ∨ uAt b 0 4 ≠ sq then none
    else [Mode.configure, .idle, .home, .maintain, .print, .hold, .audit, .follow, .safestop, .service].find? fun m => m.code == uAt b 5 1
  (List.range 248).findSome? entry

/-- The entries of a ring of the MRAM that are not empty, by their offsets: those with a byte that is not zero in SEQ. -/
def ringEntries (lo size count : Nat) (s : State) : List Nat :=
  ((((s.life.nv.mram.map (·.1)).filter fun a => decide (lo ≤ a) && decide (a < lo + size * count) && decide ((a - lo) % size < 4)).map
    fun a => (a - lo) / size).eraseDups).map fun i => lo + size * i

/-- The logs read at the start (R487): the newest entry of each is the one with the highest SEQ; a fault-log entry whose CV fails, or that cannot be
read, is skipped and counted. -/
def readLogs (s : State) : State :=
  let logs := ringEntries 0x5000 32 2048 s
  let good (a : Nat) : Bool := readable s a 32 && cvOk (mramBytes s a 32) 28
  let newest (as : List Nat) : Nat := (as.map fun a => uAt (mramBytes s a 4) 0 4).foldl max 0
  let skipped := (logs.filter fun a => !good a).length
  let s := { s with life := { s.life with
    logSeq := newest (logs.filter good), modeSeq := newest ((ringEntries 0x1080 16 248 s).filter fun a => readable s a 16)
    logCvSkipped := min (2 ^ 32 - 1) (s.life.logCvSkipped + skipped) } }
  if skipped = 0 then s else touchGroup 9 s

/-- The head history of a port from its record and from what BOOT has counted on die since the presence filters started (R249, R486). -/
def joinHist (h b : HeadHist) : HeadHist :=
  let h := if b.insertions = 0 then h
    else if h.serial = b.serial then { h with typeId := b.typeId }
    else { h with serial := b.serial, prevSerial := h.serial, typeId := b.typeId, insertions := h.insertions + 1, firstSeen := b.firstSeen }
  { h with headFaults := h.headFaults + b.headFaults, headLosses := h.headLosses + b.headLosses }

/-- The records read from the MRAM to the die: repair map, logs, head and lane histories (17.1 to 17.3). -/
def readRecords (s : State) : State :=
  let s := readLogs s
  let hist (p : Nat) : HeadHist :=
    let b := mramBytes s (0x3000 + 256 * p) 256
    if readable s (0x3000 + 256 * p) 256 && cvOk b 252 then { headHistOfBytes b with
      firingTicks := nthOr s.life.nv.firingSec p 0 * 800000000, presentTicks := nthOr s.life.nv.presentSec p 0 * 800000000 } else {}
  let lane (i : Nat) : LaneHist :=
    let b := mramBytes s (0x4000 + 256 * i) 256
    if readable s (0x4000 + 256 * i) 256 && cvOk b 252 then laneHistOfBytes b else {}
  let booted := s.life.heads
  let s := { s with
    sys := { s.sys with prior := historyPrior s }
    life := { s.life with
      repairSeq := (storedRepairs s).1, repairs := (storedRepairs s).2
      heads := Vector.ofFn fun i => hist i.val, lanes := Vector.ofFn fun i => lane i.val } }
  (List.range 16).foldl (fun s p => let b := nthOr booted p {}; if b = {} then s else setHeadHist p (fun h => joinHist h b) s) s

/-- Verup reads the life memory at step 4 of R44: what it meets of words in error takes effect (R492, R495) before a record is taken to the die. The host
area is not read. -/
def readLife (s : State) : State := readRecords (meetWords 0 0xD5000 (readHeader s))

/-- The current calendar record, if one is valid (R481). -/
def storedCalendar (s : State) : Option Calendar :=
  (currentCopy (calendarGood s) (fun i => uAt (calendarCopy s i) 0 4)).map fun i => calendarOfBytes (calendarCopy s i)

/-- The calendar at a start: an unclean end, the kind of start, and the time in KEEPALIVE are counted (R491, Table 17.5). -/
def startCalendar (c : Calendar) (s : State) : Calendar :=
  { c with
    unclean := if c.clean then c.unclean else wrapAdd 32 c.unclean 1
    coldStarts := if s.sys.coldStart then wrapAdd 32 c.coldStarts 1 else c.coldStarts
    warmResets := if s.sys.coldStart then c.warmResets else wrapAdd 32 c.warmResets 1
    keepaliveS := if s.fawn.held then wrapAdd 64 c.keepaliveS (rtcSeconds s - s.fawn.heldSince) else c.keepaliveS }

/-- The fault-log entry of an unclean end (R491). What the part cannot know of that moment, and LEVEL and SOURCE of a RESET entry, are free (log 3). -/
def logUnclean (s : State) : State :=
  let f (n : Nat) : Nat := Config.freeNat (s.free + n)
  let body : List Byte := [3, 0] ++ leBytes 1 (f 0 % 256) ++ leBytes 1 (f 1 % 256) ++ leBytes 8 (f 2 % 2 ^ 64) ++ leBytes 4 (f 3 % 2 ^ 32) ++
    leBytes 2 0xFFFF ++ leBytes 1 (f 4 % 256) ++ [0] ++ leBytes 4 0xFFFFFFFF
  pushLog body { s with free := s.free + 5 }

/-- TB at step 4 of R44 (R500): from the RTC, else from the calendar, which then sets the RTC, else it goes on. -/
def startTime (c : Option Calendar) (s : State) : State :=
  let invalid (status tb : Nat) (s : State) : State := emit { code := 0x1701, source := lifeSource, status := status, payload := leBytes 8 tb ++ zeros 8 } s
  if s.fawn.valid then stepTb 1 (rtcNs s) s
  else match c with
    | some c => invalid 0 c.lastTb (setFawn (fun w => { w with rtc := ticksOfNs c.lastTb, phase := 0 }) (stepTb 1 c.lastTb s))
    | none => invalid 1 s.time.tb.toNat s

/-- The mode-history entries of a stay in KEEPALIVE (R491): the first with the time of the last flush, the second with the present time. The mode before
is the NEW of the newest entry, BOOT included (R487); where it is unknown, and for both causes, the values are free (log 3). -/
def logKeepalive (lastTb : Nat) (s : State) : State :=
  if !s.fawn.held then s
  else
    let f (n : Nat) : Nat := Config.freeNat (s.free + n)
    let old : Nat := (historyNewest s).getD (f 0 % 256)
    let s := { s with free := s.free + 3 }
    let s := pushModeEntry (leBytes 1 old ++ leBytes 1 Mode.keepalive.code ++ leBytes 2 (f 1 % 65536) ++ leBytes 8 lastTb) s
    pushModeEntry (modeBody .keepalive .boot (f 2 % 65536) s.time.tb) s

/-- Step 4 of R44 in the life memory and the Fawn domain: the records read, the start counted, TB set, WAKE_N released. -/
def startLife (findings : List LifeFinding) (s : State) : State :=
  let s := readLife (findings.foldl damage s)
  let s := if lifeWritable s then writeHeader { s.life.hdr with boots := wrapAdd 32 s.life.hdr.boots 1 } s else s
  let c := storedCalendar s
  let cal := c.getD {}
  let s := { s with life := { s.life with cal := startCalendar cal s } }
  let s := if c.isSome && !cal.clean then logUnclean s else s
  let s := logKeepalive cal.lastTb (startTime c s)
  setFawn (fun w => { w with wake := false, cause := .supply, held := false }) s

/-- The decoders after the start self-test: eight in service and the ninth standing by (R138). -/
def startDecoders (s : State) : State :=
  { s with codec := { s.codec with decoders := Vector.ofFn fun i => { use := if i.val < 8 then .inService else .standby } } }

/-- Entry into CONFIGURE from BOOT: the ring starts empty, `ev.mode` comes first, then what has been held, DEFERRED (R81, R530). -/
def enterConfigure (s : State) : State :=
  let held := s.evr.held
  let s : State := { s with evr := { limits := s.evr.limits, dirtyGroups := s.evr.dirtyGroups, gap := s.evr.gap }
                            sys := { s.sys with phase := .running, stage := 0xF, coldStart := false } }
  held.foldl (fun s e => writeEvent { e with flags := e.flags + 0x10 } s) (changeMode .configure causeStart s)

/-- The map entries that step 2 skipped are marked and reported (R390, Table 17.7). -/
def reportSkipped (s : State) : State :=
  s.mem.skipped.foldl (fun s i =>
    let e := (s.life.repairs.getD i []).set 1 1
    evMemRepair 1 e i (putRepairs (s.life.repairs.set i e) s)) s

/-- A chip latch taken while Verup was starting, where Table 2.3 has no way into SAFESTOP, leads there from CONFIGURE (DEDUCED, log 9). -/
def stopAtStart (s : State) : State :=
  match latchedAt s chipInst with
  | some c => if s.sys.mode = .safestop then s else enterSafestop c s
  | none => s

/-- VERUP_STARTED (R44, R482, R102): Verup's start ends in CONFIGURE; the links and the waveform streams start. `findings` are what has befallen the life
memory by then, and `ver` is SYS_VERUP_VER of the image. Verup uses the control banks from now on. A warm reset that is asked for comes first (R41). -/
def execVerupStarted (findings : List LifeFinding) (ver : Word) (s : State) : Host.Outcome State Fault Refusal :=
  .next (if s.sys.resetPending then s else match s.sys.phase with
    | .starting =>
      let s := useBanks (416 * 8192) (448 * 8192) s
      let s := startDecoders (startLife findings { s with sys := { s.sys with verupVer := ver }, life := { s.life with wbAt := s.clock } })
      let lifeBad := !s.life.headerOk || s.life.noSpare
      let s := { s with life := { s.life with noSpare := false } }
      let s := startStreams (startLink 1 (startLink 0 (reportSkipped (enterConfigure s))))
      let s := stopAtStart (if lifeBad then raiseFault .lifFail lifeSource 0xFFFF s else s)
      if s.sys.pwrFailN then s else raiseFault .powerFail 0 0xFFFF (startFlush 5 s)
    | _ => s)

end Sys2Proof.Machine
end

