-- ==== Sys2Proof/Machine/Ether.lean ====
section
/-! DEFINITION. The Ethernet port: its settings and link (R460), received frames (R461, R462), the launch-time queue (R472, R473) and the
transmit-timestamp queue (R474). -/
namespace Sys2Proof.Machine

/-- SOURCE of the Ethernet MAC (Table 14.1). -/
def ethSource : Nat := 0x62

/-- The port works: Verup runs and the block is not stopped (R405). -/
def ethRuns (s : State) : Bool := s.sys.phase == .running && s.sys.mode != .keepalive && !isStopped s ethSource

/-- The Ethernet port changed. -/
def setEth (f : Eth → Eth) (s : State) : State := { s with eth := f s.eth }

/-- An Ethernet counter changed (R533). -/
def countEth (f : Eth → Eth) (s : State) : State := touchGroup 3 (setEth f s)

/-- The unsigned field of n bytes at an offset, most significant byte first, as Ethernet and PTP carry numbers. -/
def beAt (p : List Byte) (off n : Nat) : Nat := leNat ((p.drop off).take n).reverse

/-! ## Settings -/

/-- `eth.config` (Table 18.5). -/
def ethSpecs : List PSpec :=
  [ ⟨1, 1, 0, 2 ^ 48 - 1, none⟩, ⟨2, 1, 0, 3, some 0⟩, ⟨3, 1, 0, 1, some 0⟩, ⟨4, 1, 0, 1, some 0⟩, ⟨5, 1, 0, 4094, some 0⟩, ⟨6, 16, 0, 2 ^ 48 - 1, some 0⟩,
    ⟨7, 1, 0, 2 ^ 63 - 1, none⟩, ⟨8, 1, 16, 1024, some 64⟩ ]

def macAddress (s : State) : Nat := pnat s.eth.params 1 0 0
def ethSpeed (s : State) : Nat := pnat s.eth.params 2 0 0
def ethVid (s : State) : Nat := pnat s.eth.params 5 0 0
def rxSlots (m : ParamSet) : Nat := pnat m 8 0 64

/-- The ring lies at a multiple of 64 in the initialised range, and RX_SLOTS is a power of 2 (R462). -/
def ethRelation (s : State) (m : ParamSet) : Option (List Nat) :=
  if !([16, 32, 64, 128, 256, 512, 1024].contains (rxSlots m)) then some [8]
  else match pfind m 7 0 with
    | none => none
    | some b => if b.toNat % 64 ≠ 0 ∨ uninitRange s b.toNat (2048 * rxSlots m) then some [7, 8] else none

/-- `eth.config` (R460 to R462); a ring set anew is empty. -/
def ethConfig (p : List Byte) (s : State) : Reply × State :=
  if listTarget p 0 ≠ 0 then refuse .badArg 0 s
  else match judgeList ethSpecs (ethRelation s) s.eth.params (listItems p 0) with
    | .error d => refuse .badArg d s
    | .ok m =>
      let same := pfind m 7 0 == pfind s.eth.params 7 0 && rxSlots m == rxSlots s.eth.params
      okWith [] (setEth (fun e => { e with params := m, rxWrite := if same then e.rxWrite else 0, rxRead := if same then e.rxRead else 0 }) s)

/-- ETH_CONFIG (R460). -/
def execEthConfig (s : State) : Host.Outcome State Fault Refusal := .next (runCommand 0x1401 ethConfig s)

/-! ## Link -/

/-- LINK and SPEED take new values; every change is reported (R460). -/
def setEthLink (up : Bool) (speed : Nat) (s : State) : State :=
  if s.eth.link = up ∧ s.eth.speed = speed then s
  else emit { code := 0x1401, source := ethSource, flags := bitAt up 0, payload := leBytes 1 speed } (setEth (fun e => { e with link := up, speed := speed }) s)

/-- ETH_LINK_CHANGE (R460): the in-band status shows the link, its duplex and its speed (0 10, 1 100, 2 1000 Mbit/s), which count under AUTO; a
half-duplex link is down. -/
def execEthLinkChange (up full : Bool) (speed : Fin 3) (s : State) : Host.Outcome State Fault Refusal :=
  .next (if ethRuns s && ethSpeed s == 0 then setEthLink (up && full) speed.val s else s)

/-- An MDIO access, as the part sends it: OP, PHY, REG and, for a write, the data. -/
def mdioAccess (op phy reg data : Nat) : List Byte := leBytes 1 op ++ leBytes 1 phy ++ leBytes 1 reg ++ (if op = 1 then leBytes 2 data else [])

/-- PHY_LINK_POLL (R460): at a fixed speed Verup reads PHY register 1, which answers as given; bit 2 is the link. The PHY address it polls is not
stated (log 3). -/
def execPhyLinkPoll (answer : BitVec 16) (s : State) : Host.Outcome State Fault Refusal :=
  .next (if ethRuns s && ethSpeed s != 0 then
      setEthLink (answer.getLsbD 2) (ethSpeed s - 1) (send .mdio (mdioAccess 0 (Config.freeNat s.free % 32) 1 0) { s with free := s.free + 1 })
    else s)

/-- `eth.mdio` (R460); `answer` is what the PHY drives for a read. DATA of a write's response is not stated (log 3). -/
def ethMdio (answer : BitVec 16) (p : List Byte) (s : State) : Reply × State :=
  let op := uAt p 0 1; let phy := uAt p 1 1; let reg := uAt p 2 1
  if 1 < op then refuse .badArg 0 s
  else if 31 < phy then refuse .badArg 1 s
  else if 31 < reg then refuse .badArg 2 s
  else
    let s := send .mdio (mdioAccess op phy reg (uAt p 4 2)) s
    if op = 0 then okWith (leBytes 2 answer.toNat ++ zeros 2) s
    else let (b, s) := freeBytes2 s; okWith (b ++ zeros 2) s
where
  /-- Two free bytes. -/
  freeBytes2 (s : State) : List Byte × State := ([Config.freeByte s.free, Config.freeByte (s.free + 1)], { s with free := s.free + 2 })

/-- ETH_MDIO (R460). -/
def execEthMdio (answer : BitVec 16) (s : State) : Host.Outcome State Fault Refusal := .next (runCommand 0x1402 (ethMdio answer) s)

/-! ## Received frames -/

/-- One tag: EtherType 0x8100. -/
def isTagged (f : List Byte) : Bool := beAt f 12 2 == 0x8100

/-- EtherType and what follows it, past one tag. -/
def etherType (f : List Byte) : Nat := if isTagged f then beAt f 16 2 else beAt f 12 2
def etherPayload (f : List Byte) : List Byte := if isTagged f then f.drop 18 else f.drop 14

/-- The PTP multicast group of the configured TRANSPORT (Table 16.3). -/
def ptpGroup (s : State) : Nat := if pon s.time.params 5 0 false then 0x01005E000181 else 0x011B19000000

/-- A destination the MAC accepts (R461). -/
def destinationOk (s : State) (d : Nat) : Bool :=
  d == macAddress s || d == 2 ^ 48 - 1 || (List.range 16).any (fun i => pnat s.eth.params 6 i 0 == d && d != 0) || (timeSourcePtp s && d == ptpGroup s)

/-- The PTP message a frame carries over the configured TRANSPORT, untagged or with the VID of `eth.config`, while PTP runs (Table 16.3). -/
def ptpMessage (s : State) (f : List Byte) : Option (List Byte) :=
  let q := etherPayload f
  let ihl := 4 * (uAt q 0 1 % 16)
  if !timeSourcePtp s || (isTagged f && beAt f 14 2 % 4096 != ethVid s) then none
  else if !pon s.time.params 5 0 false then (if etherType f = 0x88F7 then some q else none)
  else if etherType f = 0x0800 ∧ uAt q 9 1 = 17 ∧ (beAt q (ihl + 2) 2 = 319 ∨ beAt q (ihl + 2) 2 = 320) then
    some ((q.drop (ihl + 8)).take (beAt q (ihl + 4) 2 - 8))
  else none

/-- messageType, domainNumber. -/
def ptpType (m : List Byte) : Nat := uAt m 0 1 % 16
def ptpDomain (m : List Byte) : Nat := uAt m 4 1

/-- A message of Table 16.3's row of ignored ones: its type, versionPTP, majorSdoId or domainNumber. -/
def ptpIgnored (s : State) (m : List Byte) : Bool :=
  [2, 3, 0xA, 0xC, 0xD].contains (ptpType m) || uAt m 1 1 % 16 != 2 || uAt m 0 1 / 16 != 0 || ptpDomain m != pnat s.time.params 6 0 0

/-- The messages a slave uses, each with its length: Sync, Follow_Up, Delay_Resp, Announce (Table 16.3). -/
def ptpUsed : List (Nat × Nat) := [(0, 44), (8, 44), (9, 54), (0xB, 64)]

/-- A frame put into the host receive ring, or dropped and counted where it has no free slot (R462). -/
def ringFrame (f : List Byte) (s : State) : State :=
  let e := s.eth
  match pfind e.params 7 0 with
  | none => countEth (fun e => { e with rxRingFull := wrapAdd 32 e.rxRingFull 1 }) s
  | some b =>
    if rxSlots e.params ≤ e.rxWrite - e.rxRead then countEth (fun e => { e with rxRingFull := wrapAdd 32 e.rxRingFull 1 }) s
    else
      let a := b.toNat + 2048 * (e.rxWrite % rxSlots e.params)
      let d := leBytes 2 f.length ++ leBytes 2 (bitAt (isTagged f) 0) ++ leBytes 4 e.rxSeq ++ leBytes 8 s.time.tb.toNat
      let s := dramWrite 6 a (d ++ f) (setEth (fun e => { e with rxWrite := e.rxWrite + 1, rxSeq := (e.rxSeq + 1) % 2 ^ 32 }) s)
      if e.rxWrite = e.rxRead then
        emit { code := 0x1402, source := ethSource, payload := leBytes 2 (s.eth.rxWrite % rxSlots e.params) } s
      else s

/-- An accepted frame: a PTP message of the configured domain goes to Verup, all else to the host ring; ignored messages are counted (R461, Table 16.3). -/
def deliverFrame (f : List Byte) (s : State) : State :=
  let s := countEth (fun e => { e with rxFrames := wrapAdd 32 e.rxFrames 1 }) s
  match ptpMessage s f with
  | none => ringFrame f s
  | some m =>
    let s := if ptpIgnored s m then touchGroup 3 (setPtp (fun q => { q with ignored := wrapAdd 32 q.ignored 1 }) s) else s
    if ptpDomain m ≠ pnat s.time.params 6 0 0 then ringFrame f s
    else if ptpIgnored s m || !(ptpUsed.any fun e => e.1 == ptpType m && decide (e.2 ≤ m.length)) then s
    else setPtp (fun q => { q with inbox := q.inbox ++ [(s.time.tb.toNat, m)] }) s

/-- ETH_FRAME_RECEIVED (R461): a frame without its FCS, and whether that is right. Lengths count the FCS. -/
def execEthFrameReceived (f : List Byte) (fcsOk : Bool) (s : State) : Host.Outcome State Fault Refusal :=
  let n := f.length + 4
  .next (if !(ethRuns s && s.eth.link) then s
    else if !fcsOk then countEth (fun e => { e with rxFcs := wrapAdd 32 e.rxFcs 1 }) s
    else if n < 64 then countEth (fun e => { e with rxShort := wrapAdd 32 e.rxShort 1 }) s
    else if 1522 < n then countEth (fun e => { e with rxLong := wrapAdd 32 e.rxLong 1 }) s
    else if etherType f = 0x8808 ∧ beAt (etherPayload f) 0 2 = 1 then countEth (fun e => { e with rxPause := wrapAdd 32 e.rxPause 1 }) s
    else if !destinationOk s (beAt f 0 6) then countEth (fun e => { e with rxFiltered := wrapAdd 32 e.rxFiltered 1 }) s
    else deliverFrame f s)

/-- `eth.rxack` (R462). -/
def ethRxack (p : List Byte) (s : State) : Reply × State :=
  let n := uAt p 0 2
  if s.eth.rxWrite - s.eth.rxRead < n then refuse .badArg 0 s else okWith [] (setEth (fun e => { e with rxRead := e.rxRead + n }) s)

/-- ETH_RXACK (R462). -/
def execEthRxack (s : State) : Host.Outcome State Fault Refusal := .next (runCommand 0x1404 ethRxack s)

/-! ## The launch-time queue -/

/-- The latest T queued. -/
def latestT (s : State) : Option Nat := (s.eth.queue.getLast?).map (·.t)

/-- `eth.send` (R472). FLAGS: 1 ASAP, 2 TS, 4 NOTIFY; another bit set is a value out of range (DESIGN CHOICE, log 25). -/
def ethSend (p : List Byte) (s : State) : Reply × State :=
  let a := uAt p 0 8; let n := uAt p 8 2; let fl := uAt p 12 1; let late := uAt p 24 4
  let tb := s.time.tb.toNat
  let asap := bitOf fl 0
  let t := if asap then (latestT s).getD tb else uAt p 16 8
  if a % 64 ≠ 0 ∨ beyondFitted s a n then refuse .badArg 0 s
  else if n < 60 ∨ 1522 < n then refuse .badArg 8 s
  else if 7 < fl then refuse .badArg 12 s
  else if 30 ≤ (s.eth.queue.filter fun e => !e.own).length then refuse .noSpace 0 s
  else if uninitRange s a n then refuse .uninit 0 s
  else match dramRead 6 a n s with
    | (none, s) => refuse .poison 0 s
    | (some f, s) =>
      if 1518 < n ∧ !isTagged f then refuse .badArg 8 s
      else if !s.eth.link then refuse .noLink 0 s
      else if !asap ∧ ((latestT s).any (fun l => decide (tbDiff t l < 0)) ∨ 2 ^ 39 ≤ tbDiff t tb) then refuse .badArg 16 s
      else if !asap ∧ tbDiff t tb < -(late : Int) then refuse .expired 0 s
      else
        let x : TxEntry := { frame := f, t := t, asap := asap, lateWin := late, ts := bitOf fl 1, tsId := uAt p 10 2, notify := bitOf fl 2 }
        okWith [] (setEth (fun e => { e with queue := e.queue ++ [x] }) s)

/-- ETH_SEND (R472). -/
def execEthSend (s : State) : Host.Outcome State Fault Refusal := .next (runCommand 0x1403 ethSend s)

/-- One bit of the reflected CRC-32 of Ethernet. -/
def fcsBit (c : BitVec 32) : BitVec 32 := if c.getLsbD 0 then (c >>> 1) ^^^ 0xEDB88320 else c >>> 1

/-- The frame check sequence of IEEE 802.3. -/
def ethFcs (f : List Byte) : BitVec 32 :=
  ~~~ f.foldl (fun c b => [0, 0, 0, 0, 0, 0, 0, 0].foldl (fun c (_ : Nat) => fcsBit c) (c ^^^ b.setWidth 32)) 0xFFFFFFFF

/-- A frame as sent: padded to 60 bytes, with its FCS (R461). -/
def wireBytes (f : List Byte) : List Byte :=
  let g := f ++ zeros (60 - f.length)
  g ++ leBytes 4 (ethFcs g).toNat

/-- One bit time in ns, and one ETH_TXC period, at a speed code. -/
def bitNs (speed : Nat) : Nat := match speed with | 0 => 100 | 1 => 10 | _ => 1
def txcNs (speed : Nat) : Nat := match speed with | 0 => 400 | 1 => 40 | _ => 8

/-- `ev.eth_tx` (Table 19.8). -/
def evEthTx (st : Status) (x : TxEntry) (lateness start : Nat) (s : State) : State :=
  emit { code := 0x1403, source := ethSource, status := st.code
         payload := leBytes 2 x.tsId ++ zeros 2 ++ leBytes 4 (min lateness (2 ^ 32 - 1)) ++ leBytes 8 start } s

/-- A transmit timestamp queued, or lost where 16 are (R474). -/
def pushStamp (x : TxEntry) (st : Status) (start : Nat) (s : State) : State :=
  if 16 ≤ s.eth.stamps.length then countEth (fun e => { e with tsLost := satAdd 32 e.tsLost 1 }) s
  else
    let s1 := setEth (fun e => { e with stamps := e.stamps ++ [(x.tsId, st.code, start)] }) s
    if s.eth.stamps.isEmpty then emit { code := 0x1404, source := ethSource, payload := leBytes 1 1 } s1 else s1

/-- The frame at the head leaves at a start time with a lateness (R473, R474); Verup takes t₃ from its own. -/
def launchFrame (x : TxEntry) (start lateness : Nat) (s : State) : State :=
  let st : Status := if lateness = 0 then .ok else .late
  let b := wireBytes x.frame
  let s := send .eth b (countEth (fun e => { e with
    txFrames := wrapAdd 32 e.txFrames 1, txLate := if lateness = 0 then e.txLate else wrapAdd 32 e.txLate 1
    macFree := s.clock + ceilDiv (4 * (8 * (b.length + 20) * bitNs e.speed)) 5 }) s)
  let s := if lateness ≠ 0 ∨ x.notify then evEthTx st x lateness start s else s
  let s := if x.ts then pushStamp x st start s else s
  if x.own then setPtp (fun q => { q with t3 := some (((start : Int) + pnat s.time.params 11 0 0) * 65536) }) s else s

/-- ETH_LAUNCH (R473): the entry at the head of the queue leaves at the edge of ETH_TXC at or after its T, or once the MAC is free; or it is dropped. -/
def execEthLaunch (s : State) : Host.Outcome State Fault Refusal :=
  .next (match s.eth.queue with
    | [] => s
    | x :: rest =>
      let tb := s.time.tb.toNat
      let off := setEth (fun e => { e with queue := rest })
      if !ethRuns s then s
      else if !s.eth.link then evEthTx .noLink x 0 0 (countEth (fun e => { e with txNoLink := wrapAdd 32 e.txNoLink 1 }) (off s))
      else if tbDiff tb x.t < 0 ∨ s.clock < s.eth.macFree then s
      else
        let past := (tbDiff tb x.t).toNat
        let idle := past * 4 ≤ (s.clock - s.eth.macFree) * 5
        let lateness := if idle ∧ past ≤ txcNs s.eth.speed then 0 else past
        if x.lateWin < lateness then evEthTx .expired x lateness 0 (countEth (fun e => { e with txExpired := wrapAdd 32 e.txExpired 1 }) (off s))
        else launchFrame x tb lateness (off s))

/-- `eth.tsread` (R474). -/
def ethTsread (p : List Byte) (s : State) : Reply × State :=
  let n := uAt p 0 1
  if n = 0 ∨ 16 < n then refuse .badArg 0 s
  else
    let l := s.eth.stamps.take n
    okWith (leBytes 1 l.length ++ zeros 3 ++ l.flatMap fun e => leBytes 2 e.1 ++ leBytes 2 e.2.1 ++ leBytes 8 e.2.2)
      (setEth (fun e => { e with stamps := e.stamps.drop n }) s)

/-- ETH_TSREAD (R474). -/
def execEthTsread (s : State) : Host.Outcome State Fault Refusal := .next (runCommand 0x1405 ethTsread s)

end Sys2Proof.Machine
end

