-- ==== Sys2Proof/Machine/Ptp.lean ====
section
/-! DEFINITION. The PTP slave (R463 to R465): best-master comparison, the offset θ, the servo, and the messages Verup takes and sends. Message
layouts are those of IEEE 1588-2019 (log 34). -/
namespace Sys2Proof.Machine

/-! ## Messages -/

/-- CLOCK_ID as set, or the MAC address with FF FE after its third octet (Table 16.1). -/
def clockId (s : State) : Nat :=
  match pfind s.time.params 8 0 with
  | some v => ofSigned 64 v
  | none => macAddress s / 2 ^ 24 * 2 ^ 40 + 0xFFFE000000 + macAddress s % 2 ^ 24

/-- sourcePortIdentity, sequenceId, logMessageInterval, and correctionField in 2⁻¹⁶ ns. -/
def ptpPort (m : List Byte) : Nat := beAt m 20 10
def ptpSeq (m : List Byte) : Nat := beAt m 30 2
def ptpLog (m : List Byte) : Int := toSigned 8 (uAt m 33 1)
def ptpCorrection (m : List Byte) : Int := toSigned 64 (beAt m 8 8)

/-- A timestamp of 10 bytes in 2⁻¹⁶ ns. -/
def ptpStamp (m : List Byte) (off : Nat) : Int := ((beAt m off 6 * 1000000000 + beAt m (off + 6) 4 : Nat) : Int) * 65536

/-- The first message Verup has been given, where it is of the type asked for. -/
def takeMessage (type : Nat) (s : State) : Option ((Nat × List Byte) × State) :=
  match s.time.ptp.inbox with
  | [] => none
  | x :: rest =>
    if ethRuns s && timeSourcePtp s && ptpType x.2 == type then some (x, setPtp (fun q => { q with inbox := rest }) s) else none

/-- CORE clocks in 2^k s. -/
def secondsTicks (k : Int) : Nat := if 0 ≤ k then 800000000 * 2 ^ k.toNat else 800000000 / 2 ^ (-k).toNat

/-! ## Best master -/

/-- A foreign master that counts: 2 Announces within 4 announce intervals. -/
def qualified (s : State) (f : Foreign) : Bool := decide (2 ≤ (f.seen.filter fun t => s.clock ≤ t + 4 * secondsTicks f.interval).length)

/-- The data-set comparison of the standard: with one grandmaster fewer steps, then the lower identity; else the lower data set. -/
def betterMaster (a b : Foreign) : Bool :=
  if a.dataset % 2 ^ 64 = b.dataset % 2 ^ 64 then decide (a.steps < b.steps) || (a.steps == b.steps && decide (a.port < b.port))
  else decide (a.dataset < b.dataset)

/-- The best of the qualified foreign masters. -/
def bestMaster (s : State) : Option Foreign :=
  (s.time.ptp.foreign.filter (qualified s)).foldl (fun b f => match b with | none => some f | some x => some (if betterMaster f x then f else x)) none

/-- The foreign master an Announce describes, with this arrival added to those kept. -/
def announcedBy (s : State) (m : List Byte) : Foreign :=
  let old := match s.time.ptp.foreign.find? fun f => f.port = ptpPort m with | some f => f.seen | none => []
  { port := ptpPort m
    dataset := ((((beAt m 47 1 * 2 ^ 8 + beAt m 48 1) * 2 ^ 8 + beAt m 49 1) * 2 ^ 16 + beAt m 50 2) * 2 ^ 8 + beAt m 52 1) * 2 ^ 64 + beAt m 53 8
    steps := beAt m 61 2, seen := (s.clock :: old).take 5, interval := ptpLog m }

/-- A master is selected: acquisition starts (R464). -/
def selectMaster (f : Foreign) (s : State) : State :=
  evPtpState 1 f.port (setPtp (fun q => { q with
    state := .acquiring, slewSaid := false, master := some f.port, announceAt := s.clock, awaiting := none, t3 := none, back := none, syncs := 0, good := 0, bad := 0 }) s)

/-- PTP_ANNOUNCE_RECEIVED (R463, R465). -/
def execPtpAnnounceReceived (s : State) : Host.Outcome State Fault Refusal :=
  .next (match takeMessage 0xB s with
    | none => s
    | some ((_, m), s) =>
      if ptpPort m / 65536 = clockId s ∨ 255 ≤ beAt m 61 2 then s
      else
        let f := announcedBy s m
        let s := setPtp (fun q => { q with
          foreign := f :: q.foreign.filter fun x => x.port ≠ f.port, announceAt := if q.master = some f.port then s.clock else q.announceAt }) s
        match bestMaster s, s.time.ptp.master with
        | some b, none => selectMaster b s
        | some b, some k => if b.port = k then s else enterHoldover s
        | none, _ => s)

/-- ANNOUNCE_TIMEOUT (R465): ANN_TIMEOUT announce intervals have passed without an Announce of the selected master. -/
def execAnnounceTimeout (s : State) : Host.Outcome State Fault Refusal :=
  .next (match s.time.ptp.master with
    | none => s
    | some k =>
      let iv := match s.time.ptp.foreign.find? fun f => f.port = k with | some f => f.interval | none => 1
      if s.time.ptp.announceAt + pnat s.time.params 7 0 3 * secondsTicks iv ≤ s.clock then enterHoldover s else s)

/-! ## Offset and servo -/

/-- The servo's next r and integral term: the PI filter's coefficients are not stated, so both are free values within ±1000 ppm (log 3). -/
def servoSteers (s : State) : State :=
  { s with free := s.free + 2, time := { s.time with
    r := clampRate (Config.freeInt s.free), ptp := { s.time.ptp with integral := clampRate (Config.freeInt (s.free + 1)) } } }

/-- PTP removes an offset θ above STEP_T in acquisition by a step where it may, else by slewing (R457, R464, R477); the launch times kept go with a
step. At the start of slewing `ev.ptp_state` reports the offset (R465), as ACQUIRING, the state in which it is found (DEDUCED, log 34). -/
def removeOffset (θ : Int) (s : State) : State :=
  if stepAllowed s && !s.time.slewOnly then
    let ns := θ / 65536
    stepTb 4 (ofSigned 64 (s.time.tb.toNat - ns)) (setPtp (fun q => { q with back := q.back.map (· + ns * 65536), t3 := q.t3.map (· - ns * 65536) }) s)
  else
    let s := startSlew (-θ) s
    match s.time.ptp.master with
    | some k => if s.time.ptp.slewSaid then s else evPtpState 1 k (setPtp (fun q => { q with slewSaid := true }) s)
    | none => s

/-- The PTP state after an offset (R464). -/
def judgeLock (θ : Int) (s : State) : State :=
  let lock : Nat := lockT s * 65536
  let s := setPtp (fun q => { q with
    good := if θ.natAbs ≤ lock then q.good + 1 else 0, bad := if 4 * lock < θ.natAbs then q.bad + 1 else 0 }) s
  let q := s.time.ptp
  match q.state, q.master with
  | .acquiring, some k => if 16 ≤ q.good then evPtpState 2 k (setPtp (fun q => { q with state := .locked, slewSaid := false }) { s with time := { s.time with slewOnly := false } }) else s
  | .locked, some k => if 4 ≤ q.bad then evPtpState 1 k (setPtp (fun q => { q with state := .acquiring, syncs := 0, good := 0 }) s) else s
  | _, _ => s

/-- A Sync with its origin time known: t₂ − t₁ with every correction applied (R464). No θ can be formed before the first Delay_Resp. -/
def syncOffset (a : Int) (s : State) : State :=
  let s := setPtp (fun q => { q with syncs := q.syncs + 1 }) s
  match s.time.ptp.back with
  | none => s
  | some b =>
    let θ := (a - b) / 2
    let s := setPtp (fun q => { q with theta := θ }) s
    let s := if discipline s ≠ .ptp then s
      else
        let s := servoSteers s
        if s.time.ptp.state = .acquiring ∧ 4 ≤ s.time.ptp.syncs ∧ stepT s * 65536 < θ.natAbs then removeOffset θ s else s
    judgeLock θ s

/-- PTP_SYNC_RECEIVED (R464): t₂ is the TB of the arrival less RX_LAT, with a jitter of at most ±60 ns (KL-01). -/
def execPtpSyncReceived (jitter : Int) (s : State) : Host.Outcome State Fault Refusal :=
  .next (if 60 < jitter.natAbs then s
    else match takeMessage 0 s with
    | none => s
    | some ((at_, m), s) =>
      if s.time.ptp.master ≠ some (ptpPort m) ∨ ptpLog m < -7 ∨ 1 < ptpLog m then s
      else
        let t2 := ((at_ : Int) - pnat s.time.params 10 0 0 + jitter) * 65536 - ptpCorrection m
        if bitOf (uAt m 6 1) 1 then setPtp (fun q => { q with awaiting := some { seq := ptpSeq m, t2 := t2 } }) s
        else syncOffset (t2 - ptpStamp m 34) s)

/-- PTP_FOLLOW_UP_RECEIVED (R464). -/
def execPtpFollowUpReceived (s : State) : Host.Outcome State Fault Refusal :=
  .next (match takeMessage 8 s with
    | none => s
    | some ((_, m), s) =>
      match s.time.ptp.awaiting with
      | none => s
      | some w =>
        if s.time.ptp.master ≠ some (ptpPort m) ∨ w.seq ≠ ptpSeq m then s
        else syncOffset (w.t2 - ptpStamp m 34 - ptpCorrection m) (setPtp (fun q => { q with awaiting := none }) s))

/-- PTP_DELAY_RESP_RECEIVED (R464): t₄ of the Delay_Req under way, and the interval of the next. -/
def execPtpDelayRespReceived (s : State) : Host.Outcome State Fault Refusal :=
  .next (match takeMessage 9 s with
    | none => s
    | some ((_, m), s) =>
      match s.time.ptp.t3 with
      | none => s
      | some t3 =>
        if s.time.ptp.master ≠ some (ptpPort m) ∨ beAt m 44 10 ≠ clockId s * 65536 + 1 ∨ ptpSeq m ≠ s.time.ptp.dreqSeq then s
        else setPtp (fun q => { q with t3 := none, back := some (ptpStamp m 34 - ptpCorrection m - t3), dreqLog := max (-7) (ptpLog m) }) s)

/-! ## Delay_Req -/

/-- A Delay_Req message (Table 16.3). -/
def delayReq (sq : Nat) (s : State) : List Byte :=
  [0x01, 0x12] ++ beBytes 2 44 ++ leBytes 1 (pnat s.time.params 6 0 0) ++ zeros 3 ++ zeros 8 ++ zeros 4 ++ beBytes 8 (clockId s) ++ beBytes 2 1 ++ beBytes 2 sq ++
    [0x01, 0x7F] ++ zeros 10

/-- The Internet checksum of a header. -/
def ipChecksum (h : List Byte) : Nat :=
  let sum := ((List.range (h.length / 2)).map fun i => beAt h (2 * i) 2).sum
  let once := sum % 65536 + sum / 65536
  65535 - (once % 65536 + once / 65536)

/-- A message as an Ethernet frame over the configured TRANSPORT, tagged when VID is not 0 (Table 16.3). The identification of an IPv4 packet is
not stated (log 3). -/
def ptpFrame (m : List Byte) (s : State) : List Byte × State :=
  let tag := if ethVid s = 0 then [] else beBytes 2 0x8100 ++ beBytes 2 (ethVid s)
  let head := beBytes 6 (ptpGroup s) ++ beBytes 6 (macAddress s) ++ tag
  if pon s.time.params 5 0 false then
    let ip (ck : Nat) : List Byte := [0x45, 0] ++ beBytes 2 (28 + m.length) ++ [Config.freeByte s.free, Config.freeByte (s.free + 1)] ++ zeros 2 ++ [1, 17] ++
      beBytes 2 ck ++ beBytes 4 (pnat s.time.params 9 0 0) ++ [224, 0, 1, 129]
    let udp := beBytes 2 319 ++ beBytes 2 319 ++ beBytes 2 (8 + m.length) ++ zeros 2
    (head ++ beBytes 2 0x0800 ++ ip (ipChecksum (ip 0)) ++ udp ++ m, { s with free := s.free + 2 })
  else (head ++ beBytes 2 0x88F7 ++ m, s)

/-- The wait to the next Delay_Req: randomised about the interval of the latest Delay_Resp, at least 1/128 s (R463). PRESUMED: anything up to twice
the interval, as IEEE 1588 draws it (log 34). -/
def dreqWait (s : State) : Nat := max (secondsTicks (-7)) (Config.freeNat s.free % (2 * secondsTicks s.time.ptp.dreqLog + 1))

/-- PTP_DELAY_REQ_TIMER (R463, R473): Verup queues a Delay_Req after the latest T queued, in one of its two entries. -/
def execPtpDelayReqTimer (s : State) : Host.Outcome State Fault Refusal :=
  .next (if !(ethRuns s && timeSourcePtp s && s.time.ptp.master.isSome && s.eth.link) || decide (s.clock < s.time.ptp.dreqNext) || decide (2 ≤ (s.eth.queue.filter (·.own)).length) then s
    else
      let sq := (s.time.ptp.dreqSeq + 1) % 65536
      let (f, s) := ptpFrame (delayReq sq s) (setPtp (fun q => { q with dreqSeq := sq, t3 := none, dreqNext := s.clock + dreqWait s }) { s with free := s.free + 1 })
      let x : TxEntry := { frame := f, t := (latestT s).getD s.time.tb.toNat, asap := true, lateWin := 2 ^ 32 - 1, ts := false, tsId := 0, notify := false, own := true }
      setEth (fun e => { e with queue := e.queue ++ [x] }) s)

end Sys2Proof.Machine
end

