-- ==== Sys2Proof/Machine/Dispatch.lean ====
section
/-! DEFINITION. The one table of meanings: one arm for each constructor of Instr, each a direct call of its meaning. -/
namespace Sys2Proof.Machine

def exec (i : Instr) (s : State) : Host.Outcome State Fault Refusal :=
  match i with
  | .mainSuppliesFall => Sys2Proof.Machine.execMainSuppliesFall s
  | .mainSuppliesValid lgcy unitB hold slot1 => Sys2Proof.Machine.execMainSuppliesValid lgcy unitB hold slot1 s
  | .resetNFall => Sys2Proof.Machine.execResetNFall s
  | .warmResetFlushDone lgcy unitB hold slot1 => Sys2Proof.Machine.execWarmResetFlushDone lgcy unitB hold slot1 s
  | .resetNRise lgcy unitB hold slot1 => Sys2Proof.Machine.execResetNRise lgcy unitB hold slot1 s
  | .pllsLocked => Sys2Proof.Machine.execPllsLocked s
  | .sramSweepDone => Sys2Proof.Machine.execSramSweepDone s
  | .bootImageLoaded body => Sys2Proof.Machine.execBootImageLoaded body s
  | .verupStarted findings ver => Sys2Proof.Machine.execVerupStarted findings ver s
  | .pwrFailNFall => Sys2Proof.Machine.execPwrFailNFall s
  | .sysResetWrite p v => Sys2Proof.Machine.execSysResetWrite p v s
  | .sysSafestopWrite p v => Sys2Proof.Machine.execSysSafestopWrite p v s
  | .mbxRing p n => Sys2Proof.Machine.execMbxRing p n s
  | .mbxAck p n => Sys2Proof.Machine.execMbxAck p n s
  | .mbxPortWrite p v => Sys2Proof.Machine.execMbxPortWrite p v s
  | .mbxEvrRdWrite p v => Sys2Proof.Machine.execMbxEvrRdWrite p v s
  | .timNowLoRead p => Sys2Proof.Machine.execTimNowLoRead p s
  | .timNowHiRead p => Sys2Proof.Machine.execTimNowHiRead p s
  | .registerWrite p o v => Sys2Proof.Machine.execRegisterWrite p o v s
  | .spiReadFrame mosi => Sys2Proof.Machine.execSpiReadFrame mosi s
  | .spiWriteFrame mosi => Sys2Proof.Machine.execSpiWriteFrame mosi s
  | .spiPortStatus => Sys2Proof.Machine.execSpiPortStatus s
  | .mailboxAccept err => Sys2Proof.Machine.execMailboxAccept err s
  | .mbxStall => Sys2Proof.Machine.execMbxStall s
  | .coreWdog => Sys2Proof.Machine.execCoreWdog s
  | .evrAgeThreshold => Sys2Proof.Machine.execEvrAgeThreshold s
  | .ringOverflowWriteout => Sys2Proof.Machine.execRingOverflowWriteout s
  | .suppressedEventReport code instNo => Sys2Proof.Machine.execSuppressedEventReport code instNo s
  | .countersReport => Sys2Proof.Machine.execCountersReport s
  | .sysReset => Sys2Proof.Machine.execSysReset s
  | .sysSafestop => Sys2Proof.Machine.execSysSafestop s
  | .sysConfigure tries => Sys2Proof.Machine.execSysConfigure tries s
  | .sysSecver => Sys2Proof.Machine.execSysSecver s
  | .cfgBar => Sys2Proof.Machine.execCfgBar s
  | .cfgHead => Sys2Proof.Machine.execCfgHead s
  | .cfgCommit => Sys2Proof.Machine.execCfgCommit s
  | .jobOpen => Sys2Proof.Machine.execJobOpen s
  | .jobStart => Sys2Proof.Machine.execJobStart s
  | .jobHold => Sys2Proof.Machine.execJobHold s
  | .jobResume => Sys2Proof.Machine.execJobResume s
  | .jobAbort => Sys2Proof.Machine.execJobAbort s
  | .jobClose tries => Sys2Proof.Machine.execJobClose tries s
  | .slicePost => Sys2Proof.Machine.execSlicePost s
  | .codecInflate => Sys2Proof.Machine.execCodecInflate s
  | .codecDeflate => Sys2Proof.Machine.execCodecDeflate s
  | .codecConfig => Sys2Proof.Machine.execCodecConfig s
  | .greyLoad => Sys2Proof.Machine.execGreyLoad s
  | .substLoad => Sys2Proof.Machine.execSubstLoad s
  | .tableSwap => Sys2Proof.Machine.execTableSwap s
  | .waveLoad => Sys2Proof.Machine.execWaveLoad s
  | .waveSwap => Sys2Proof.Machine.execWaveSwap s
  | .waveConfig => Sys2Proof.Machine.execWaveConfig s
  | .waveTest => Sys2Proof.Machine.execWaveTest s
  | .headRead tries data => Sys2Proof.Machine.execHeadRead tries data s
  | .headWrite tries back => Sys2Proof.Machine.execHeadWrite tries back s
  | .fbkConfig => Sys2Proof.Machine.execFbkConfig s
  | .fbkSet => Sys2Proof.Machine.execFbkSet s
  | .fbkCapture => Sys2Proof.Machine.execFbkCapture s
  | .fbkRead => Sys2Proof.Machine.execFbkRead s
  | .fbkOut => Sys2Proof.Machine.execFbkOut s
  | .paceConfig => Sys2Proof.Machine.execPaceConfig s
  | .paceOrigin => Sys2Proof.Machine.execPaceOrigin s
  | .paceRead => Sys2Proof.Machine.execPaceRead s
  | .maintStart => Sys2Proof.Machine.execMaintStart s
  | .maintStop => Sys2Proof.Machine.execMaintStop s
  | .auditConfig => Sys2Proof.Machine.execAuditConfig s
  | .auditStart => Sys2Proof.Machine.execAuditStart s
  | .auditStop => Sys2Proof.Machine.execAuditStop s
  | .axisConfig => Sys2Proof.Machine.execAxisConfig s
  | .axisLimits => Sys2Proof.Machine.execAxisLimits s
  | .axisMove => Sys2Proof.Machine.execAxisMove s
  | .axisStop => Sys2Proof.Machine.execAxisStop s
  | .axisResume => Sys2Proof.Machine.execAxisResume s
  | .axisHome => Sys2Proof.Machine.execAxisHome s
  | .memConfig => Sys2Proof.Machine.execMemConfig s
  | .memSweep => Sys2Proof.Machine.execMemSweep s
  | .memStatus => Sys2Proof.Machine.execMemStatus s
  | .memScrub => Sys2Proof.Machine.execMemScrub s
  | .memRepair => Sys2Proof.Machine.execMemRepair s
  | .memPpr support => Sys2Proof.Machine.execMemPpr support s
  | .memEcctest => Sys2Proof.Machine.execMemEcctest s
  | .cvuConfig => Sys2Proof.Machine.execCvuConfig s
  | .cvuRead => Sys2Proof.Machine.execCvuRead s
  | .cvuWrite => Sys2Proof.Machine.execCvuWrite s
  | .faultRead => Sys2Proof.Machine.execFaultRead s
  | .faultAck => Sys2Proof.Machine.execFaultAck s
  | .faultClear ball => Sys2Proof.Machine.execFaultClear ball s
  | .fnReinit fails pass => Sys2Proof.Machine.execFnReinit fails pass s
  | .twinConfig => Sys2Proof.Machine.execTwinConfig s
  | .twinUnpair => Sys2Proof.Machine.execTwinUnpair s
  | .twinSwap => Sys2Proof.Machine.execTwinSwap s
  | .twinResolve => Sys2Proof.Machine.execTwinResolve s
  | .twinTakeover => Sys2Proof.Machine.execTwinTakeover s
  | .timeConfig => Sys2Proof.Machine.execTimeConfig s
  | .timeSet => Sys2Proof.Machine.execTimeSet s
  | .timeAdjust => Sys2Proof.Machine.execTimeAdjust s
  | .timeSched => Sys2Proof.Machine.execTimeSched s
  | .timeCancel => Sys2Proof.Machine.execTimeCancel s
  | .timeRead => Sys2Proof.Machine.execTimeRead s
  | .ethConfig => Sys2Proof.Machine.execEthConfig s
  | .ethMdio answer => Sys2Proof.Machine.execEthMdio answer s
  | .ethSend => Sys2Proof.Machine.execEthSend s
  | .ethRxack => Sys2Proof.Machine.execEthRxack s
  | .ethTsread => Sys2Proof.Machine.execEthTsread s
  | .linkConfig => Sys2Proof.Machine.execLinkConfig s
  | .linkRetrain => Sys2Proof.Machine.execLinkRetrain s
  | .linkSpare => Sys2Proof.Machine.execLinkSpare s
  | .linkTest rx => Sys2Proof.Machine.execLinkTest rx s
  | .linkStatus => Sys2Proof.Machine.execLinkStatus s
  | .lifeConfig => Sys2Proof.Machine.execLifeConfig s
  | .lifeRead => Sys2Proof.Machine.execLifeRead s
  | .lifeCounters => Sys2Proof.Machine.execLifeCounters s
  | .lifeWrite => Sys2Proof.Machine.execLifeWrite s
  | .lifeFlush => Sys2Proof.Machine.execLifeFlush s
  | .lifeClear => Sys2Proof.Machine.execLifeClear s
  | .lifeExport => Sys2Proof.Machine.execLifeExport s
  | .lifeFormat => Sys2Proof.Machine.execLifeFormat s
  | .rtcSet => Sys2Proof.Machine.execRtcSet s
  | .rtcTrim => Sys2Proof.Machine.execRtcTrim s
  | .rtcAlarm => Sys2Proof.Machine.execRtcAlarm s
  | .svcEnter => Sys2Proof.Machine.execSvcEnter s
  | .svcExit => Sys2Proof.Machine.execSvcExit s
  | .linkDetect l => Sys2Proof.Machine.execLinkDetect l s
  | .linkLockDone l locked => Sys2Proof.Machine.execLinkLockDone l locked s
  | .linkAlignDone l => Sys2Proof.Machine.execLinkAlignDone l s
  | .linkEqualiseDone l => Sys2Proof.Machine.execLinkEqualiseDone l s
  | .linkActiveDone l => Sys2Proof.Machine.execLinkActiveDone l s
  | .linkStageTimeout l locked => Sys2Proof.Machine.execLinkStageTimeout l locked s
  | .linkStartRetry l => Sys2Proof.Machine.execLinkStartRetry l s
  | .recoveryRetrainDone l locked => Sys2Proof.Machine.execRecoveryRetrainDone l locked s
  | .train1Received l lane b => Sys2Proof.Machine.execTrain1Received l lane b s
  | .train2Received l lane b => Sys2Proof.Machine.execTrain2Received l lane b s
  | .alignReceived l lane b data => Sys2Proof.Machine.execAlignReceived l lane b data s
  | .skipReceived l lane b => Sys2Proof.Machine.execSkipReceived l lane b s
  | .eidleReceived l => Sys2Proof.Machine.execEidleReceived l s
  | .invalidBlockReceived l lane sync b => Sys2Proof.Machine.execInvalidBlockReceived l lane sync b s
  | .alignSkipInterval l gaps => Sys2Proof.Machine.execAlignSkipInterval l gaps s
  | .laneLockLost l lane => Sys2Proof.Machine.execLaneLockLost l lane s
  | .spareReq l lane => Sys2Proof.Machine.execSpareReq l lane s
  | .spareAck l => Sys2Proof.Machine.execSpareAck l s
  | .spareRefuse l => Sys2Proof.Machine.execSpareRefuse l s
  | .spareSwitch l => Sys2Proof.Machine.execSpareSwitch l s
  | .mwrReceived f alert => Sys2Proof.Machine.execMwrReceived f alert s
  | .mrdReceived f => Sys2Proof.Machine.execMrdReceived f s
  | .rwrReceived f => Sys2Proof.Machine.execRwrReceived f s
  | .rrdReceived f => Sys2Proof.Machine.execRrdReceived f s
  | .completionSend l => Sys2Proof.Machine.execCompletionSend l s
  | .ackReceived l f => Sys2Proof.Machine.execAckReceived l f s
  | .nakReceived l f => Sys2Proof.Machine.execNakReceived l f s
  | .creditReceived l f => Sys2Proof.Machine.execCreditReceived l f s
  | .replayTimeout l => Sys2Proof.Machine.execReplayTimeout l s
  | .creditUpdateTimer l => Sys2Proof.Machine.execCreditUpdateTimer l s
  | .sliceOpen err => Sys2Proof.Machine.execSliceOpen err s
  | .sliceRecord f => Sys2Proof.Machine.execSliceRecord f s
  | .streamSwitch d n => Sys2Proof.Machine.execStreamSwitch d n s
  | .dynamicTableBuilt sliceNo k => Sys2Proof.Machine.execDynamicTableBuilt sliceNo k s
  | .streamEnd d => Sys2Proof.Machine.execStreamEnd d s
  | .decoderTestDone d pass => Sys2Proof.Machine.execDecoderTestDone d pass s
  | .decoderLeavesService d e => Sys2Proof.Machine.execDecoderLeavesService d e s
  | .standbyTest => Sys2Proof.Machine.execStandbyTest s
  | .codecRequestEnd unit used made pend next => Sys2Proof.Machine.execCodecRequestEnd unit used made pend next s
  | .swathStartPermission p err => Sys2Proof.Machine.execSwathStartPermission p err s
  | .lineToken p err => Sys2Proof.Machine.execLineToken p err s
  | .frameShiftStart p => Sys2Proof.Machine.execFrameShiftStart p s
  | .frameShiftDone p => Sys2Proof.Machine.execFrameShiftDone p s
  | .cycleStart p => Sys2Proof.Machine.execCycleStart p s
  | .latchIssue p checkOk => Sys2Proof.Machine.execLatchIssue p checkOk s
  | .fireWindowOpen p w => Sys2Proof.Machine.execFireWindowOpen p w s
  | .fireWindowClose p w => Sys2Proof.Machine.execFireWindowClose p w s
  | .maintSequenceComplete => Sys2Proof.Machine.execMaintSequenceComplete s
  | .waveFrame p err => Sys2Proof.Machine.execWaveFrame p err s
  | .restLevelMove p => Sys2Proof.Machine.execRestLevelMove p s
  | .firePermitFall p => Sys2Proof.Machine.execFirePermitFall p s
  | .tableBuildDone table => Sys2Proof.Machine.execTableBuildDone table s
  | .waveBuildDone p => Sys2Proof.Machine.execWaveBuildDone p s
  | .headPresent p => Sys2Proof.Machine.execHeadPresent p s
  | .headRecordReadDone p tries data => Sys2Proof.Machine.execHeadRecordReadDone p tries data s
  | .headAbsent p => Sys2Proof.Machine.execHeadAbsent p s
  | .headFaultAssert p => Sys2Proof.Machine.execHeadFaultAssert p s
  | .headFaultClear p => Sys2Proof.Machine.execHeadFaultClear p s
  | .headUsageWrite p tries => Sys2Proof.Machine.execHeadUsageWrite p tries s
  | .ownReadback => Sys2Proof.Machine.execOwnReadback s
  | .barContention => Sys2Proof.Machine.execBarContention s
  | .feedbackCount c a b n => Sys2Proof.Machine.execFeedbackCount c a b n s
  | .hallEvaluate c => Sys2Proof.Machine.execHallEvaluate c s
  | .fbkCaptureEdge c h n => Sys2Proof.Machine.execFbkCaptureEdge c h n s
  | .speedWindowEnd c => Sys2Proof.Machine.execSpeedWindowEnd c s
  | .fboStep k => Sys2Proof.Machine.execFboStep k s
  | .maintainTimerLine => Sys2Proof.Machine.execMaintainTimerLine s
  | .cameraLaneUp lane => Sys2Proof.Machine.execCameraLaneUp lane s
  | .cameraLinkLost lock => Sys2Proof.Machine.execCameraLinkLost lock s
  | .cameraRestart => Sys2Proof.Machine.execCameraRestart s
  | .cameraFrame f err => Sys2Proof.Machine.execCameraFrame f err s
  | .auditTimeout => Sys2Proof.Machine.execAuditTimeout s
  | .auditCompressTimeout => Sys2Proof.Machine.execAuditCompressTimeout s
  | .inlineWindowClose => Sys2Proof.Machine.execInlineWindowClose s
  | .servoPeriod u n0 n1 n2 => Sys2Proof.Machine.execServoPeriod u n0 n1 n2 s
  | .driveReply dl slot f => Sys2Proof.Machine.execDriveReply dl slot f s
  | .driveReplyMissed dl slot => Sys2Proof.Machine.execDriveReplyMissed dl slot s
  | .homeTimeout a => Sys2Proof.Machine.execHomeTimeout a s
  | .microstepUpdate k => Sys2Proof.Machine.execMicrostepUpdate k s
  | .currentReduction a => Sys2Proof.Machine.execCurrentReduction a s
  | .memSweepDone => Sys2Proof.Machine.execMemSweepDone s
  | .scrubLine word synd last => Sys2Proof.Machine.execScrubLine word synd last s
  | .ceLeakTick => Sys2Proof.Machine.execCeLeakTick s
  | .dramRefresh ch alert upsets => Sys2Proof.Machine.execDramRefresh ch alert upsets s
  | .zqCalibration => Sys2Proof.Machine.execZqCalibration s
  | .pprDone ok => Sys2Proof.Machine.execPprDone ok s
  | .cvuStop u => Sys2Proof.Machine.execCvuStop u s
  | .discardEnd => Sys2Proof.Machine.execDiscardEnd s
  | .tempUpdate tj => Sys2Proof.Machine.execTempUpdate tj s
  | .renewTimer => Sys2Proof.Machine.execRenewTimer s
  | .helloReceived m => Sys2Proof.Machine.execHelloReceived m s
  | .renewReceived m => Sys2Proof.Machine.execRenewReceived m s
  | .grantReceived m => Sys2Proof.Machine.execGrantReceived m s
  | .passReceived m => Sys2Proof.Machine.execPassReceived m s
  | .releaseReceived m => Sys2Proof.Machine.execReleaseReceived m s
  | .departReceived m => Sys2Proof.Machine.execDepartReceived m s
  | .leaseExpiry => Sys2Proof.Machine.execLeaseExpiry s
  | .leasePathDown wire => Sys2Proof.Machine.execLeasePathDown wire s
  | .leaseClaim => Sys2Proof.Machine.execLeaseClaim s
  | .takeoverRelease => Sys2Proof.Machine.execTakeoverRelease s
  | .leaseTakeAtCommit => Sys2Proof.Machine.execLeaseTakeAtCommit s
  | .pairInfoReceived f => Sys2Proof.Machine.execPairInfoReceived f s
  | .handoverStart => Sys2Proof.Machine.execHandoverStart s
  | .handoverReceived f => Sys2Proof.Machine.execHandoverReceived f s
  | .handoverReadyReceived f => Sys2Proof.Machine.execHandoverReadyReceived f s
  | .handoverTimeout => Sys2Proof.Machine.execHandoverTimeout s
  | .handoverTakeBar => Sys2Proof.Machine.execHandoverTakeBar s
  | .xcheckReceived f => Sys2Proof.Machine.execXcheckReceived f s
  | .resolveReceived f => Sys2Proof.Machine.execResolveReceived f s
  | .lineRecord f err => Sys2Proof.Machine.execLineRecord f err s
  | .swapRecord f => Sys2Proof.Machine.execSwapRecord f s
  | .stateRecord f => Sys2Proof.Machine.execStateRecord f s
  | .axisRecord f => Sys2Proof.Machine.execAxisRecord f s
  | .mirrorStateTimer => Sys2Proof.Machine.execMirrorStateTimer s
  | .revertHoldExpiry => Sys2Proof.Machine.execRevertHoldExpiry s
  | .contentionResolve => Sys2Proof.Machine.execContentionResolve s
  | .timePingTimer => Sys2Proof.Machine.execTimePingTimer s
  | .timePingReceived f => Sys2Proof.Machine.execTimePingReceived f s
  | .timeEchoReceived f => Sys2Proof.Machine.execTimeEchoReceived f s
  | .scheduledOccurrence => Sys2Proof.Machine.execScheduledOccurrence s
  | .outputPulseEnd n => Sys2Proof.Machine.execOutputPulseEnd n s
  | .ppsPulse => Sys2Proof.Machine.execPpsPulse s
  | .ppsPulseEnd => Sys2Proof.Machine.execPpsPulseEnd s
  | .ptpAnnounceReceived => Sys2Proof.Machine.execPtpAnnounceReceived s
  | .ptpSyncReceived jitter => Sys2Proof.Machine.execPtpSyncReceived jitter s
  | .ptpFollowUpReceived => Sys2Proof.Machine.execPtpFollowUpReceived s
  | .ptpDelayRespReceived => Sys2Proof.Machine.execPtpDelayRespReceived s
  | .ptpDelayReqTimer => Sys2Proof.Machine.execPtpDelayReqTimer s
  | .announceTimeout => Sys2Proof.Machine.execAnnounceTimeout s
  | .ethFrameReceived f fcsOk => Sys2Proof.Machine.execEthFrameReceived f fcsOk s
  | .ethLaunch => Sys2Proof.Machine.execEthLaunch s
  | .ethLinkChange up full speed => Sys2Proof.Machine.execEthLinkChange up full speed s
  | .phyLinkPoll answer => Sys2Proof.Machine.execPhyLinkPoll answer s
  | .writebackTimer => Sys2Proof.Machine.execWritebackTimer s
  | .flushEnd findings => Sys2Proof.Machine.execFlushEnd findings s
  | .lifeExportDone used made pend next => Sys2Proof.Machine.execLifeExportDone used made pend next s
  | .rtcCompensation => Sys2Proof.Machine.execRtcCompensation s
  | .fawnTempSample t => Sys2Proof.Machine.execFawnTempSample t s
  | .rtcSync => Sys2Proof.Machine.execRtcSync s
  | .rtcAlarmMatch => Sys2Proof.Machine.execRtcAlarmMatch s
  | .wakeRequest => Sys2Proof.Machine.execWakeRequest s
  | .vbatLow => Sys2Proof.Machine.execVbatLow s
  | .xtalStop => Sys2Proof.Machine.execXtalStop s
  | .pwrFailNRise => Sys2Proof.Machine.execPwrFailNRise s
  | .barPeerChange level => Sys2Proof.Machine.execBarPeerChange level s
  | .flashDiscoveryDone found => Sys2Proof.Machine.execFlashDiscoveryDone found s
  | .dramTrainingDone ok0 ok1 => Sys2Proof.Machine.execDramTrainingDone ok0 ok1 s
  | .sweepMibComplete ch => Sys2Proof.Machine.execSweepMibComplete ch s
  | .modeTransitionEnd => Sys2Proof.Machine.execModeTransitionEnd s
  | .timeSlewEnd => Sys2Proof.Machine.execTimeSlewEnd s
  | .leaseViewExpiry => Sys2Proof.Machine.execLeaseViewExpiry s
  | .triggerOutputEnable k => Sys2Proof.Machine.execTriggerOutputEnable k s

end Sys2Proof.Machine
end

