-- ==== Sys2Proof/Machine/Tick.lean ====
section
/-! DEFINITION. The passing of one CORE clock of 1.25 ns, which is what a step with an empty queue does (assumption log 2): the timebase (R454, R455),
the RTC (R499), the slots that fall due (R467), the level of BAR_OWN (R255), the gate's release (R302), the end of a pass's measurement (R326), and a
running flush and the remaps it calls for (R489, R492). -/
namespace Sys2Proof.Machine

/-- TB counts from the rise of RESET_N on, while the main supplies are up (R455). -/
def timebaseRuns (s : State) : Bool := s.sys.phase != .inReset && s.sys.mode != .keepalive

/-- The RTC over one CORE clock: 32 768 ticks a second are 163 840 ticks in 4·10⁹ clocks (R499). -/
def advanceRtc (w : Fawn) : Fawn :=
  if w.phase + 163840 < 4000000000 then { w with phase := w.phase + 163840 }
  else { w with phase := w.phase + 163840 - 4000000000, rtc := w.rtc + 1 }

/-- The level of BAR_OWN in the clock that passes (R255). -/
def watchOwn (s : State) : State :=
  if barOwn s = s.bar.own then s else { s with bar := { s.bar with own := barOwn s, ownSince := s.clock } }

/-- One CORE clock passes (log 2). -/
def tick (s : State) : State :=
  let s := watchOwn (if timebaseRuns s then advanceTb s else s)
  remapDue (flushStep (endMeasured (gateMet (markDue { s with clock := s.clock + 1, fawn := advanceRtc s.fawn }))))

end Sys2Proof.Machine
end

