-- ==== Sys2Proof/Safety.lean ====
section
/-! DEFINITION. What counts as a safe run, in the terms the statements use: what executing a command of a mailbox is, what its answer
leaves, and what raising an event can touch. -/
namespace Sys2Proof.Machine

/-- The heads may fire: a firing mode and the fire permit (R37). -/
def mayFire (s : State) : Bool := s.sys.mode.firing && firePermit s

/-- Verup has command c, whose opcode is op, in EXEC (R74: one at a time), the mailbox areas being in canonical form. -/
def InExec (s : State) (op : Nat) (c : Command) : Prop := s.mbx.current = some c ∧ c.opcode = op ∧ Memory.wf s.mbx.area = true

/-- Verup executes command c, whose opcode is op: it is in EXEC, the mode accepts it, and no mode transition is in progress (R41, R74, R507). -/
def Doing (s : State) (op : Nat) (c : Command) : Prop := InExec s op c ∧ turnedAway op s = none

/-- t is u but for what raising events can touch: the ring and its hold queue, the interrupt status and the interrupt messages it queues
and the note of R12 of the bits set in this CTRL clock (R12, R78, R82, R530). -/
def EventsOnly (u t : State) : Prop :=
  t = { u with evr := t.evr, sys := { u.sys with irqStatus := t.sys.irqStatus, irqFresh := t.sys.irqFresh }, host := { u.host with held := t.host.held } }

/-- No work of Verup's or of a pass waits for the clock that passes: no flush runs, no remap is due, and no pass has been measured (R326, R489, R492). -/
def QuietClock (s : State) : Prop :=
  s.life.flush = none ∧ s.life.due = [] ∧ ∀ a, s.audit.pass = some a → s.sys.mode = .audit → passMeasured a s = false

/-- t is s but for what decoding touches: the codec, the memories that it reads and writes with their records, and events (R139 to R144). -/
def DecodeOnly (s t : State) : Prop :=
  t = { s with codec := t.codec, mem := t.mem, life := t.life, evr := t.evr, host := { s.host with held := t.host.held }
               sys := { s.sys with irqStatus := t.sys.irqStatus, irqFresh := t.sys.irqFresh } }

/-- A fault of class c that reaches the chip in s has led to t (R401, R403, R414, Table 14.4). With nothing latched there, c is latched and SAFESTOP
entered: nothing fires, a discard runs, every configured axis holds SAFESTOP, no mode transition is left, and the interrupt bit is set; where a warm reset
waits for its flush, which has precedence (R41), c is latched and the mode stays. With a class latched there, it stands, and the mode with it. -/
structure SafestopBy (c : FClass) (s t : State) : Prop where
  waits : s.sys.resetPending = true → latchedAt s chipInst = none → latchedAt t chipInst = some c ∧ t.sys.mode = s.sys.mode
  entered : s.sys.resetPending = false → latchedAt s chipInst = none → t.sys.mode = .safestop ∧ latchedAt t chipInst = some c ∧ t.faults.discard.isSome = true ∧
    t.sys.irqStatus &&& irqSafestop = irqSafestop ∧ t.sys.transition = none ∧ mayFire t = false ∧
    ∀ a : Fin 8, axisOn s a.val = true → HoldSrc.safestop ∈ t.axes[a].holds
  stands : ∀ k, latchedAt s chipInst = some k → latchedAt t chipInst = some k ∧ t.sys.mode = s.sys.mode ∧ t.sys.transition = s.sys.transition ∧
    t.axes = s.axes ∧ t.swath = s.swath ∧ t.wave = s.wave
  keeps : t.cfg = s.cfg ∧ t.mem.dram = s.mem.dram ∧ t.job = s.job ∧ t.audit = s.audit ∧ t.win = s.win ∧ t.bar = s.bar ∧ t.fbo = s.fbo ∧
    t.eth = s.eth ∧ t.fawn = s.fawn ∧ t.time = { s.time with slots := t.time.slots }

/-- The interrupt bit of a mailbox (Table 3.12), which NO_IRQ leaves alone (R69). -/
def doneBit (c : Command) : BitVec 15 := if c.noIrq then 0 else BitVec.ofNat 15 (2 ^ c.mb.val)

/-- t is u with command c answered r and nothing else changed: no command executes; its mailbox is DONE, MBX_SEQn is its sequence, and the
response in the format in force is stored and stands in the response area; the rest of the areas and the other mailboxes are as in u;
the mailbox's interrupt bit is set unless NO_IRQ (R69, R70, R72, R82). -/
structure Answered (c : Command) (r : Reply) (u t : State) : Prop where
  current : t.mbx.current = none
  done : t.mbx.box[c.mb].state = .done
  seq : t.mbx.box[c.mb].seq = c.seq
  stored : t.mbx.box[c.mb].stored = responseBytes c r u
  response : Mem.readN t.mbx.area (respArea c.mb) (responseBytes c r u).length = responseBytes c r u
  area : ∀ a, (a < respArea c.mb ∨ respArea c.mb + (responseBytes c r u).length ≤ a) → Mem.read t.mbx.area a = Mem.read u.mbx.area a
  others : ∀ n : Fin 8, n ≠ c.mb → t.mbx.box[n] = u.mbx.box[n]
  order : t.mbx.order = u.mbx.order.filter (· ≠ c.mb)
  irq : t.sys.irqStatus = u.sys.irqStatus ||| doneBit c
  frame : t = { u with
    mbx := { u.mbx with current := t.mbx.current, area := t.mbx.area, box := t.mbx.box, order := t.mbx.order }
    sys := { u.sys with irqStatus := t.sys.irqStatus, irqFresh := t.sys.irqFresh }
    host := { u.host with held := t.host.held } }

/-- The commands without their response: the one that executes, those past MBX_WDOG.LIMIT, and the one whose response waits for a mode transition. -/
def unanswered (s : State) : List Command := s.mbx.current.toList ++ s.mbx.stuck ++ (s.sys.transition.bind (·.waiting)).toList

/-- The mailboxes are in order: exactly those in PENDING wait, each once; and every command without its response has a mailbox of its own, which is in
EXEC (R70, R72, R74, R76, R41). -/
structure MailboxesInOrder (s : State) : Prop where
  waits : ∀ n : Fin 8, n ∈ s.mbx.order ↔ s.mbx.box[n].state = .pending
  once : s.mbx.order.Nodup
  exec : ∀ c ∈ unanswered s, s.mbx.box[c.mb].state = .exec
  own : ((unanswered s).map (·.mb)).Nodup

/-- The opcode that a row executes, for the rows that stand for a command of the mailboxes (chapter 18). -/
def commandOf : Instr → Option Nat
  | .sysReset => some 0x0101
  | .sysSafestop => some 0x0102
  | .sysConfigure _ => some 0x0103
  | .sysSecver => some 0x0104
  | .cfgBar => some 0x0201
  | .cfgHead => some 0x0202
  | .cfgCommit => some 0x0203
  | .jobOpen => some 0x0301
  | .jobStart => some 0x0302
  | .jobHold => some 0x0303
  | .jobResume => some 0x0304
  | .jobAbort => some 0x0305
  | .jobClose _ => some 0x0306
  | .slicePost => some 0x0401
  | .codecInflate => some 0x0501
  | .codecDeflate => some 0x0502
  | .codecConfig => some 0x0503
  | .greyLoad => some 0x0601
  | .substLoad => some 0x0602
  | .tableSwap => some 0x0603
  | .waveLoad => some 0x0701
  | .waveSwap => some 0x0702
  | .waveConfig => some 0x0703
  | .waveTest => some 0x0704
  | .headRead _ _ => some 0x0801
  | .headWrite _ _ => some 0x0802
  | .fbkConfig => some 0x0901
  | .fbkSet => some 0x0902
  | .fbkCapture => some 0x0903
  | .fbkRead => some 0x0904
  | .fbkOut => some 0x0905
  | .paceConfig => some 0x0A01
  | .paceOrigin => some 0x0A02
  | .paceRead => some 0x0A03
  | .maintStart => some 0x0B01
  | .maintStop => some 0x0B02
  | .auditConfig => some 0x0C01
  | .auditStart => some 0x0C02
  | .auditStop => some 0x0C03
  | .axisConfig => some 0x0D01
  | .axisLimits => some 0x0D02
  | .axisMove => some 0x0D03
  | .axisStop => some 0x0D04
  | .axisResume => some 0x0D05
  | .axisHome => some 0x0D06
  | .memConfig => some 0x0E01
  | .memSweep => some 0x0E02
  | .memStatus => some 0x0E03
  | .memScrub => some 0x0E04
  | .memRepair => some 0x0E05
  | .memPpr _ => some 0x0E06
  | .memEcctest => some 0x0E07
  | .cvuConfig => some 0x0F01
  | .cvuRead => some 0x0F02
  | .cvuWrite => some 0x0F03
  | .faultRead => some 0x1001
  | .faultAck => some 0x1002
  | .faultClear _ => some 0x1003
  | .fnReinit _ _ => some 0x1101
  | .twinConfig => some 0x1201
  | .twinUnpair => some 0x1202
  | .twinSwap => some 0x1203
  | .twinResolve => some 0x1204
  | .twinTakeover => some 0x1205
  | .timeConfig => some 0x1301
  | .timeSet => some 0x1302
  | .timeAdjust => some 0x1303
  | .timeSched => some 0x1304
  | .timeCancel => some 0x1305
  | .timeRead => some 0x1306
  | .ethConfig => some 0x1401
  | .ethMdio _ => some 0x1402
  | .ethSend => some 0x1403
  | .ethRxack => some 0x1404
  | .ethTsread => some 0x1405
  | .linkConfig => some 0x1501
  | .linkRetrain => some 0x1502
  | .linkSpare => some 0x1503
  | .linkTest _ => some 0x1504
  | .linkStatus => some 0x1505
  | .lifeConfig => some 0x1601
  | .lifeRead => some 0x1602
  | .lifeCounters => some 0x1603
  | .lifeWrite => some 0x1604
  | .lifeFlush => some 0x1605
  | .lifeClear => some 0x1606
  | .lifeExport => some 0x1607
  | .lifeFormat => some 0x1608
  | .rtcSet => some 0x1701
  | .rtcTrim => some 0x1702
  | .rtcAlarm => some 0x1703
  | .svcEnter => some 0x1801
  | .svcExit => some 0x1802
  | _ => none

/-- The SPI port writes words ws at offset a and upward in s, one after another as REGISTER_WRITE does, and t is what that leaves (R61). -/
def SpiWrites (a : BitVec 16) : List Word → State → State → Prop
  | [], s, t => t = s
  | w :: ws, s, t => ∃ u, exec (.registerWrite .spi a w) s = .next u ∧ SpiWrites (a + 4) ws u t

/-- s with MBn, the first of the waiting mailboxes, in EXEC, and those of `rest` waiting (R70, R74). -/
def enterExec (n : Fin 8) (rest : List (Fin 8)) (s : State) : State :=
  { s with mbx := { s.mbx with
    box := s.mbx.box.set n { s.mbx.box[n] with state := .exec, execAt := s.clock, stalled := false }, order := rest } }

/-- The command that the area of MBn holds (Table 3.6, R84). -/
def commandIn (n : Fin 8) (s : State) : Command :=
  { mb := n, opcode := (headerOf n s).opcode, noIrq := (headerOf n s).flags % 2 == 1, seq := expectedSeq n s, payload := payloadOf n (headerOf n s) s }

/-- Command c of opcode op, met by its row i in state s, is answered r, its effect being that u takes the place of s. -/
def Answers (i : Instr) (s : State) (c : Command) (r : Reply) (u : State) : Prop := ∃ t, exec i s = .next t ∧ Answered c r u t

/-- Command c, met by its row i in state s, is answered r, and the state its effect leaves has property P. -/
def Does (i : Instr) (s : State) (c : Command) (r : Reply) (P : State → Prop) : Prop :=
  ∃ u t, exec i s = .next t ∧ Answered c r u t ∧ P u

/-- The row i, met in state s, has a next state with property P. -/
def Gives (i : Instr) (s : State) (P : State → Prop) : Prop := ∃ t, exec i s = .next t ∧ P t

/-- The row i is met in state s by next state u, and by events at most besides. -/
def Reaches (i : Instr) (s : State) (u : State) : Prop := ∃ t, exec i s = .next t ∧ EventsOnly u t

/-- t is s but for link l and what the part has sent. -/
def LinkOnly (l : Fin 2) (s t : State) : Prop := t = setLink l (fun _ => linkOf l t) { s with sent := t.sent }

/-- What arrives on a path, x, carries the lease message m: on the lease wires a frame whose levels spell it (R433), v being s; on the twin link a LEASE
frame, v being s with the frame accepted and the oldest message that then waits, m, taken from those that wait (R434, R435). -/
def Carries (s : State) (x : LeaseIn) (m : List Byte) (v : State) : Prop :=
  match x with
  | .wire h => leaseOf true (leaseBytes h) = some m ∧ v = s
  | .link f => ∃ p ms, (acceptLease f s).twinLink.rxLease = p :: ms ∧ leaseOf false p = some m ∧
      v = { acceptLease f s with twinLink := { (acceptLease f s).twinLink with rxLease := ms } }

/-- What arrives on a path, x, is a good message m of a type for a paired unit, whose EPOCH is not older than its own; v is s with the message taken
from the path (R431 to R435). -/
def Heard (s : State) (x : LeaseIn) (type : Nat) (m : List Byte) (v : State) : Prop :=
  s.sys.phase = .running ∧ Carries s x m v ∧ leaseGood m = true ∧ leaseType m = type ∧ pairOn s = true ∧
    epochNewer s.twin.epoch (leaseEpoch m) = false

/-- A TMB frame f arrives, or none and a message waits already: the one that has waited longest is m, stamped t at its arrival, and Verup runs. v is s
with the frame accepted and the message taken (R55, R435). -/
def TmbTaken (f : List Byte) (t : Nat) (m : List Byte) (s v : State) : Prop :=
  ∃ ms, (acceptTmb f s).twinLink.rxTmb = (t, m) :: ms ∧ s.sys.phase = .running ∧
    v = { acceptTmb f s with twinLink := { (acceptTmb f s).twinLink with rxTmb := ms } }

/-- A frame f finds no message to act on in s: none waits, or Verup does not run. -/
def TmbIdle (f : List Byte) (s : State) : Prop := (acceptTmb f s).twinLink.rxTmb = [] ∨ s.sys.phase ≠ .running

/-- t is v with request m of the peer met by r, its effect being that u takes the place of v (R55, R72): the next sequence is executed and its response
stored and sent; the last executed one draws the stored response; any other is BAD_SEQ with the one expected. -/
def Served (m : List Byte) (v : State) (r : Reply) (u t : State) : Prop :=
  (tmbSeqOf m = (v.twin.tmb1Seq + 1) % 2 ^ 32 → t = sendTmb (tmbResponse (tmbSeqOf m) r u) { u with twin := { u.twin with
    tmb1Seq := tmbSeqOf m, tmb1Done := true, tmb1Reply := tmbResponse (tmbSeqOf m) r u } }) ∧
  (tmbSeqOf m ≠ (v.twin.tmb1Seq + 1) % 2 ^ 32 → tmbSeqOf m = v.twin.tmb1Seq → v.twin.tmb1Done = true → t = sendTmb v.twin.tmb1Reply v) ∧
  (tmbSeqOf m ≠ (v.twin.tmb1Seq + 1) % 2 ^ 32 → tmbSeqOf m ≠ v.twin.tmb1Seq ∨ v.twin.tmb1Done = false →
    t = sendTmb (tmbResponse (tmbSeqOf m) { status := .badSeq, detail := (v.twin.tmb1Seq + 1) % 2 ^ 32 % 65536 } v) v)

/-- A transaction frame f of a type on a channel, with header h, is accepted by the host link in state s (R109, R110, R114): its CRC holds with
the count expected, and credit covers it. v is s with the frame counted, its credit used and the frame acknowledged. -/
def Accepted (s : State) (type vc : Nat) (f : List Byte) (h : FrameHeader) (v : State) : Prop :=
  s.host.linkUp = true ∧ s.host.stage = .up ∧ s.host.rxDiscard = false ∧ h = frameHeader f ∧ frameCrcOk s.host.expect f = some s.host.expect ∧ h.ftype = type ∧
    h.seqField < 4096 ∧ h.len % 4 = 0 ∧ withinCredit (nthOr s.host.vc vc {}) (ceilDiv h.len 16) = true ∧
    v = sendAckNak 0 false s.host.expect { s with host := { s.host with
      expect := (s.host.expect + 1) % 2 ^ 32, nakOut := false, nakDue := false
      vc := updAt s.host.vc vc fun c => { c with rxHdrUsed := c.rxHdrUsed + 1, rxDataUsed := c.rxDataUsed + BitVec.ofNat 16 (ceilDiv h.len 16) } } }

end Sys2Proof.Machine
end

