-- ==== Sys2Proof/Certificates/Slice0/Obligations.lean ====
section
/-! DEFINITION. The statements for the provers. Each says in its docstring which rules of the manual it rests on. -/
open Sys2Proof Sys2Proof.Machine

/-- O1. For every command c, rest and state s whose queue is c followed by rest, step s is exec c on s with the queue rest. This is the model's own shape
of a block that takes commands (assumption log 2); no rule of the manual states it. (3.5 Mailboxes, assumption log 2) -/
def Obligations.StepRunsTheFrontCommand : Prop :=
  ∀ (c : Instr) (rest : List Instr) (s : State), s.pending = c :: rest → step s = exec c { s with pending := rest }

/-- O2. For every state s with an empty queue, step s is a next state t in which one CORE clock has passed: the clock is one more and the RTC counts
163 840 parts of 4 000 000 000 of a tick. Where no flush runs, no remap of the life memory is due and no audit pass has been measured: the timebase runs
unless the part is in reset or in KEEPALIVE; a slot of the scheduler whose comparison is met for the first time is noted as due in this clock; the level of
BAR_OWN is noted with the clock of its last change; a gate that is held is released when frame 0 of every configured port has been shifted for 40 ns; and
nothing else changes. Where a flush may go on (no pass measured, no remap due), nothing waits to be written, and g is its next counter group with an
accumulator that is not zero, all of g's four words and records being sound: the four accumulators are added to the stored totals, saturating, and zeroed,
and g is counted as moved. (assumption log 2: an idle step is one CORE clock; assumption log 58: one group a clock; the model's choices). (16.1 The timebase,
17.9 The Fawn domain, R255, R302, R455, R467, R485, R489, R499, assumption log 2, assumption log 58) -/
def Obligations.EmptyQueueLetsOneClockPass : Prop :=
  ∀ s : State, s.pending = [] → ∃ t, step s = .next t ∧ t.clock = s.clock + 1 ∧
    (s.fawn.phase + 163840 < 4000000000 → t.fawn.rtc = s.fawn.rtc ∧ t.fawn.phase = s.fawn.phase + 163840) ∧
    (4000000000 ≤ s.fawn.phase + 163840 → t.fawn.rtc = s.fawn.rtc + 1 ∧ t.fawn.phase + 4000000000 = s.fawn.phase + 163840) ∧
    (∀ (f : Flush) (g : Nat) (rest : List Nat), s.life.flush = some f → flushMayEnd { s with clock := s.clock + 1 } = true → lifeWritable s = true →
      s.life.due = [] → (∀ a, s.audit.pass = some a → s.sys.mode ≠ .audit) → Memory.wf s.life.nv.mram = true → s.life.pendingLog = [] → s.life.pendingModes = [] → s.life.nv.synd = [] →
      s.life.nv.weak = [] → s.mem.ondie = [] → groupsLeft s = g :: rest → g < 32768 →
      (∀ i, i < 4 → storedTotal t (g / 2048) (4 * (g % 2048) + i) =
          min (storedTotal s (g / 2048) (4 * (g % 2048) + i) + SMap.get 0 s.life.acc (4 * g + i)) (2 ^ 48 - 1)) ∧
      t.life.acc = SMap.clear s.life.acc (4 * g) (4 * g + 4) ∧ t.life.flush = some { f with next := g + 1, groups := f.groups + 1 }) ∧
    (QuietClock s →
    t = { s with clock := t.clock, time := { s.time with tb := t.time.tb, frac := t.time.frac, slew := t.time.slew, slots := t.time.slots }
                 fawn := { s.fawn with rtc := t.fawn.rtc, phase := t.fawn.phase }
                 bar := { s.bar with own := t.bar.own, ownSince := t.bar.ownSince }
                 pace := { s.pace with gateHeld := t.pace.gateHeld }, axes := t.axes
                 evr := t.evr, sys := { s.sys with irqStatus := t.sys.irqStatus, irqFresh := t.sys.irqFresh }
                 host := { s.host with held := t.host.held } } ∧
    ((s.sys.phase = .inReset ∨ s.sys.mode = .keepalive) → t.time = { s.time with slots := t.time.slots }) ∧
    (∀ i : Fin 16, t.time.slots[i] = if s.time.slots[i].due = none ∧ slotReached { s with time := { s.time with tb := t.time.tb } } s.time.slots[i] = true
      then { s.time.slots[i] with due := some (s.clock + 1) } else s.time.slots[i]) ∧
    t.bar.own = barOwn s ∧ t.bar.ownSince = (if barOwn s = s.bar.own then s.bar.ownSince else s.clock) ∧
    (s.pace.gateHeld = false → t.pace = s.pace ∧ t.axes = s.axes ∧ t.evr = s.evr ∧ t.sys = s.sys ∧ t.host = s.host) ∧
    (s.pace.gateHeld = true → swathIsArmed s = true → frame0Shifted 32 { s with clock := s.clock + 1 } = true → t.pace.gateHeld = false))

/-- O3. For every command c and state s there is a state t with exec c s = next t: the model neither faults nor refuses anything, since the manual gives
every row of the table an effect, a refusal of the manual's own (a status) included. (R509, 18.2 Refusals) -/
def Obligations.EveryCommandHasANextState : Prop :=
  ∀ (c : Instr) (s : State), ∃ t, exec c s = .next t

/-- O4. For every command c and states s and t with exec c s = next t, the queue and the clock of t are those of s: what waits is the sender's, and time
passes only in idle steps (assumption log 2; the model's choice). (assumption log 2) -/
def Obligations.CommandsLeaveQueueAndClockAlone : Prop :=
  ∀ (c : Instr) (s t : State), exec c s = .next t → t.pending = s.pending ∧ t.clock = s.clock

/-- O5. For every state s and next state t of step s, the fused security version of t is at least that of s; and a command other than sys.secver leaves it
as it is. (R59) -/
def Obligations.SecurityVersionNeverFalls : Prop :=
  (∀ s t : State, step s = .next t → s.sys.secVer ≤ t.sys.secVer) ∧
  (∀ (c : Instr) (s t : State), c ≠ .sysSecver → exec c s = .next t → t.sys.secVer = s.sys.secVer)

/-- O6. For every state s in which the DRAM, the mailbox areas and the MRAM are in canonical form (addresses strictly rising, no entry equal to the zero
that an unlisted address reads as) and every next state t of step s, the three are in canonical form in t. (R372, R374, R379, R479) -/
def Obligations.MemoriesStayCanonical : Prop :=
  ∀ s t : State, Memory.wf s.mem.dram = true ∧ Memory.wf s.mbx.area = true ∧ Memory.wf s.life.nv.mram = true → step s = .next t →
    Memory.wf t.mem.dram = true ∧ Memory.wf t.mbx.area = true ∧ Memory.wf t.life.nv.mram = true

/-- O7. Call the mailboxes in order when the waiting list holds exactly the mailboxes in PENDING, each once; and the commands without their response (the
one that executes, those past MBX_WDOG.LIMIT, the one whose response waits for a mode transition) have each a mailbox of its own, which is in EXEC. For
every state s in order and every next state t of step s, t is in order. (R70, R72, R74, R76, R41) -/
def Obligations.MailboxesStayInOrder : Prop :=
  ∀ s t : State, MailboxesInOrder s → step s = .next t → MailboxesInOrder t

/-- O8. For each step of the sequence of R44 the state it ends in is given. RESET_N_RISE out of reset with the main supplies valid samples the straps,
takes the legacy bit and the mailbox format from LGCY_SEL, sets every MBX_SEQn, and goes to BOOT with the PLLs locking; while a flush holds the
internal reset it only samples the straps, and otherwise the ball alone changes; an instruction of the test access port that reset alone allows gives
way to BYPASS. PLLS_LOCKED loads the repairs, never more than two rows and one bit-column in a bank, and starts the sweep. SRAM_SWEEP_DONE sets
SWEEP_DONE and starts the boot ROM, which BOOT_HOLD stops at stage 7 with result 9. FLASH_DISCOVERY_DONE stops the ROM with result 1 for a wrong
signature, 2 for a flash outside Table 3.1, 3 with no slot of valid MAGIC; else it takes the candidates in order, the newer image first and slot 0 on
a tie, passing over a header that fails, and stops with the last failure when none is left. BOOT_IMAGE_LOADED with the body of a valid signature
starts Verup at stage 6; with another it takes the next candidate, or stops with result 8. VERUP_STARTED enters CONFIGURE with eight decoders in
service and the ninth standing by, or SAFESTOP where a class is latched at the chip by then; while a warm reset is asked for it changes nothing. What
a step does not name stands. (That the presence filters keep no state of their own, and that decoder 8 is the standby at start, are the model's,
assumption log 4; that a chip latch leads on to SAFESTOP, assumption log 9.) (R43, R44, R47, R51, R56, R57, R58, R102, R138, R379, R390, R550) -/
def Obligations.StartSequenceRunsInOrder : Prop :=
  (∀ (lg ub bh b1 : Bool) (s : State), s.sys.supplies = true → s.sys.phase = .inReset ∨ s.sys.mode = .keepalive → s.sys.resetPending = false →
    exec (.resetNRise lg ub bh b1) s = .next { s with
      sys := { s.sys with resetN := true, mode := .boot, phase := .locking, legacy := lg
                          straps := { lgcySel := lg, unitId := ub, bootHold := bh, bootSlot1 := b1 }
                          tap := if s.sys.tap.confined then .bypass else s.sys.tap }
      mbx := { s.mbx with fmt1 := lg, box := s.mbx.box.map fun m => { m with seq := if lg then 0xFFFF else 0xFFFFFFFF } } }) ∧
  (∀ (lg ub bh b1 : Bool) (s : State), s.sys.resetPending = true → exec (.resetNRise lg ub bh b1) s = .next { s with
      sys := { s.sys with resetN := true, straps := { lgcySel := lg, unitId := ub, bootHold := bh, bootSlot1 := b1 }
                          tap := if s.sys.tap.confined then .bypass else s.sys.tap } }) ∧
  (∀ (lg ub bh b1 : Bool) (s : State), s.sys.resetPending = false →
    s.sys.supplies = false ∨ (s.sys.phase ≠ .inReset ∧ s.sys.mode ≠ .keepalive) → exec (.resetNRise lg ub bh b1) s = .next { s with
      sys := { s.sys with resetN := true, tap := if s.sys.tap.confined then .bypass else s.sys.tap } }) ∧
  (∀ s : State, s.sys.phase = .locking → ∃ t, exec .pllsLocked s = .next t ∧
    t = { s with sys := { s.sys with phase := .sweeping, repairLoaded := true }
                 mem := { s.mem with repairs := t.mem.repairs, skipped := t.mem.skipped } } ∧
    ∀ b, sparesUsed t.mem.repairs 1 b ≤ 2 ∧ sparesUsed t.mem.repairs 2 b ≤ 1) ∧
  (∀ s : State, s.sys.phase = .sweeping → s.sys.straps.bootHold = false →
    exec .sramSweepDone s = .next { s with sys := { s.sys with sweepDone := true, phase := .discovering, stage := 3 }, wave := Vector.replicate 16 {} }) ∧
  (∀ s : State, s.sys.phase = .sweeping → s.sys.straps.bootHold = true → ∃ t, exec .sramSweepDone s = .next t ∧
    t = { s with host := t.host, sent := t.sent, wave := Vector.replicate 16 {}, sys := { s.sys with
            sweepDone := true, phase := .stopped, stage := 7, result := 9, irqStatus := s.sys.irqStatus ||| irqBoot, irqFresh := t.sys.irqFresh } } ∧
    t.host.stage = .detect ∧ t.host.linkUp = false) ∧
  (∀ (f : Flash) (s : State), s.sys.phase = .discovering → uAt f.sfdp 0 4 ≠ 0x50444653 → ∃ t, exec (.flashDiscoveryDone f) s = .next t ∧
    t = { s with host := t.host, sent := t.sent, sys := { s.sys with
            phase := .stopped, stage := 0xE, result := 1, bootDetail := BitVec.ofNat 32 (uAt f.sfdp 0 4)
            irqStatus := s.sys.irqStatus ||| irqBoot, irqFresh := t.sys.irqFresh } } ∧ t.host.stage = .detect) ∧
  (∀ (f : Flash) (s : State), s.sys.phase = .discovering → uAt f.sfdp 0 4 = 0x50444653 → flashFits f.bfpt = false ∨ flashReadMode f.bfpt = none →
    ∃ t, exec (.flashDiscoveryDone f) s = .next t ∧
    t = { s with host := t.host, sent := t.sent, sys := { s.sys with
            phase := .stopped, stage := 0xE, result := 2, bootDetail := 0x50444653
            irqStatus := s.sys.irqStatus ||| irqBoot, irqFresh := t.sys.irqFresh } } ∧ t.host.stage = .detect) ∧
  (∀ (f : Flash) (m : ReadMode) (s : State), s.sys.phase = .discovering → uAt f.sfdp 0 4 = 0x50444653 → flashFits f.bfpt = true →
    flashReadMode f.bfpt = some m →
    (slotCandidates s.sys.straps.bootSlot1 f.slot0 f.slot1 = [] → ∃ t, exec (.flashDiscoveryDone f) s = .next t ∧
      t = { s with host := t.host, sent := t.sent, sys := { s.sys with
              readMode := some m, slotHead0 := f.slot0, slotHead1 := f.slot1, phase := .stopped, stage := 0xE, result := 3
              irqStatus := s.sys.irqStatus ||| irqBoot, irqFresh := t.sys.irqFresh } } ∧ t.host.stage = .detect) ∧
    (∀ n rest, slotCandidates s.sys.straps.bootSlot1 f.slot0 f.slot1 = n :: rest → headFailure (if n = 0 then f.slot0 else f.slot1) s = none →
      exec (.flashDiscoveryDone f) s = .next { s with sys := { s.sys with
        readMode := some m, slotHead0 := f.slot0, slotHead1 := f.slot1, phase := .loading, stage := 4, firstCandidate := n, slot := n
        candidates := n :: rest, bootDetail := if n = 0 then 0x10000 else 0x800000 } }) ∧
    (∀ n k r, slotCandidates s.sys.straps.bootSlot1 f.slot0 f.slot1 = [n, k] → headFailure (if n = 0 then f.slot0 else f.slot1) s = some r →
      headFailure (if k = 0 then f.slot0 else f.slot1) s = none →
      exec (.flashDiscoveryDone f) s = .next { s with sys := { s.sys with
        readMode := some m, slotHead0 := f.slot0, slotHead1 := f.slot1, phase := .loading, stage := 4, firstCandidate := n, slot := k, result := r
        candidates := [k], bootDetail := if k = 0 then 0x10000 else 0x800000 } }) ∧
    (∀ n r, slotCandidates s.sys.straps.bootSlot1 f.slot0 f.slot1 = [n] → headFailure (if n = 0 then f.slot0 else f.slot1) s = some r →
      ∃ t, exec (.flashDiscoveryDone f) s = .next t ∧
      t = { s with host := t.host, sent := t.sent, sys := { s.sys with
              readMode := some m, slotHead0 := f.slot0, slotHead1 := f.slot1, phase := .stopped, stage := 0xE, result := r, firstCandidate := n
              slot := n, bootDetail := if n = 0 then 0x10000 else 0x800000
              irqStatus := s.sys.irqStatus ||| irqBoot, irqFresh := t.sys.irqFresh } } ∧ t.host.stage = .detect)) ∧
  (∀ h0 h1 : List Byte, uAt h0 0 4 = 0x55524556 → uAt h1 0 4 = 0x55524556 →
    slotCandidates false h0 h1 = (if uAt h0 8 4 < uAt h1 8 4 then [1, 0] else [0, 1]) ∧ slotCandidates true h0 h1 = [1]) ∧
  (∀ (h : List Byte) (s : State), headFailure h s =
    if imageHeaderOk h = false then some 4
    else if sha384 ((h.drop 32).take 96) ≠ s.sys.keyHash then some 5
    else if bitOf (uAt h 12 2) Config.stepCode = false then some 6
    else if uAt h 14 2 < s.sys.secVer then some 7 else none) ∧
  (∀ (body : List Byte) (s : State), s.sys.phase = .loading → body.length = uAt (slotHead s.sys.slot s) 4 4 →
    (signatureOk (slotHead s.sys.slot s) body = true → ∃ t, exec (.bootImageLoaded body) s = .next t ∧
      t = { s with host := { s.host with held := t.host.held }, sys := { s.sys with
              phase := .starting, stage := 6, fallback := s.sys.slot != s.sys.firstCandidate
              irqStatus := s.sys.irqStatus ||| irqBoot, irqFresh := t.sys.irqFresh } }) ∧
    (signatureOk (slotHead s.sys.slot s) body = false → s.sys.candidates.drop 1 = [] → ∃ t, exec (.bootImageLoaded body) s = .next t ∧
      t = { s with host := t.host, sent := t.sent, sys := { s.sys with
              phase := .stopped, stage := 0xE, result := 8, irqStatus := s.sys.irqStatus ||| irqBoot, irqFresh := t.sys.irqFresh } } ∧
      t.host.stage = .detect) ∧
    (∀ n rest, signatureOk (slotHead s.sys.slot s) body = false → s.sys.candidates.drop 1 = n :: rest → headFailure (slotHead n s) s = none →
      exec (.bootImageLoaded body) s = .next { s with sys := { s.sys with
        stage := 4, result := 8, slot := n, candidates := n :: rest, bootDetail := if n = 0 then 0x10000 else 0x800000 } })) ∧
  (∀ (findings : List LifeFinding) (ver : Word) (s : State), s.sys.resetPending = true → exec (.verupStarted findings ver) s = .next s) ∧
  (∀ (findings : List LifeFinding) (ver : Word) (s : State), s.sys.phase = .starting → s.sys.resetPending = false →
    ∃ t, exec (.verupStarted findings ver) s = .next t ∧
      t.sys.phase = .running ∧ t.sys.stage = 0xF ∧ t.sys.verupVer = ver ∧ t.sys.coldStart = false ∧ t.fawn.wake = false ∧ t.fawn.held = false ∧
      (latchedAt t chipInst = none → t.sys.mode = .configure) ∧ (latchedAt t chipInst ≠ none → t.sys.mode = .safestop) ∧
      (s.sys.pwrFailN = false → t.sys.mode = .safestop) ∧
      (∀ i : Fin 9, t.codec.decoders[i] = { use := if i.val < 8 then .inService else .standby }) ∧
      (∀ p : Fin 16, p.val < Config.ports → t.wave[p].on = true) ∧
      t.sys.legacy = s.sys.legacy ∧ t.sys.secVer = s.sys.secVer ∧ t.cfg = s.cfg ∧ t.bar = s.bar ∧ t.fbo = s.fbo ∧ t.eth = s.eth ∧ t.win = s.win ∧
      (∀ a, Mem.read t.mem.dram a = Mem.read s.mem.dram a) ∧
      ((∀ x ∈ s.time.slots.toList, x.armed = false) → t.job = s.job ∧ t.audit = s.audit))

/-- O9. MAIN_SUPPLIES_FALL outside KEEPALIVE ends in KEEPALIVE with every register at its reset value, but for the MRAM, the Fawn domain (which notes
the time), the fuses, the levels of the balls and what their filters hold, and a waveform stream's last frame; within KEEPALIVE only the supplies are
noted. MAIN_SUPPLIES_VALID in KEEPALIVE with RESET_N high begins the start sequence, and with RESET_N low waits for its rise. RESET_N_FALL in BOOT
says EIDLE and resets at once; in KEEPALIVE the ball alone changes; in a mode with the supplies up it asks for a warm reset: firing is inhibited and a
flush runs first. WARM_RESET_FLUSH_DONE, once the flush may end, resets into BOOT, keeping the MRAM and the Fawn domain and nothing of the job, the
configuration or the DRAM; a running scrub ends with its event, and the time balls are released; with RESET_N low it leaves the part in reset.
PWR_FAIL_N_RISE changes the ball alone. (Which model records stand beside them, the clock, the free values, what has been sent and the queue, is
assumption log 2, 3 and 5.) (R40, R42, R43, R44, R47, R49, R51, R102, R389, R459, R503, Table 2.6) -/
def Obligations.PowerAndResetKeepOnlyWhatTheManualKeeps : Prop :=
  (∀ s : State, s.sys.mode ≠ .keepalive → exec .mainSuppliesFall s = .next { State.reset with
      sys := { State.reset.sys with
        mode := .keepalive, supplies := false, coldStart := true, resetN := s.sys.resetN, pwrFailN := s.sys.pwrFailN, secVer := s.sys.secVer
        keyHash := s.sys.keyHash, tap := .idcode }
      bar := { peer := s.bar.peer, peerSince := s.bar.peerSince }
      wave := s.wave.map lastFrame
      fbk := s.fbk.map fun f => { fa := f.fa, fb := f.fb, fc := f.fc, a := f.a, b := f.b, c := f.c }
      mem := { fuses := s.mem.fuses, pprUsed := s.mem.pprUsed, leakAt := s.clock }, life := { nv := s.life.nv, countedAt := s.clock }
      fawn := { s.fawn with held := true, heldSince := rtcSeconds s }
      clock := s.clock, free := s.free, sent := s.sent, pending := s.pending }) ∧
  (∀ s : State, s.sys.mode = .keepalive → exec .mainSuppliesFall s = .next { s with sys := { s.sys with supplies := false } }) ∧
  (∀ (lg ub bh b1 : Bool) (s : State), s.sys.mode = .keepalive → s.sys.resetN = true →
    exec (.mainSuppliesValid lg ub bh b1) s = .next { s with
      sys := { s.sys with supplies := true, mode := .boot, phase := .locking, legacy := lg
                          straps := { lgcySel := lg, unitId := ub, bootHold := bh, bootSlot1 := b1 } }
      mbx := { s.mbx with fmt1 := lg, box := s.mbx.box.map fun m => { m with seq := if lg then 0xFFFF else 0xFFFFFFFF } } }) ∧
  (∀ (lg ub bh b1 : Bool) (s : State), s.sys.mode = .keepalive → s.sys.resetN = false →
    exec (.mainSuppliesValid lg ub bh b1) s = .next { s with sys := { s.sys with supplies := true } }) ∧
  (∀ s : State, s.sys.mode = .boot → ∃ t, exec .resetNFall s = .next t ∧ t = { State.reset with
      sys := { State.reset.sys with
        coldStart := s.sys.coldStart, supplies := s.sys.supplies, resetN := false, pwrFailN := s.sys.pwrFailN, secVer := s.sys.secVer
        keyHash := s.sys.keyHash, tap := s.sys.tap }
      bar := { peer := s.bar.peer, peerSince := s.bar.peerSince }
      wave := s.wave.map lastFrame
      fbk := s.fbk.map fun f => { fa := f.fa, fb := f.fb, fc := f.fc, a := f.a, b := f.b, c := f.c }
      mem := { fuses := s.mem.fuses, pprUsed := s.mem.pprUsed, leakAt := s.clock }, life := { nv := s.life.nv, countedAt := s.clock }
      fawn := s.fawn, clock := s.clock, free := s.free, sent := t.sent, pending := s.pending } ∧
    t.sent.length = s.sent.length + (if s.host.stage = .down then 0 else 2) + (if s.twinLink.stage = .down then 0 else 2)) ∧
  (∀ s : State, s.sys.mode = .keepalive → exec .resetNFall s = .next { s with sys := { s.sys with resetN := false } }) ∧
  (∀ s : State, s.sys.mode ≠ .boot → s.sys.mode ≠ .keepalive → ∃ t, exec .resetNFall s = .next t ∧
    t.sys.resetN = false ∧ t.sys.resetPending = true ∧ t.sys.mode = s.sys.mode ∧ mayFire t = false ∧
    t.job = s.job ∧ t.cfg = s.cfg ∧ t.mem = { s.mem with scrub := t.mem.scrub } ∧ t.axes = s.axes ∧ t.life.nv = s.life.nv ∧ t.fawn = s.fawn ∧
    t.time = { s.time with pps := false, outs := Vector.replicate 4 false, pulseEnd := Vector.replicate 4 none } ∧ t.bar = s.bar ∧
    (s.mem.scrub.running = false → t.mem = s.mem) ∧
    (s.sys.resetPending = false → t.sys.resetKind = 0 ∧ t.sys.resetTb = s.time.tb ∧ t.mem.scrub.running = false ∧
      (lifeWritable s = true → t.life.flush.isSome = true)) ∧
    (s.sys.resetPending = true → t = { s with sys := { s.sys with resetN := false }, time := t.time })) ∧
  (∀ (lg ub bh b1 : Bool) (s : State), s.sys.resetPending = true → flushMayEnd s = true → ∃ t, exec (.warmResetFlushDone lg ub bh b1) s = .next t ∧
    t.sys.mode = .boot ∧ t.sys.phase = (if s.sys.resetN then .locking else .inReset) ∧ t.sys.resetPending = false ∧ t.sys.secVer = s.sys.secVer ∧
    (s.sys.resetN = true → t.sys.legacy = (if s.sys.resetKind = 0 then s.sys.straps.lgcySel else lg)) ∧
    t.cfg = State.reset.cfg ∧ t.job = State.reset.job ∧ t.faults = State.reset.faults ∧ t.mem.dram = [] ∧ t.twin = State.reset.twin ∧
    t.time = State.reset.time ∧ t.eth = State.reset.eth ∧ t.axes = State.reset.axes ∧ t.fawn = s.fawn ∧ t.mem.fuses = s.mem.fuses ∧
    t.host = State.reset.host ∧ t.twinLink = State.reset.twinLink ∧ (s.sys.mode = .boot → t.life.nv = s.life.nv)) ∧
  (∀ s : State, exec .pwrFailNRise s = .next { s with sys := { s.sys with pwrFailN := true } })

/-- O10. PWR_FAIL_N_FALL in any state lowers the ball. Once Verup has entered CONFIGURE it also starts or joins a flush and raises POWER_FAIL at the chip;
SYS_SAFESTOP_WRITE of the key 0x3C5A from either port, with the window ready and outside SAFESTOP, raises HOST_REGISTER there, and any other value, and any
write in SAFESTOP, changes nothing; sys.safestop, in a mode that accepts it, raises HOST_COMMAND there and is answered OK. A class raised at the chip, with
nothing latched there, is latched and ends in SAFESTOP with the interrupt bit set, a discard of the work in flight under way, every configured axis holding
SAFESTOP, no mode transition and no firing; with a class latched there, mode and latch stand. DRAM, configuration, job, time and the Fawn domain stand. (R37,
R40, R41, R49, R401, R403, R411, R414, R490, Table 3.11, Table 14.4) -/
def Obligations.PowerFailAndSafestopEnterSafestop : Prop :=
  (∀ s : State, ∃ t, exec .pwrFailNFall s = .next t ∧ t.sys.pwrFailN = false ∧
    (verupRuns s = false → t = { s with sys := { s.sys with pwrFailN := false } }) ∧
    (verupRuns s = true → s.sys.mode ≠ .boot → SafestopBy .powerFail s t ∧ (lifeWritable s = true → t.life.flush.isSome = true))) ∧
  (∀ (p : Port) (v : Word) (s : State), windowReady s = true → verupRuns s = true → v.setWidth 16 = (0x3C5A : BitVec 16) → s.sys.mode ≠ .boot →
    s.sys.mode ≠ .safestop → ∃ t, exec (.sysSafestopWrite p v) s = .next t ∧ SafestopBy .hostRegister s t) ∧
  (∀ (p : Port) (v : Word) (s : State), v.setWidth 16 ≠ (0x3C5A : BitVec 16) ∨ s.sys.mode = .boot ∨ s.sys.mode = .safestop ∨ windowReady s = false →
    exec (.sysSafestopWrite p v) s = .next s) ∧
  (∀ (s : State) (c : Command), Doing s 0x0102 c → Does .sysSafestop s c { status := .ok } fun u => SafestopBy .hostCommand s u)

/-- O11. With the window ready, for each port: TIM_NOW_LO_READ returns the low word of TB and holds the upper word for that port; TIM_NOW_HI_READ returns the
held word, or the upper bits of the moment when the port has held none yet, and leaves what is held. The other port's holding register and everything
else stand. (R66) -/
def Obligations.TimNowReadsLatchTheUpperWord : Prop :=
  ∀ s : State, windowReady s = true →
    (exec (.timNowLoRead .host) s = .next { s with win := { s.win with
      holdHost := some ((s.time.tb >>> 32).setWidth 32), readHost := s.time.tb.setWidth 32 } }) ∧
    (exec (.timNowLoRead .spi) s = .next { s with win := { s.win with
      holdSpi := some ((s.time.tb >>> 32).setWidth 32), readSpi := s.time.tb.setWidth 32 } }) ∧
    (∀ w, s.win.holdHost = some w → exec (.timNowHiRead .host) s = .next { s with win := { s.win with readHost := w } }) ∧
    (∀ w, s.win.holdSpi = some w → exec (.timNowHiRead .spi) s = .next { s with win := { s.win with readSpi := w } }) ∧
    (s.win.holdHost = none → exec (.timNowHiRead .host) s = .next { s with win := { s.win with readHost := (s.time.tb >>> 32).setWidth 32 } }) ∧
    (s.win.holdSpi = none → exec (.timNowHiRead .spi) s = .next { s with win := { s.win with readSpi := (s.time.tb >>> 32).setWidth 32 } })

/-- O12. While Verup runs and the window is ready, a write of v to MBX_EVR_RD from either port: if (WR - v) modulo 65 536 is at most 1024, the read index
becomes the low 16 bits of v and nothing else changes; otherwise nothing changes but RD_BAD, which is set. (R79) -/
def Obligations.EvrReadIndexMovesOrSetsRdBad : Prop :=
  ∀ (p : Port) (v : Word) (s : State), verupRuns s = true → windowReady s = true →
    ((s.evr.wr - v.setWidth 16).toNat ≤ 1024 → exec (.mbxEvrRdWrite p v) s = .next { s with evr := { s.evr with rd := v.setWidth 16 } }) ∧
    (1024 < (s.evr.wr - v.setWidth 16).toNat → exec (.mbxEvrRdWrite p v) s = .next { s with evr := { s.evr with rdBad := true } })

/-- O13. While Verup runs, for every mailbox n and port: RING from the bound port in IDLE makes n PENDING and last in the order of doorbells, or before a
higher mailbox that rang in the same CTRL clock; RING outside IDLE, and of MB4 to MB7 in format 1, sets DB_REJECT alone; RING from the other port sets
FOREIGN alone; ACK in DONE makes n IDLE; ACK in any other state, or from the other port, changes nothing. A write to MBX_PORT changes the bits of the IDLE
mailboxes alone. Before Verup runs the three change nothing. (R67, R70, R73, R74, R84, Table 3.7) -/
def Obligations.MailboxDoorbellsMoveTheStates : Prop :=
  (∀ (p : Port) (n : Fin 8) (s : State), verupRuns s = true → boundPort s n = p → s.mbx.box[n].state = .idle →
    (s.mbx.fmt1 = true → n.val < 4) → ∃ t, exec (.mbxRing p n) s = .next t ∧
    t = { s with mbx := { s.mbx with
      order := t.mbx.order, box := s.mbx.box.set n { s.mbx.box[n] with state := .pending, rungAt := s.clock / 2 } } } ∧
    ((∀ m ∈ s.mbx.order, m ≠ n ∧ s.mbx.box[m].rungAt < s.clock / 2) → t.mbx.order = s.mbx.order ++ [n]) ∧
    (∀ m, s.mbx.order = [m] → m ≠ n → s.mbx.box[m].rungAt = s.clock / 2 → t.mbx.order = if n < m then [n, m] else [m, n])) ∧
  (∀ (p : Port) (n : Fin 8) (s : State), verupRuns s = true → boundPort s n = p →
    s.mbx.box[n].state ≠ .idle ∨ (s.mbx.fmt1 = true ∧ 4 ≤ n.val) →
    exec (.mbxRing p n) s = .next { s with mbx := { s.mbx with box := s.mbx.box.set n { s.mbx.box[n] with dbReject := true } } }) ∧
  (∀ (p : Port) (n : Fin 8) (s : State), verupRuns s = true → boundPort s n ≠ p →
    exec (.mbxRing p n) s = .next { s with mbx := { s.mbx with box := s.mbx.box.set n { s.mbx.box[n] with foreign := true } } }) ∧
  (∀ (p : Port) (n : Fin 8) (s : State), verupRuns s = true → boundPort s n = p → s.mbx.box[n].state = .done →
    exec (.mbxAck p n) s = .next { s with mbx := { s.mbx with box := s.mbx.box.set n { s.mbx.box[n] with state := .idle } } }) ∧
  (∀ (p : Port) (n : Fin 8) (s : State), boundPort s n ≠ p ∨ s.mbx.box[n].state ≠ .done → exec (.mbxAck p n) s = .next s) ∧
  (∀ (p : Port) (v : Word) (s : State), verupRuns s = true → windowReady s = true → ∃ t, exec (.mbxPortWrite p v) s = .next t ∧
    t = { s with mbx := { s.mbx with port := t.mbx.port } } ∧
    ∀ n : Fin 8, t.mbx.port.getLsbD n = if s.mbx.box[n].state = .idle then v.getLsbD n else s.mbx.port.getLsbD n) ∧
  (∀ (p : Port) (n : Fin 8) (v : Word) (s : State), verupRuns s = false →
    exec (.mbxRing p n) s = .next s ∧ exec (.mbxAck p n) s = .next s ∧ exec (.mbxPortWrite p v) s = .next s)

/-- O14. With Verup running, no command executing, mailbox n first in the doorbell order, its command no BARRIER that must wait, and no job action
that fell due before it rang: the next sequence with every check passed puts n in EXEC with its command as the one executing; the next sequence that
fails a check is answered the status and detail of the first that fails, with no effect, an unknown opcode BAD_OPCODE; the last executed sequence
writes the stored response unchanged and moves n to DONE; any other sequence writes BAD_SEQ, whose detail is the low 16 bits of the expected sequence,
and MBX_SEQn and the stored response stand. A BARRIER waits while a background operation or a stalled command is under way, whenever it was accepted,
and no longer; where a job action goes first nothing changes; a word of the control SRAM that cannot be corrected raises CTL_ECC. A command in EXEC
whose mode no longer accepts it is answered the status that turns it away and has no effect; a row of a command that is neither the one executing nor
a stalled one changes nothing; the row of a stalled command acts as if that command were the one executing, which it leaves as it is. (That the mode
is judged again when the command's row comes, and the rows themselves, are the model's, assumption log 7.) (R41, R68, R69, R72, R74, R84, R380, R469,
R507, R509, Table 13.7) -/
def Obligations.AcceptanceFollowsTheSequence : Prop :=
  (∀ (n : Fin 8) (rest : List (Fin 8)) (s : State), verupRuns s = true → s.mbx.current = none → s.mbx.order = n :: rest → n ∉ rest →
    Memory.wf s.mbx.area = true → jobActionFirst n s = false →
    (s.mbx.fmt1 = true ∨ bitOf (headerOf n s).flags 1 = false ∨ barrierFree s = true) →
    (BitVec.ofNat 32 (headerOf n s).seq = expectedSeq n s → judgeCommand (headerOf n s) (payloadOf n (headerOf n s) s) s = none →
      exec (.mailboxAccept none) s = .next { enterExec n rest s with mbx := { (enterExec n rest s).mbx with current := some (commandIn n s) } }) ∧
    (∀ st d, BitVec.ofNat 32 (headerOf n s).seq = expectedSeq n s →
      judgeCommand (headerOf n s) (payloadOf n (headerOf n s) s) s = some (st, d) →
      ∃ t, exec (.mailboxAccept none) s = .next t ∧ Answered (commandIn n s) { status := st, detail := d } (enterExec n rest s) t) ∧
    (opRow (headerOf n s).opcode = none → judgeCommand (headerOf n s) (payloadOf n (headerOf n s) s) s = some (.badOpcode, 0)) ∧
    (BitVec.ofNat 32 (headerOf n s).seq = s.mbx.box[n].seq → BitVec.ofNat 32 (headerOf n s).seq ≠ expectedSeq n s → s.mbx.box[n].executed = true →
      ∃ t, exec (.mailboxAccept none) s = .next t ∧
        t = { s with mbx := { s.mbx with area := t.mbx.area, order := rest, box := s.mbx.box.set n { s.mbx.box[n] with state := .done } }
                     sys := { s.sys with irqStatus := s.sys.irqStatus ||| doneBit (commandIn n s), irqFresh := t.sys.irqFresh }
                     host := { s.host with held := t.host.held } } ∧
        Mem.readN t.mbx.area (respArea n) s.mbx.box[n].stored.length = s.mbx.box[n].stored) ∧
    (BitVec.ofNat 32 (headerOf n s).seq ≠ expectedSeq n s →
      BitVec.ofNat 32 (headerOf n s).seq ≠ s.mbx.box[n].seq ∨ s.mbx.box[n].executed = false →
      ∃ t bytes, exec (.mailboxAccept none) s = .next t ∧
        bytes = responseBytes { mb := n, opcode := (headerOf n s).opcode, seq := BitVec.ofNat 32 (headerOf n s).seq, payload := [] }
          { status := .badSeq, detail := (expectedSeq n s).toNat % 65536 } s ∧
        t = { s with mbx := { s.mbx with area := t.mbx.area, order := rest, box := s.mbx.box.set n { s.mbx.box[n] with state := .done } }
                     sys := { s.sys with irqStatus := s.sys.irqStatus ||| doneBit (commandIn n s), irqFresh := t.sys.irqFresh }
                     host := { s.host with held := t.host.held } } ∧
        Mem.readN t.mbx.area (respArea n) bytes.length = bytes)) ∧
  (∀ (n : Fin 8) (s : State), verupRuns s = true → s.mbx.current = none → s.mbx.order = [n] → s.mbx.fmt1 = false →
    bitOf (headerOf n s).flags 1 = true → s.mbx.bg ≠ [] ∨ s.mbx.stuck ≠ [] → exec (.mailboxAccept none) s = .next s) ∧
  (∀ s : State, s.mbx.bg = [] → s.mbx.stuck = [] → barrierFree s = true) ∧
  (∀ (n : Fin 8) (rest : List (Fin 8)) (s : State), verupRuns s = true → s.mbx.order = n :: rest → jobActionFirst n s = true →
    (s.mbx.fmt1 = true ∨ bitOf (headerOf n s).flags 1 = false) → exec (.mailboxAccept none) s = .next s) ∧
  (∀ (e : WordErr) (s : State), verupRuns s = true → s.mbx.current = none → s.sys.mode ≠ .boot →
    (ownerFinds 0x74 5 ((416 + e.bank.val) * 8192 + e.word.val) e.synd s).1 = true → ∃ t, exec (.mailboxAccept (some e)) s = .next t ∧
      SafestopBy .ctlEcc (ownerFinds 0x74 5 ((416 + e.bank.val) * 8192 + e.word.val) e.synd s).2 t) ∧
  (∀ (i : Instr) (op : Nat) (s : State) (c : Command) (st : Status), commandOf i = some op → InExec s op c → turnedAway op s = some st →
    Answers i s c { status := st } s) ∧
  (∀ (i : Instr) (op : Nat) (s : State), commandOf i = some op → (∀ c, s.mbx.current = some c → c.opcode ≠ op) →
    (∀ c ∈ s.mbx.stuck, c.opcode ≠ op) → exec i s = .next s) ∧
  (∀ (i : Instr) (op : Nat) (s : State) (c : Command) (rest : List Command), commandOf i = some op →
    (∀ d, s.mbx.current = some d → d.opcode ≠ op) → s.mbx.stuck = c :: rest → c.opcode = op →
    ∃ t, exec i { s with mbx := { s.mbx with current := some c, stuck := rest } } = .next t ∧
      exec i s = .next { t with mbx := { t.mbx with current := s.mbx.current } })

/-- O15. MBX_STALL, with a mailbox in EXEC for longer than MBX_WDOG.LIMIT and not yet reported, sets its TIMEOUT and the interrupt bit, leaves it in
EXEC, and raises MBX_STALL in the Control region; the command that Verup was executing there no longer keeps it from the other mailboxes. With nothing
latched there it is latched there, and with another class latched there it goes on to the chip. CORE_WDOG while Verup runs sets its interrupt bit and
raises CORE_WDOG in the region and at the chip; while Verup starts it is latched at both and BOOT stays. EVR_AGE_THRESHOLD sets EVR_THRESH when AGE is
not zero and the oldest unread entry has waited AGE times 10 us, and nothing otherwise. RING_OVERFLOW_WRITEOUT writes as much of an episode as the
ring has room for, ev.ring_overflow first: what is held after it is the end of what was held, no room being left for the first of it, and with nothing
held the episode ends. SUPPRESSED_EVENT_REPORT raises the latest suppressed occurrence with SUPPRESSED and starts a new period if it is taken, and
changes nothing before the period has passed. COUNTERS_REPORT reports the changed groups and clears their marks. (R54, R76, R78, R80, R401, R403,
R530, R531, R533, Table 3.12, Table 14.4, Table 19.9) -/
def Obligations.WatchdogsAndRingLimitsReport : Prop :=
  (∀ (n : Fin 8) (s : State), s.mbx.box[n].state = .exec → s.mbx.box[n].stalled = false →
    s.mbx.box[n].execAt + s.mbx.wdog.toNat * 800000 < s.clock → (∀ m : Fin 8, m < n → overdue s m = false) →
    s.sys.mode ≠ .boot → s.sys.mode ≠ .keepalive → ∃ t, exec .mbxStall s = .next t ∧
    t.mbx.box[n].timeout = true ∧ t.sys.irqStatus &&& irqMbxWdog = irqMbxWdog ∧ t.cfg = s.cfg ∧ t.mem.dram = s.mem.dram ∧ t.job = s.job ∧
    (latchedAt s { level := .region, source := 5 } = none →
      t.mbx = { s.mbx with
        box := s.mbx.box.set n { s.mbx.box[n] with timeout := true, timeoutAt := some (s.clock / 2), stalled := true }
        current := s.mbx.current.filter fun c => c.mb ≠ n
        stuck := s.mbx.stuck ++ (s.mbx.current.filter fun c => c.mb = n).toList } ∧
      latchedAt t { level := .region, source := 5 } = some .mbxStall ∧ t.sys.mode = s.sys.mode ∧ t.mem = s.mem ∧ t.axes = s.axes ∧
      t.swath = s.swath ∧ t.wave = s.wave) ∧
    (∀ k, latchedAt s { level := .region, source := 5 } = some k → k ≠ .mbxStall →
      latchedAt t { level := .region, source := 5 } = some k ∧ SafestopBy .mbxStall s t)) ∧
  (∀ s : State, (∀ n : Fin 8, overdue s n = false) → exec .mbxStall s = .next s) ∧
  (∀ s : State, s.sys.phase = .running → s.sys.mode ≠ .boot → s.sys.mode ≠ .keepalive → ∃ t, exec .coreWdog s = .next t ∧
    t.sys.irqStatus &&& irqCoreWdog = irqCoreWdog ∧ SafestopBy .coreWdog s t ∧
    (latchedAt s { level := .region, source := 5 } = none → latchedAt t { level := .region, source := 5 } = some .coreWdog)) ∧
  (∀ s : State, s.sys.phase = .starting → s.sys.mode = .boot → latchedAt s { level := .region, source := 5 } = none → latchedAt s chipInst = none →
    ∃ t, exec .coreWdog s = .next t ∧ t.sys.irqStatus &&& irqCoreWdog = irqCoreWdog ∧ t.sys.mode = .boot ∧
    latchedAt t { level := .region, source := 5 } = some .coreWdog ∧ latchedAt t chipInst = some .coreWdog ∧ t.cfg = s.cfg ∧ t.mem = s.mem) ∧
  (∀ (s : State) (e : Entry), s.evr.age ≠ 0 → s.evr.unread ≠ 0 → s.evr.ring[s.evr.unread - 1]? = some e → e.at_ + s.evr.age * 8000 ≤ s.clock →
    ∃ t, exec .evrAgeThreshold s = .next t ∧
    t = { s with sys := { s.sys with irqStatus := s.sys.irqStatus ||| irqEvrThresh, irqFresh := t.sys.irqFresh }
                 host := { s.host with held := t.host.held } }) ∧
  (∀ s : State, s.evr.age = 0 ∨ s.evr.unread = 0 ∨ (∀ e, s.evr.ring[s.evr.unread - 1]? = some e → s.clock < e.at_ + s.evr.age * 8000) →
    exec .evrAgeThreshold s = .next s) ∧
  (∀ s : State, s.sys.phase = .running → s.evr.unread ≤ 1024 → ∃ t k, exec .ringOverflowWriteout s = .next t ∧ EventsOnly s t ∧
    t.evr.held = s.evr.held.drop k ∧ t.evr.rd = s.evr.rd ∧ t.evr.unread ≤ 1024 ∧ t.evr.lost = s.evr.lost ∧ t.evr.limits = s.evr.limits ∧
    (s.evr.episode = false → t = s) ∧ (s.evr.episode = true → s.evr.overflowWritten = false →
      s.evr.room (1 + (s.evr.held.map fun e => e.conts + 1).headD 0) = false → t = s) ∧
    (s.evr.episode = true → s.evr.overflowWritten = true ∨ s.evr.room (1 + (s.evr.held.map fun e => e.conts + 1).headD 0) = true →
      (∀ e rest, t.evr.held = e :: rest → t.evr.room (e.conts + 1) = false) ∧ (t.evr.held = [] → t.evr.episode = false))) ∧
  (∀ (s : State) (e : Event), s.sys.phase = .running → s.evr.episode = true → s.evr.overflowWritten = false → s.evr.held = [e] →
    e.payload.length ≤ 16 → s.evr.unread + 2 ≤ 1024 → ∃ t, exec .ringOverflowWriteout s = .next t ∧
    t.evr.held = [] ∧ t.evr.episode = false ∧ t.evr.wr = s.evr.wr + 2 ∧
    t.evr.ring = (([{ code := e.code, source := e.source, flags := e.flags + 0x10, status := e.status, cont := 0, gap := 0, time := e.time
                      payload := padTo 16 e.payload, at_ := s.clock },
                   { code := 0x0102, source := 0, flags := 0, status := 0, cont := 0, gap := min s.evr.gap 255, time := s.time.tb
                     payload := overflowPayload s.evr, at_ := s.clock }] : List Entry) ++ s.evr.ring).take 1024) ∧
  (∀ (s : State) (code inst : Nat) (r : LimitRec) (q : Event), s.evr.limits.find? (fun r => r.code == code && r.inst == inst) = some r →
    r.suppressed = some q → r.written + limitPeriod code ≤ s.clock → ∃ t, exec (.suppressedEventReport code inst) s = .next t ∧ EventsOnly { s with fbk := t.fbk } t ∧
    (code ≠ 0x0902 → t.fbk = s.fbk) ∧
    t.evr.limits = { code := code, inst := inst, written := if takesEvent q s then s.clock else r.written, suppressed := none } ::
      s.evr.limits.filter (fun x => !(x.code == code && x.inst == inst))) ∧
  (∀ (s : State) (code inst : Nat) (r : LimitRec) (q : Event), s.sys.phase = .running → s.evr.episode = false → s.evr.held = [] →
    s.evr.limits.find? (fun r => r.code == code && r.inst == inst) = some r → r.suppressed = some q → r.written + limitPeriod code ≤ s.clock →
    q.payload.length ≤ 16 → s.evr.unread + 1 ≤ 1024 → ∃ t, exec (.suppressedEventReport code inst) s = .next t ∧ t.evr.wr = s.evr.wr + 1 ∧
    t.evr.ring = ({ code := q.code, source := q.source, flags := q.flags + 0x20, status := q.status, cont := 0, gap := min s.evr.gap 255
                    time := q.time, payload := padTo 16 q.payload, at_ := s.clock } :: s.evr.ring).take 1024) ∧
  (∀ (s : State) (code inst : Nat) (r : LimitRec), s.evr.limits.find? (fun r => r.code == code && r.inst == inst) = some r →
    s.clock < r.written + limitPeriod code → exec (.suppressedEventReport code inst) s = .next s) ∧
  (∀ s : State, s.sys.phase = .running → ∃ t, exec .countersReport s = .next t ∧ EventsOnly s t ∧
    t.evr.dirtyGroups = s.evr.dirtyGroups.filter fun g => decide (10 ≤ g)) ∧
  (∀ (s : State) (g : Nat), s.sys.phase = .running → s.evr.episode = false → s.evr.held = [] → s.evr.dirtyGroups = [g] → 1 ≤ g → g ≤ 9 → g ≠ 2 → g ≠ 5 →
    (groupPayload g s).2.length ≤ 16 → s.evr.unread + 1 ≤ 1024 → ∃ t, exec .countersReport s = .next t ∧ t.evr.dirtyGroups = [] ∧
    t.evr.ring = ({ code := 0x0F02, source := (groupPayload g s).1, flags := 0, status := g, cont := 0, gap := min s.evr.gap 255
                    time := s.time.tb, payload := padTo 16 (groupPayload g s).2, at_ := s.clock } :: s.evr.ring).take 1024)

/-- O16. With the window ready, for either port and every value. In BOOT too: SYS_SCRATCH takes the word; SYS_IRQ_STATUS clears the bits written as 1 but for
those an event has set in the same CTRL clock; SYS_IRQ_EN_HOST and SYS_IRQ_EN_MGT take the low 15 bits, the first queueing an interrupt message when a
masked bit rises with the link up; SYS_RESET takes the key 0xA5C3 alone, which asks for a warm reset. While Verup runs: a write to MBX_CTLn does ACK and
then RING as its bits say; the flags of MBX_STATn clear where written as 1, TIMEOUT not in the CTRL clock that set it; MBX_PORT and MBX_EVR_RD do as
their rows; MBX_WDOG takes a limit that is not 0; MBX_EVR_CTRL takes THRESH in its range and AGE, and clears RD_BAD where written as 1; a word of an IDLE
or DONE mailbox's command area takes the word, while one of a PENDING or EXEC mailbox sets LOCKED_WRITE alone; the response areas, the ring, and every
offset with a read-only register or none ignore the write. Before Verup runs every other offset ignores it. (R10, R11, R12, R47, R64, R67, R70, R71, R79,
R82, Table 3.10, Table 3.15) -/
def Obligations.RegisterWritesFollowTheAccessCodes : Prop :=
  (∀ (p : Port) (v : Word) (s : State), windowReady s = true →
    (exec (.registerWrite p 0x20 v) s = .next { s with sys := { s.sys with scratch := v } }) ∧
    (exec (.registerWrite p 0x28 v) s = .next { s with sys := { s.sys with
      irqStatus := s.sys.irqStatus &&& ~~~(v.setWidth 15 &&& ~~~(if s.sys.irqFresh.1 = s.clock / 2 then s.sys.irqFresh.2 else 0)) } }) ∧
    (exec (.registerWrite p 0x2C v) s = .next { s with
      sys := { s.sys with irqEnHost := v.setWidth 15 }
      host := { s.host with held := s.host.held ++
        (if s.sys.irqStatus &&& v.setWidth 15 &&& ~~~(s.sys.irqStatus &&& s.sys.irqEnHost) ≠ 0 ∧ s.host.linkUp = true
          then [{ ftype := 0x06, vc := 0, data := leBytes 4 (s.sys.irqStatus &&& v.setWidth 15).toNat }] else []) } }) ∧
    (exec (.registerWrite p 0x30 v) s = .next { s with sys := { s.sys with irqEnMgt := v.setWidth 15 } }) ∧
    (exec (.registerWrite p 0x18 v) s = exec (.sysResetWrite p v) s) ∧
    (v.setWidth 16 ≠ (0xA5C3 : BitVec 16) → exec (.sysResetWrite p v) s = .next s) ∧
    (v.setWidth 16 = (0xA5C3 : BitVec 16) → ∃ t, exec (.sysResetWrite p v) s = .next t ∧
      t.sys.resetPending = true ∧ mayFire t = false ∧ t.sys.mode = s.sys.mode ∧ t.job = s.job ∧ t.cfg = s.cfg ∧ t.mem = { s.mem with scrub := t.mem.scrub } ∧
      t.life.nv = s.life.nv ∧ t.axes = s.axes ∧ t.time = s.time ∧ t.fawn = s.fawn ∧
      (s.sys.resetPending = true → t = s) ∧
      (s.sys.resetPending = false → t.sys.resetKind = 2 ∧ t.sys.resetTb = s.time.tb ∧ t.sys.transition = none ∧
        (s.sys.mode ≠ .boot → lifeWritable s = true → t.life.flush.isSome = true)))) ∧
  (∀ (p : Port) (v : Word) (s : State), windowReady s = true → verupRuns s = true →
    (exec (.registerWrite p 0x1C v) s = exec (.sysSafestopWrite p v) s) ∧ (exec (.registerWrite p 0x1080 v) s = exec (.mbxPortWrite p v) s) ∧
    (exec (.registerWrite p 0x10C4 v) s = exec (.mbxEvrRdWrite p v) s) ∧
    (v.setWidth 8 ≠ (0 : BitVec 8) → exec (.registerWrite p 0x1084 v) s = .next { s with mbx := { s.mbx with wdog := v.setWidth 8 } }) ∧
    (v.setWidth 8 = (0 : BitVec 8) → exec (.registerWrite p 0x1084 v) s = .next s) ∧
    (exec (.registerWrite p 0x10C8 v) s = .next { s with evr := { s.evr with
      thresh := if 1 ≤ v.toNat % 2048 ∧ v.toNat % 2048 ≤ 1024 then v.toNat % 2048 else s.evr.thresh
      age := v.toNat / 65536 % 256, rdBad := s.evr.rdBad && !v.getLsbD 24 } }) ∧
    (∀ n : Fin 8, ∃ t, (if v.getLsbD 1 then exec (.mbxAck p n) s else .next s) = .next t ∧
      exec (.registerWrite p (0x1000 + 16 * BitVec.ofNat 16 n.val) v) s = (if v.getLsbD 0 then exec (.mbxRing p n) t else .next t)) ∧
    (∀ n : Fin 8, exec (.registerWrite p (0x1004 + 16 * BitVec.ofNat 16 n.val) v) s = .next { s with mbx := { s.mbx with
      box := s.mbx.box.set n { s.mbx.box[n] with
        dbReject := s.mbx.box[n].dbReject && !v.getLsbD 4, foreign := s.mbx.box[n].foreign && !v.getLsbD 5
        lockedWrite := s.mbx.box[n].lockedWrite && !v.getLsbD 6
        timeout := s.mbx.box[n].timeout && (!v.getLsbD 7 || s.mbx.box[n].timeoutAt == some (s.clock / 2)) } } }) ∧
    (∀ (n : Fin 8) (k : Fin 256), s.mbx.box[n].state = .pending ∨ s.mbx.box[n].state = .exec →
      exec (.registerWrite p (0x4000 + 0x800 * BitVec.ofNat 16 n.val + 4 * BitVec.ofNat 16 k.val) v) s = .next { s with mbx := { s.mbx with
        box := s.mbx.box.set n { s.mbx.box[n] with lockedWrite := true } } }) ∧
    (∀ (n : Fin 8) (k : Fin 256), s.mbx.box[n].state = .idle ∨ s.mbx.box[n].state = .done →
      exec (.registerWrite p (0x4000 + 0x800 * BitVec.ofNat 16 n.val + 4 * BitVec.ofNat 16 k.val) v) s = .next { s with mbx := { s.mbx with
        area := Mem.writeN s.mbx.area (cmdArea n + 4 * k.val) (leBytes 4 v.toNat) } }) ∧
    (∀ (n : Fin 8) (k : Fin 256),
      exec (.registerWrite p (0x4400 + 0x800 * BitVec.ofNat 16 n.val + 4 * BitVec.ofNat 16 k.val) v) s = .next s)) ∧
  (∀ (p : Port) (o : BitVec 16) (v : Word) (s : State), windowReady s = true →
    0x8000 ≤ o.toNat ∨ (o.toNat < 0x4000 ∧ ¬(0x1000 ≤ o.toNat ∧ o.toNat < 0x1080 ∧ o.toNat % 16 ≤ 4) ∧
      o.toNat ∉ [0x18, 0x1C, 0x20, 0x28, 0x2C, 0x30, 0x1080, 0x1084, 0x10C4, 0x10C8]) →
    exec (.registerWrite p o v) s = .next s) ∧
  (∀ (p : Port) (o : BitVec 16) (v : Word) (s : State), verupRuns s = false → o.toNat ∉ [0x18, 0x20, 0x28, 0x2C, 0x30] →
    exec (.registerWrite p o v) s = .next s)

/-- O17. Outside KEEPALIVE: a frame 0x0B with an aligned address returns four bytes of 0xFF, then READY, then the window's bytes from that address upward,
wrapping at its end, as many as the frame asks for; with READY 0 they read 0xFF; LAST_ERR says whether a word was left unfinished. A frame 0x02 with an
aligned address and READY 1 writes each whole word as REGISTER_WRITE by this port does, drops the bytes left over, with LAST_ERR set when there are any,
and returns 0xFF throughout. The port status frame returns WINDOW_READY, LAST_ERR and INT_MGT and clears LAST_ERR. A frame of another opcode, cut before
its address ends, with an unaligned address, or a write with READY 0 has no effect but LAST_ERR. In KEEPALIVE the port does nothing. (That a read with READY
0 does not set LAST_ERR is the model's, assumption log 46.) (R60, R61, R62, R63, R64, R66, Table 3.4, assumption log 46) -/
def Obligations.SpiFramesReadAndWriteTheWindow : Prop :=
  (∀ (a : BitVec 16) (bs : List Byte) (s : State), s.sys.mode ≠ .keepalive → windowReady s = true → a.toNat % 4 = 0 → 2 ≤ bs.length →
    ∃ t d, exec (.spiReadFrame (0x0B :: leBytes 2 a.toNat ++ bs)) s = .next t ∧
      t = { s with win := t.win, sent := ⟨.spi, d⟩ :: s.sent } ∧ d.length = bs.length + 3 ∧ d.take 5 = [0xFF, 0xFF, 0xFF, 0xFF, 1] ∧
      t.win.spiLastErr = decide ((bs.length - 2) % 4 ≠ 0) ∧ t.win.holdHost = s.win.holdHost ∧
      (∀ i, i < bs.length - 2 → (a.toNat + 4 * (i / 4)) % 65536 ≠ 0x44 →
        uAt d (5 + i) 1 = windowWord s ((a.toNat + 4 * (i / 4)) % 65536) / 256 ^ (i % 4) % 256)) ∧
  (∀ (a : BitVec 16) (bs : List Byte) (s : State), s.sys.mode ≠ .keepalive → windowReady s = false → a.toNat % 4 = 0 → 2 ≤ bs.length →
    exec (.spiReadFrame (0x0B :: leBytes 2 a.toNat ++ bs)) s = .next { s with
      win := { s.win with spiLastErr := decide ((bs.length - 2) % 4 ≠ 0) }
      sent := ⟨.spi, [0xFF, 0xFF, 0xFF, 0xFF, 0] ++ List.replicate (bs.length - 2) 0xFF⟩ :: s.sent }) ∧
  (∀ (a : BitVec 16) (b : Byte) (s : State), s.sys.mode ≠ .keepalive → a.toNat % 4 = 0 →
    exec (.spiReadFrame (0x0B :: leBytes 2 a.toNat ++ [b])) s = .next { s with
      win := { s.win with spiLastErr := false }, sent := ⟨.spi, [0xFF, 0xFF, 0xFF, 0xFF]⟩ :: s.sent }) ∧
  (∀ (f : List Byte) (s : State), s.sys.mode ≠ .keepalive → uAt f 0 1 ≠ 0x0B ∨ f.length < 4 ∨ uAt f 1 2 % 4 ≠ 0 →
    exec (.spiReadFrame f) s = .next { s with win := { s.win with spiLastErr := true } }) ∧
  (∀ (a : BitVec 16) (ws : List Word) (rest : List Byte) (s : State), s.sys.mode ≠ .keepalive → windowReady s = true → a.toNat % 4 = 0 →
    rest.length < 4 → ∃ t, exec (.spiWriteFrame (0x02 :: leBytes 2 a.toNat ++ ws.flatMap (fun w => leBytes 4 w.toNat) ++ rest)) s =
        .next { t with win := { t.win with spiLastErr := decide (rest.length ≠ 0) } } ∧
      SpiWrites a ws { s with sent := ⟨.spi, List.replicate (3 + 4 * ws.length + rest.length) 0xFF⟩ :: s.sent } t) ∧
  (∀ (f : List Byte) (s : State), s.sys.mode ≠ .keepalive → uAt f 0 1 = 0x02 → f.length < 3 ∨ uAt f 1 2 % 4 ≠ 0 ∨ windowReady s = false →
    exec (.spiWriteFrame f) s = .next { s with
      win := { s.win with spiLastErr := true }, sent := ⟨.spi, List.replicate f.length 0xFF⟩ :: s.sent }) ∧
  (∀ (f : List Byte) (s : State), s.sys.mode ≠ .keepalive → uAt f 0 1 ≠ 0x02 →
    exec (.spiWriteFrame f) s = .next { s with win := { s.win with spiLastErr := true } }) ∧
  (∀ s : State, s.sys.mode ≠ .keepalive → exec .spiPortStatus s = .next { s with
      win := { s.win with spiLastErr := false }
      sent := ⟨.spi, [0xFF, BitVec.ofNat 8 ((if s.sys.sweepDone then 1 else 0) + (if s.win.spiLastErr then 2 else 0) +
        (if intMgt s then 4 else 0))]⟩ :: s.sent }) ∧
  (∀ (f : List Byte) (s : State), s.sys.mode = .keepalive →
    exec (.spiReadFrame f) s = .next s ∧ exec (.spiWriteFrame f) s = .next s ∧ exec .spiPortStatus s = .next s)

/-- O18. For every table of parameters, relation, set and list of items: when the list is accepted with set m as its outcome, every item reads back from
m, every element that no item names reads as before, every item names a parameter of the table within its range, no element is named twice, and the
relation holds of m. (R508, R510, R511) -/
def Obligations.ParameterListsSetExactlyTheirItems : Prop :=
  ∀ (specs : List PSpec) (rel : ParamSet → Option (List Nat)) (ps m : ParamSet) (its : List PItem), judgeList specs rel ps its = .ok m →
    (∀ it ∈ its, pfind m it.id it.index = some it.value) ∧
    (∀ id index, (∀ it ∈ its, it.id ≠ id ∨ it.index ≠ index) → pfind m id index = pfind ps id index) ∧
    (∀ it ∈ its, ∃ q ∈ specs, q.id = it.id ∧ it.index < q.count ∧ q.lo ≤ it.value ∧ it.value ≤ q.hi) ∧
    (its.map fun it => (it.id, it.index)).Nodup ∧ rel m = none

/-- O19. With an accepted list, cfg.bar and cfg.head (of a port whose head record does not break R164, with the record known unless the list only clears
ENABLE, within the delay lines) change the staged image alone and are answered OK; a list with an item that is refused, of another target, or for a port
whose head record breaks R164 is answered BAD_ARG and its detail, one for a port whose record is not known BAD_STATE, one beyond the delay lines NO_SPACE,
and changes nothing. cfg.commit, with no table or bank being built, begins a mode transition, its response waiting, and with PAIR 1 and the twin link up it
asks the peer for its PAIR_INFO; while one is being built it is BUSY. MODE_TRANSITION_END of a commit of PAIR 0, all checks passed, ends in IDLE,
unpaired, with the staged image and its CV in force, the records of the configured ports committed, the axis limits in force, and the response OK carrying
the CV; the first check that fails answers BAD_STATE with item and number, and nothing is put in force. MODE_TRANSITION_END of the end of a job enters
IDLE once no cycle runs, and waits before. (R40, R41, R166, R167, R173, R336, R371, R424, R511, R512, R577, Table 18.7) -/
def Obligations.ConfigurationIsStagedAndCommitted : Prop :=
  (∀ (s : State) (c : Command) (its : List PItem), Doing s 0x0201 c → its = spoil (fun it => it.id == 3 && !isBlock it.index) (listItems c.payload 0) →
    (listTarget c.payload 0 ≠ 0 → Answers .cfgBar s c { status := .badArg } s) ∧
    (listTarget c.payload 0 = 0 →
      (∀ m, judgeList barSpecs (barRelation s.sys.straps.lgcySel) s.cfg.staged.bar its = .ok m →
        Answers .cfgBar s c { status := .ok } { s with cfg := { s.cfg with staged := { s.cfg.staged with bar := m } } }) ∧
      (∀ d, judgeList barSpecs (barRelation s.sys.straps.lgcySel) s.cfg.staged.bar its = .error d →
        Answers .cfgBar s c { status := .badArg, detail := d } s))) ∧
  (∀ (s : State) (c : Command), Doing s 0x0202 c → 16 ≤ listTarget c.payload 0 → Answers .cfgHead s c { status := .badArg } s) ∧
  (∀ (s : State) (c : Command) (p : Fin 16) (its : List PItem), Doing s 0x0202 c → listTarget c.payload 0 = p.val →
    its = spoil (headItemBad (geometryOf s p.val) s.heads[p].record) (listItems c.payload 0) →
    (s.heads[p].geomBad = true → Answers .cfgHead s c { status := .badArg } s) ∧
    (s.heads[p].geomBad = false →
      (∀ d, judgeList headSpecs headRelation s.cfg.staged.heads[p] its = .error d → Answers .cfgHead s c { status := .badArg, detail := d } s) ∧
      (∀ m, judgeList headSpecs headRelation s.cfg.staged.heads[p] its = .ok m →
        (geometryOf s p.val = none → (∃ it ∈ listItems c.payload 0, it.id ≠ 1 ∨ it.value ≠ 0) → Answers .cfgHead s c { status := .badState } s) ∧
        ((geometryOf s p.val).isSome = true ∨ (∀ it ∈ listItems c.payload 0, it.id = 1 ∧ it.value = 0) →
          (max 16777216 (delayTotal s s.cfg.staged.heads) < delayTotal s (s.cfg.staged.heads.set p m) → Answers .cfgHead s c { status := .noSpace } s) ∧
          (delayTotal s (s.cfg.staged.heads.set p m) ≤ max 16777216 (delayTotal s s.cfg.staged.heads) →
            Answers .cfgHead s c { status := .ok } { s with cfg := { s.cfg with staged := { s.cfg.staged with heads := s.cfg.staged.heads.set p m } } }))))) ∧
  (∀ (s : State) (c : Command), Doing s 0x0203 c → isBuilding s = false → ∃ t, exec .cfgCommit s = .next t ∧
    t = { bgStart .transition s with
      mbx := { (bgStart .transition s).mbx with current := none }
      sys := { s.sys with transition := some { target := .idle, cause := 0x0203, waiting := some c } }
      twin := t.twin, twinLink := t.twinLink, sent := t.sent } ∧
    (pairStaged s = false ∨ s.twinLink.linkUp = false → t.twin = s.twin ∧ t.twinLink = s.twinLink ∧ t.sent = s.sent) ∧
    (pairStaged s = true → s.twinLink.linkUp = true → t.twin.peerInfo = none)) ∧
  (∀ (s : State) (c : Command), Doing s 0x0203 c → isBuilding s = true → Answers .cfgCommit s c { status := .busy } s) ∧
  (∀ (s v : State) (c : Command) (pats : List (Nat × List Nat)), commitUnderWay s = some c → pairStaged s = false → s.sys.resetPending = false →
    Memory.wf s.mbx.area = true → commitItemA s (asCommitted s) = none →
    readPatterns (asCommitted s) ((portsOn (asCommitted s)).filter (usesPattern (asCommitted s))) s = (.ok pats, v) →
    commitItemB v (asCommitted s) = none →
    ∃ t bytes, exec .modeTransitionEnd s = .next t ∧ bytes = responseBytes c { status := .ok, payload := leBytes 4 (configCv (asCommitted s)).toNat } s ∧
      t.sys.mode = .idle ∧ t.sys.transition = none ∧ t.cfg.live = s.cfg.staged ∧ t.cfg.staged = s.cfg.staged ∧
      t.cfg.cv = configCv (asCommitted s) ∧ t.bar.committed = true ∧ t.twin.paired = false ∧ t.sys.legacy = (asCommitted s).sys.legacy ∧
      t.sys.profile = (asCommitted s).sys.profile ∧ t.mbx.fmt1 = (if (asCommitted s).sys.legacy = s.sys.legacy then s.mbx.fmt1 else (asCommitted s).sys.legacy) ∧
      t.mbx.box[c.mb].state = .done ∧
      t.mbx.box[c.mb].seq = (if (asCommitted s).sys.legacy = s.sys.legacy then c.seq else if (asCommitted s).sys.legacy then 0xFFFF else 0xFFFFFFFF) ∧
      Mem.readN t.mbx.area (respArea c.mb) bytes.length = bytes ∧
      (∀ p : Fin 16, t.heads[p].committed = if portOn (asCommitted s) p.val then s.heads[p].record else none) ∧
      (∀ a : Fin 8, t.axes[a].lim = s.axes[a].staged ∧ t.axes[a].deferred = none) ∧
      t.job = s.job ∧ t.eth = s.eth ∧ t.fawn = s.fawn ∧ t.time = s.time ∧
      ((portsOn (asCommitted s)).filter (usesPattern (asCommitted s)) = [] → t.mem = s.mem)) ∧
  (∀ (s v : State) (c : Command) (i n : Nat), commitUnderWay s = some c → pairStaged s = false → Memory.wf s.mbx.area = true →
    (commitItemA s (asCommitted s) = some (i, n) ∨
      (commitItemA s (asCommitted s) = none ∧ i = 0x0B ∧
        readPatterns (asCommitted s) ((portsOn (asCommitted s)).filter (usesPattern (asCommitted s))) s = (.error n, v)) ∨
      (commitItemA s (asCommitted s) = none ∧ commitItemB v (asCommitted s) = some (i, n) ∧
        ∃ pats, readPatterns (asCommitted s) ((portsOn (asCommitted s)).filter (usesPattern (asCommitted s))) s = (.ok pats, v))) →
    ∃ t bytes, exec .modeTransitionEnd s = .next t ∧ bytes = responseBytes c { status := .badState, detail := i * 256 + n } s ∧
      t.sys.mode = s.sys.mode ∧ t.sys.transition = none ∧ t.cfg = s.cfg ∧ (∀ p : Fin 16, t.heads[p] = s.heads[p]) ∧
      t.axes = s.axes ∧ t.job = s.job ∧ t.bar = s.bar ∧ t.time = s.time ∧ t.mbx.box[c.mb].state = .done ∧ t.mbx.box[c.mb].seq = c.seq ∧
      Mem.readN t.mbx.area (respArea c.mb) bytes.length = bytes) ∧
  (∀ s : State, commitUnderWay s = none → jobEnding s = true → cyclesRun s = false → s.sys.resetPending = false → ∃ t, exec .modeTransitionEnd s = .next t ∧
    t.sys.mode = .idle ∧ t.sys.transition = none ∧ t.cfg = s.cfg ∧ t.job = s.job ∧ t.mem = s.mem ∧
    t.mbx = { s.mbx with bg := t.mbx.bg, bgNext := t.mbx.bgNext } ∧ t.faults = s.faults ∧ t.time = s.time ∧
    t.codec = s.codec ∧ t.twin = s.twin) ∧
  (∀ s : State, commitUnderWay s = none → jobEnding s = false ∨ cyclesRun s = true → exec .modeTransitionEnd s = .next s)

/-- O20. sys.reset with its key is answered OK before anything else and asks for a warm reset; sys.configure with the axes at standstill closes the
job that is open, releases the latches of the chip where the mode is SAFESTOP, enters CONFIGURE, gives up a handover that waits, and clears
MBX_EVR_LOST and PASS_NO; sys.secver with its key and a version above the fused one and at most 63 fuses it and answers it, and otherwise answers
BAD_ARG and changes nothing; svc.enter with the axes at standstill enters SERVICE with a scrub ended and the outputs of the axes off; svc.exit
restores the test words and enters CONFIGURE with every waveform test ended. The image in force and the staged image stand. (That a configured axis
not at standstill makes sys.configure and svc.enter answer BAD_STATE is the model's, assumption log 12.) (R40, R47, R59, R78, R214, R361, R393, R416,
Table 2.3, Table 18.6, Table 18.13, assumption log 12) -/
def Obligations.ModeCommandsChangeTheMode : Prop :=
  (∀ (s : State) (c : Command), Doing s 0x0101 c → uAt c.payload 0 2 = 0xA5C3 →
    ∃ t, exec .sysReset s = .next t ∧ t.sys.resetPending = true ∧ t.sys.resetKind = 1 ∧ t.sys.resetTb = s.time.tb ∧ mayFire t = false ∧
      t.mbx.current = none ∧ t.mbx.box[c.mb].state = .done ∧ t.mbx.box[c.mb].seq = c.seq ∧
      t.mbx.box[c.mb].stored = responseBytes c { status := .ok } s ∧
      Mem.readN t.mbx.area (respArea c.mb) (responseBytes c { status := .ok } s).length = responseBytes c { status := .ok } s ∧
      (s.sys.mode ≠ .boot → lifeWritable s = true → t.life.flush.isSome = true) ∧ t.sys.mode = s.sys.mode ∧ t.cfg = s.cfg ∧ t.job = s.job ∧
      t.mem = { s.mem with scrub := t.mem.scrub } ∧ (s.mem.scrub.running = false → t.mem = s.mem) ∧ (s.sys.mode ≠ .boot → t.mem.scrub.running = false) ∧
      t.axes = s.axes ∧ t.time = s.time) ∧
  (∀ (s : State) (c : Command), Doing s 0x0101 c → uAt c.payload 0 2 ≠ 0xA5C3 → Answers .sysReset s c { status := .badArg } s) ∧
  (∀ (tries : List (List BusTry)) (s : State) (c : Command), Doing s 0x0103 c → axesStill s = true →
    Does (.sysConfigure tries) s c { status := .ok } fun u => u.sys.mode = .configure ∧ u.evr.lost = 0 ∧ u.audit.passNo = 0 ∧
      u.job = (if s.job.isOpen then { s.job with isOpen := false, started := false } else s.job) ∧ (s.job.isOpen = true → u.codec.posted = []) ∧
      (s.sys.mode = .safestop → latchedAt u chipInst = none ∧ ∀ a : Fin 8, HoldSrc.safestop ∉ u.axes[a].holds) ∧
      (s.sys.mode ≠ .safestop → u.faults = s.faults) ∧ (∀ l : Fin 2, u.drive[l].running = false) ∧ (∀ a : Fin 8, u.axes[a].msEn = false) ∧
      u.cfg = s.cfg ∧ u.mem.dram = s.mem.dram ∧ u.time = s.time ∧ u.twin = { s.twin with hand := none } ∧ u.eth = s.eth ∧ u.fawn = s.fawn) ∧
  (∀ (tries : List (List BusTry)) (s : State) (c : Command), Doing s 0x0103 c → axesStill s = false →
    Answers (.sysConfigure tries) s c { status := .badState } s) ∧
  (∀ (s : State) (c : Command), Doing s 0x0104 c → s.sys.secVer < uAt c.payload 0 1 → uAt c.payload 0 1 ≤ 63 → uAt c.payload 2 2 = 0x5EC5 →
    Answers .sysSecver s c { status := .ok, payload := leBytes 1 (uAt c.payload 0 1) }
      { s with sys := { s.sys with secVer := uAt c.payload 0 1 } }) ∧
  (∀ (s : State) (c : Command), Doing s 0x0104 c → uAt c.payload 0 1 ≤ s.sys.secVer ∨ 63 < uAt c.payload 0 1 → Answers .sysSecver s c { status := .badArg } s) ∧
  (∀ (s : State) (c : Command), Doing s 0x0104 c → s.sys.secVer < uAt c.payload 0 1 → uAt c.payload 0 1 ≤ 63 → uAt c.payload 2 2 ≠ 0x5EC5 →
    Answers .sysSecver s c { status := .badArg, detail := 2 } s) ∧
  (∀ (s : State) (c : Command), Doing s 0x1801 c → axesStill s = true → Does .svcEnter s c { status := .ok } fun u => u.sys.mode = .service ∧
      u.mem.scrub.running = false ∧ u.mem.dram = s.mem.dram ∧ (s.sys.mode = .safestop → latchedAt u chipInst = none) ∧
      (∀ l : Fin 2, u.drive[l].running = false) ∧ (∀ a : Fin 8, u.axes[a].msEn = false) ∧
      (s.sys.mode ≠ .safestop → u.faults = s.faults ∧ ∀ a : Fin 8, u.axes[a] = { s.axes[a] with msEn := false }) ∧
      u.cfg = s.cfg ∧ u.job = s.job ∧ u.time = s.time ∧ u.twin = s.twin ∧ u.eth = s.eth ∧ u.fawn = s.fawn) ∧
  (∀ (s : State) (c : Command), Doing s 0x1801 c → axesStill s = false → Answers .svcEnter s c { status := .badState } s) ∧
  (∀ (s : State) (c : Command), Doing s 0x1802 c → Does .svcExit s c { status := .ok } fun u =>
      u.sys.mode = .configure ∧ (∀ p : Fin 16, u.wave[p].test = 0) ∧ u.mem.testWords = [] ∧ u.mem.injects = [] ∧ u.evr.lost = 0 ∧ u.audit.passNo = 0 ∧
      u.cfg = s.cfg ∧ u.job = s.job ∧ u.time = s.time ∧ u.twin = { s.twin with hand := none } ∧ u.faults = s.faults ∧
      (s.mem.testWords = [] → u.mem.dram = s.mem.dram ∧ u.mem.ondie = s.mem.ondie))

/-- O21. With their checks passed: job.open opens the job with its rate, axes and pacing parameters, its counters and expectations afresh, reserves the
trigger output of an inspected job, and answers its number; job.start enters PRINT and, where no fault arises from it, paces from the channel; job.hold
enters HOLD, stops the tokens and puts the JOB hold on the job's axes; job.resume returns to PRINT with those holds gone; job.abort starts a discard, enters
IDLE, holds the job's axes and leaves the job open; job.close ends the job, releases its posted slices and answers how many. job.open of job 0 or of the job
last opened is BAD_ARG, of a second job BAD_STATE; job.start without a job is BAD_STATE; the first of the checks of R306 that fails is answered; job.hold
with no line left is BAD_STATE; each of these changes nothing. (R32, R46, R134, R174, R303, R306, R313, R410, R411, R413, R513, R514) -/
def Obligations.JobCommandsOpenRunAndCloseAJob : Prop :=
  (∀ (s : State) (c : Command) (m : ParamSet), Doing s 0x0301 c → uAt c.payload 0 4 ≠ 0 → uAt c.payload 0 4 ≠ s.job.lastId →
    1 ≤ uAt c.payload 4 4 → uAt c.payload 4 4 ≤ 100000 → uAt c.payload 9 1 ≤ 1 → (uAt c.payload 9 1 = 1 → uAt c.payload 10 1 ≤ 1) →
    listTarget c.payload 16 = 0 → judgePace s paceSpecs (uAt c.payload 8 1) [] (listItems c.payload 16) = .ok m →
    (uAt c.payload 9 1 = 1 → pnat m 3 0 0 ≤ 65535) →
    ((s.job.isOpen = false ∧ (uAt c.payload 9 1 = 1 → (nthOr s.fbo (uAt c.payload 10 1) {}).enabled = false)) →
      capacityError s (uAt c.payload 4 4) = none → paceRateError s m (uAt c.payload 4 4) = none →
      ∃ u, Answers .jobOpen s c { status := .ok, payload := leBytes 4 (uAt c.payload 0 4) } u ∧
        u = { s with job := u.job, pace := { port := s.pace.port }, codec := u.codec, swath := u.swath, fbo := u.fbo, audit := u.audit } ∧
        u.job = { isOpen := true, id := uAt c.payload 0 4, lastId := uAt c.payload 0 4, fMax := uAt c.payload 4 4, axes := uAt c.payload 8 1
                  inspect := uAt c.payload 9 1 == 1, trigOut := uAt c.payload 10 1, camDist := uAt c.payload 12 4, params := m } ∧
        u.codec = { s.codec with nextNo := 0, nextLine := 0, anyNo := false, anyLine := false, needStart := true, lastAccepted := false
                                 lastReleased := 0xFFFFFFFF } ∧
        u.swath.plans = [] ∧ u.swath.no = 0 ∧
        (∀ p : Fin 16, u.swath.line[p].subst = 0 ∧ u.swath.line[p].lost = 0 ∧ u.swath.line[p].clipNozzle = 0 ∧ u.swath.line[p].clipEnergy = 0 ∧
          u.swath.line[p].hist = []) ∧
        (uAt c.payload 9 1 = 0 → u.fbo = s.fbo ∧ u.audit = s.audit) ∧
        (uAt c.payload 9 1 = 1 → (nthOr u.fbo (uAt c.payload 10 1) {}).byAudit = true ∧ u.audit.accepted = 0 ∧ u.audit.lost = 0 ∧ u.audit.windows = [])) ∧
    (s.job.isOpen = true → Answers .jobOpen s c { status := .badState } s)) ∧
  (∀ (s : State) (c : Command), Doing s 0x0301 c → uAt c.payload 0 4 = 0 ∨ uAt c.payload 0 4 = s.job.lastId →
    Answers .jobOpen s c { status := .badArg } s) ∧
  (∀ (s : State) (c : Command), Doing s 0x0302 c → s.job.isOpen = true → startError s false = none →
    Does .jobStart s c { status := .ok } fun u => u.job.started = true ∧ u.job.isOpen = true ∧ u.job.id = s.job.id ∧ u.job.params = s.job.params ∧
      u.job.fMax = s.job.fMax ∧ (latchedAt u chipInst = none → u.sys.mode = .print) ∧
      (u.faults = s.faults → u.sys.mode = .print ∧ u.pace.source = .channel ∧ u.pace.held = false) ∧
      u.cfg = s.cfg ∧ u.mem.dram = s.mem.dram ∧ u.eth = s.eth ∧ u.fawn = s.fawn ∧ u.fbo = s.fbo ∧ u.bar = s.bar ∧ u.time.tb = s.time.tb) ∧
  (∀ (s : State) (c : Command), Doing s 0x0302 c → s.job.isOpen = false → Answers .jobStart s c { status := .badState } s) ∧
  (∀ (s : State) (c : Command) (st : Status) (d : Nat), Doing s 0x0302 c → s.job.isOpen = true → startError s false = some (st, d) →
    Answers .jobStart s c { status := st, detail := d } s) ∧
  (∀ (s : State) (c : Command), Doing s 0x0303 c → linesLeft s = true → Does .jobHold s c { status := .ok } fun u =>
      u.sys.mode = .hold ∧ u.pace = { s.pace with held := true, heldAt := s.clock } ∧ u.job = s.job ∧ u.codec = s.codec ∧ u.cfg = s.cfg ∧
      mayFire u = false ∧
      (∀ a : Fin 8, jobAxis s a.val = true → HoldSrc.job ∈ u.axes[a].holds) ∧ (∀ a : Fin 8, jobAxis s a.val = false → u.axes[a] = s.axes[a]) ∧
      u.mem = s.mem ∧ u.faults = s.faults ∧ u.time = s.time ∧ u.twin = s.twin ∧ u.fbo = s.fbo ∧ u.audit = s.audit) ∧
  (∀ (s : State) (c : Command), Doing s 0x0303 c → linesLeft s = false → Answers .jobHold s c { status := .badState } s) ∧
  (∀ (s : State) (c : Command), Doing s 0x0304 c → startError s true = none → Does .jobResume s c { status := .ok } fun u =>
      u.job.id = s.job.id ∧ u.job.params = s.job.params ∧ u.job.started = s.job.started ∧ (latchedAt u chipInst = none → u.sys.mode = .print) ∧
      (u.faults = s.faults → u.sys.mode = .print ∧ u.pace.held = false ∧ ∀ a : Fin 8, jobAxis s a.val = true → HoldSrc.job ∉ u.axes[a].holds) ∧
      u.cfg = s.cfg ∧ u.mem.dram = s.mem.dram ∧ u.eth = s.eth ∧ u.fawn = s.fawn ∧ u.fbo = s.fbo ∧ u.bar = s.bar ∧ u.time.tb = s.time.tb) ∧
  (∀ (s : State) (c : Command) (st : Status) (d : Nat), Doing s 0x0304 c → startError s true = some (st, d) →
    Answers .jobResume s c { status := st, detail := d } s) ∧
  (∀ (s : State) (c : Command), Doing s 0x0305 c → Does .jobAbort s c { status := .ok } fun u =>
      u.sys.mode = .idle ∧ u.faults.discard.isSome = true ∧ u.faults.recs = s.faults.recs ∧ u.job = s.job ∧ u.pace.held = false ∧
      (∀ a : Fin 8, jobAxis s a.val = true → HoldSrc.abort ∈ u.axes[a].holds ∨ HoldSrc.host ∈ u.axes[a].holds) ∧
      u.cfg = s.cfg ∧ u.mem.dram = s.mem.dram ∧ u.twin = s.twin ∧ u.fbo = s.fbo ∧ u.audit = s.audit ∧ u.time.tb = s.time.tb) ∧
  (∀ (tries : List (List BusTry)) (s : State) (c : Command), Doing s 0x0306 c → s.job.isOpen = true →
    Does (.jobClose tries) s c { status := .ok, payload := leBytes 4 s.codec.posted.length } fun u =>
      u.job = { s.job with isOpen := false, started := false } ∧ u.pace = { port := s.pace.port } ∧ u.codec.posted = [] ∧
      u.codec.staging = [] ∧ u.swath.active = false ∧ u.swath.plans = [] ∧ u.cfg = s.cfg ∧ u.mem.dram = s.mem.dram ∧ u.sys.mode = s.sys.mode ∧
      u.faults = s.faults ∧ u.time = s.time ∧ u.twin = s.twin ∧ (s.job.inspect = false → u.fbo = s.fbo) ∧
      (s.pace.gateHeld = false → u.axes = s.axes)) ∧
  (∀ (tries : List (List BusTry)) (s : State) (c : Command), Doing s 0x0306 c → s.job.isOpen = false →
    Answers (.jobClose tries) s c { status := .badState } s)

/-- O22. pace.config of an open job not yet started, with an accepted list, replaces its pacing parameters; with a list that is refused, or one that gives an
inspected job a PACE_NUM above 65535, it is BAD_ARG with the item; of no open job, or of a started one, it is BAD_STATE. pace.origin in SELECT, or in
FIRST_LINE of a job that is owed an origin and has none waiting, adds the entry to the queue, from which a swath is armed where none is, and answers the
length; with 16 entries waiting it is NO_SPACE, in another state BAD_STATE, and an ORIGIN or DIR out of range BAD_ARG. pace.read answers LATE, MAX_LAG,
SKIPPED and REVERSALS and changes nothing. maint.start with its checks passed enters MAINTAIN with its source, ports, policy, period, lines, level and
stride, and from HOLD sets the job's swath and pacing aside; the first field out of range is answered BAD_ARG, and with a job open in IDLE, or an axis of
the job not at standstill in HOLD, it is BAD_STATE; maint.stop lets no further token be issued. Each refusal changes nothing.
(R162, R287, R289, R290, R298, R304, R517, Table 10.2, Table 18.9) -/
def Obligations.PacingCommandsSetTheJobsPacing : Prop :=
  (∀ (s : State) (c : Command), Doing s 0x0A01 c → s.job.isOpen = true → s.job.started = false → listTarget c.payload 0 = 0 →
    (∀ m, judgePace s paceSpecs s.job.axes s.job.params (listItems c.payload 0) = .ok m →
      ((s.job.inspect = false ∨ pnat m 3 0 0 ≤ 65535) → Answers .paceConfig s c { status := .ok } { s with job := { s.job with params := m } }) ∧
      (s.job.inspect = true → 65535 < pnat m 3 0 0 →
        Answers .paceConfig s c { status := .badArg, detail := 0x8000 + itemOf (listItems c.payload 0) [3] } s)) ∧
    (∀ d, judgePace s paceSpecs s.job.axes s.job.params (listItems c.payload 0) = .error d →
      Answers .paceConfig s c { status := .badArg, detail := d } s)) ∧
  (∀ (s : State) (c : Command), Doing s 0x0A01 c → s.job.isOpen = true → s.job.started = false → listTarget c.payload 0 ≠ 0 →
    Answers .paceConfig s c { status := .badArg } s) ∧
  (∀ (s : State) (c : Command), Doing s 0x0A01 c → s.job.isOpen = false ∨ s.job.started = true → Answers .paceConfig s c { status := .badState } s) ∧
  (∀ (s q : State) (c : Command), Doing s 0x0A02 c → -(2 ^ 47) ≤ iAt c.payload 0 8 → iAt c.payload 0 8 < 2 ^ 47 → uAt c.payload 8 1 ≤ 1 →
    s.job.isOpen = true → pnat s.job.params 7 0 0 = 1 ∨ (pnat s.job.params 7 0 0 = 0 ∧ s.pace.owed = true ∧ s.pace.queue = []) →
    q = { s with pace := { s.pace with queue := s.pace.queue ++ [(iAt c.payload 0 8, uAt c.payload 8 1 == 1)] } } →
    (16 ≤ s.pace.queue.length → Answers .paceOrigin s c { status := .noSpace } s) ∧
    (s.pace.queue.length < 16 →
      Answers .paceOrigin s c { status := .ok, payload := leBytes 1 (armNext q).pace.queue.length ++ zeros 3 } (armNext q) ∧
      (s.pace.armed = true ∨ paceFollows s = false ∨ s.pace.source ≠ .channel → armNext q = q) ∧
      (s.pace.armed = false → paceFollows s = true → s.pace.source = .channel → paceOriginMode s ≤ 1 → paceOriginMode s = 1 ∨ s.pace.owed = true →
        s.pace.queue = [] → (armNext q).faults = s.faults →
        (armNext q).pace.armed = true ∧ (armNext q).pace.origin = paceDen s * iAt c.payload 0 8 ∧
        (armNext q).pace.dirRev = (uAt c.payload 8 1 == 1) ∧ (armNext q).pace.queue = []) ∧
      (armNext q).cfg = s.cfg ∧ (armNext q).job.params = s.job.params ∧ (armNext q).mem.dram = s.mem.dram ∧ (armNext q).bar = s.bar ∧
      (armNext q).eth = s.eth ∧ (armNext q).fawn = s.fawn ∧ (armNext q).time.tb = s.time.tb)) ∧
  (∀ (s : State) (c : Command), Doing s 0x0A02 c →
    (iAt c.payload 0 8 < -(2 ^ 47) ∨ 2 ^ 47 ≤ iAt c.payload 0 8 → Answers .paceOrigin s c { status := .badArg } s) ∧
    (-(2 ^ 47) ≤ iAt c.payload 0 8 → iAt c.payload 0 8 < 2 ^ 47 → 1 < uAt c.payload 8 1 → Answers .paceOrigin s c { status := .badArg, detail := 8 } s) ∧
    (-(2 ^ 47) ≤ iAt c.payload 0 8 → iAt c.payload 0 8 < 2 ^ 47 → uAt c.payload 8 1 ≤ 1 →
      s.job.isOpen = false ∨ (pnat s.job.params 7 0 0 ≠ 1 ∧ (pnat s.job.params 7 0 0 ≠ 0 ∨ s.pace.owed = false ∨ s.pace.queue ≠ [])) →
      Answers .paceOrigin s c { status := .badState } s)) ∧
  (∀ (s : State) (c : Command), Doing s 0x0A03 c → Answers .paceRead s c
    { status := .ok
      payload := leBytes 8 s.job.late ++ leBytes 4 (min s.job.maxLag 4294967295) ++ zeros 4 ++ leBytes 8 s.job.skipped ++
        leBytes 8 s.job.reversals } s) ∧
  (∀ (s : State) (c : Command) (bad : List (Nat × Prop)), Doing s 0x0B01 c →
    bad = [(0, ∃ i : Fin 16, bitOf (uAt c.payload 0 2) i.val = true ∧ portOn s i.val = false), (2, 1 < uAt c.payload 2 1), (3, 1 < uAt c.payload 3 1),
      (4, uAt c.payload 2 1 = 0 ∧ ∃ p ∈ portsOn s, uAt c.payload 4 4 < tMin s p), (8, uAt c.payload 8 4 = 0),
      (12, uAt c.payload 12 1 = 0 ∨ (if s.sys.legacy then 3 else 7) < uAt c.payload 12 1), (13, uAt c.payload 13 1 = 0 ∨ 64 < uAt c.payload 13 1)] →
    (∀ (k d : Nat) (e : Prop), bad[k]? = some (d, e) → e → (∀ j < k, ∀ x : Nat × Prop, bad[j]? = some x → ¬ x.2) → Answers .maintStart s c { status := .badArg, detail := d } s) ∧
    ((∀ x : Nat × Prop, x ∈ bad → ¬ x.2) →
      ((s.sys.mode = .idle ∧ s.job.isOpen = true) ∨
        (s.sys.mode = .hold ∧ ∃ a : Fin 8, jobAxis s a.val = true ∧ s.axes[a].standstill = false) → Answers .maintStart s c { status := .badState } s) ∧
      ((s.sys.mode = .idle → s.job.isOpen = false) →
        (s.sys.mode = .hold → ∀ a : Fin 8, jobAxis s a.val = true → s.axes[a].standstill = true) →
        Does .maintStart s c { status := .ok } fun u =>
          u.sys.mode = .maintain ∧ u.sys.maintFrom = s.sys.mode ∧ u.parked = (if s.sys.mode = .hold then some (s.swath, s.pace) else s.parked) ∧
          u.pace = { source := if uAt c.payload 2 1 = 0 then .timer else .sched, mPorts := uAt c.payload 0 2, mSkip := uAt c.payload 3 1 == 1
                     mPeriod := uAt c.payload 4 4, mLines := uAt c.payload 8 4, mLevel := uAt c.payload 12 1, mStride := uAt c.payload 13 1
                     port := s.pace.port.map fun q => { lastAt := q.lastAt } } ∧
          u.cfg = s.cfg ∧ u.job = s.job ∧ u.mem = s.mem ∧ u.faults = s.faults ∧ u.time = s.time ∧ u.twin = s.twin ∧ u.codec = s.codec ∧
          u.fbk = s.fbk ∧ u.fbo = s.fbo ∧ u.audit = s.audit ∧ u.bar = s.bar ∧ u.eth = s.eth ∧ u.fawn = s.fawn))) ∧
  (∀ (s : State) (c : Command), Doing s 0x0B02 c → Answers .maintStop s c { status := .ok } { s with pace := { s.pace with mStop := true } })

/-- O23. With a job open, no discard, a queue of fewer than 256 and a range that is aligned, fitted and initialised, the header and then the stream
table are read in class 6: a bad line is answered POISON; the first failed check of Table 5.3 BAD_SLICE with its detail; and a container that passes
every check OK with LAST_RELEASED and the new queue length, joining the queue last and setting the next SLICE_NO and FIRST_LINE expected and the plans
of the swaths, and after a claim the PAC_LINE. The reads change no more than what memory errors do, and no byte of another line, and of a DRAM without
errors they give its bytes. Without an open job the answer is BAD_STATE, during a discard BUSY, with a full queue NO_SPACE, of an unaligned or
unfitted range BAD_SLICE 1, of an uninitialised one UNINIT; in these cases nothing changes. (R127, R129, R133, R134, R135, R140, R375, R447, Table
5.3) -/
def Obligations.SlicePostQueuesASliceOrSaysWhyNot : Prop :=
  (∀ (s s1 : State) (c : Command) (a n : Nat), Doing s 0x0401 c → s.job.isOpen = true → s.faults.discard = none → s.codec.posted.length < 256 →
    a = uAt c.payload 0 8 → n = uAt c.payload 8 4 → a % 64 = 0 → beyondFitted s a n = false → uninitRange s a n = false →
    (dramRead 6 a 32 s = (none, s1) → Answers .slicePost s c { status := .poison } s1) ∧
    (∀ h, dramRead 6 a 32 s = (some h, s1) → ∀ bad : List (Nat × Prop),
      bad = [(0x01, n ≠ uAt h 24 4), (0x02, uAt h 0 4 ≠ 0x45434C53), (0x03, uAt h 4 1 ≠ 1), (0x0B, uAt h 7 1 = 0 ∨ 32 < uAt h 7 1),
        (0x0C, n < 32 + 32 * uAt h 7 1 ∨ 67108864 < n ∨ n % 4 ≠ 0)] →
      (∀ (k d : Nat) (e : Prop), bad[k]? = some (d, e) → e → (∀ j < k, ∀ x : Nat × Prop, bad[j]? = some x → ¬ x.2) →
        Answers .slicePost s c { status := .badSlice, detail := d } s1) ∧
      ((∀ x : Nat × Prop, x ∈ bad → ¬ x.2) → ∀ s2 : State,
        (dramRead 6 (a + 32) (32 * uAt h 7 1) s1 = (none, s2) → Answers .slicePost s c { status := .poison } s2) ∧
        (∀ t, dramRead 6 (a + 32) (32 * uAt h 7 1) s1 = (some t, s2) → ∀ q, q = parseSlice a n h t →
          (∀ d, sliceError s2 q h t = some d → Answers .slicePost s c { status := .badSlice, detail := d } s2) ∧
          (sliceError s2 q h t = none → Does .slicePost s c
            { status := .ok, payload := leBytes 4 s2.codec.lastReleased ++ leBytes 2 (s2.codec.posted.length + 1) ++ zeros 2 } fun u =>
              u.codec = { s2.codec with
                posted := s2.codec.posted ++ [q], nextNo := (q.no + 1) % 2 ^ 32, nextLine := q.first + q.lines, anyNo := false, anyLine := false
                needStart := false, prevEnd := q.swathEnd, lastAccepted := q.last } ∧
              u.swath.plans = plansAfter q s2.swath.plans ∧
              u.job = (if s2.codec.anyLine then { s2.job with pacLine := BitVec.ofNat 32 q.first } else s2.job) ∧
              u = { s2 with codec := u.codec, swath := u.swath, job := u.job, mem := { s2.mem with scrub := u.mem.scrub } }))))) ∧
  (∀ (s : State) (a n : Nat), ∃ o u, dramRead 6 a n s = (o, u) ∧ u = { s with sys := u.sys, evr := u.evr, host := u.host, mem := u.mem, life := u.life } ∧
    u.sys.mode = s.sys.mode ∧
    (Memory.wf s.mem.dram = true → ∀ x, (x < a / 64 * 64 ∨ (a + n + 63) / 64 * 64 ≤ x) → Mem.read u.mem.dram x = Mem.read s.mem.dram x) ∧
    (s.mem.synd = [] → s.faults.stopped = [] → o = some (Mem.readN s.mem.dram a n) ∧ u = { s with mem := { s.mem with cvu := u.mem.cvu } })) ∧
  (∀ (s : State) (c : Command), Doing s 0x0401 c → s.job.isOpen = false → Answers .slicePost s c { status := .badState } s) ∧
  (∀ (s : State) (c : Command), Doing s 0x0401 c → s.job.isOpen = true → s.faults.discard ≠ none →
    Answers .slicePost s c { status := .busy } s) ∧
  (∀ (s : State) (c : Command), Doing s 0x0401 c → s.job.isOpen = true → s.faults.discard = none → 256 ≤ s.codec.posted.length →
    Answers .slicePost s c { status := .noSpace } s) ∧
  (∀ (s : State) (c : Command), Doing s 0x0401 c → s.job.isOpen = true → s.faults.discard = none → s.codec.posted.length < 256 →
    (uAt c.payload 0 8 % 64 ≠ 0 ∨ beyondFitted s (uAt c.payload 0 8) (uAt c.payload 8 4) = true →
      Answers .slicePost s c { status := .badSlice, detail := 1 } s) ∧
    (uAt c.payload 0 8 % 64 = 0 → beyondFitted s (uAt c.payload 0 8) (uAt c.payload 8 4) = false →
      uninitRange s (uAt c.payload 0 8) (uAt c.payload 8 4) = true → Answers .slicePost s c { status := .uninit } s))

/-- O24. While decoding runs: SLICE_OPEN opens the oldest slice that may open, the standby counting where R147 lets it enter there, which it then does, and
makes its staging runs; with none to open nothing changes;
a word of the slice queue that is found in error and can be corrected does not hinder it, one that cannot latches COD_QUEUE_ECC. STREAM_SWITCH appends to
the staging run of the decoder's stream the bytes inflated since, and counts them, with the stream waiting for its table build or its input where it
stopped for that; a decoder without a stream takes one up. DYNAMIC_TABLE_BUILT makes the stream runnable again with one build more, or waits for the input
the build lacks, or fails the stream. STREAM_END of a stream without a fault ends it, and with the others of its slice ended releases the slice: it leaves
the queue, LAST_RELEASED is its number and the released count goes up by one; of a stream that fails, its slice is aborted and SLICE_ABORT raised, and a
decoder whose input was right is tested. Where a row does not fit the decoder's state, nothing changes. No configuration or job changes in any of these.
(R136, R139, R140, R141, R142, R144, R145, R147, R169, R380, R437) -/
def Obligations.SlicesOpenAndDecode : Prop :=
  (∀ s v : State, decodes s = true → v = standbyEnters s →
    ((standbyOf s = none ∨ 8 ≤ inService s ∨ ∃ d, standbyOf s = some d ∧ (decoder s d).testing = true) → v = s) ∧
    (∀ d, standbyOf s = some d → inService s < 8 → (decoder s d).testing = false →
      (decoder v d).use = .inService ∧ v.cfg = s.cfg ∧ v.job = s.job ∧ v.win = s.win ∧ v.audit = s.audit ∧ v.fbo = s.fbo) ∧
    (nextToOpen v = none → exec (.sliceOpen none) s = .next s) ∧
    (∀ q, nextToOpen v = some q → Gives (.sliceOpen none) s fun t =>
      t.codec.posted.map (fun r => (r.no, r.isOpen)) = v.codec.posted.map (fun r => (r.no, r.isOpen || r.no == q.no)) ∧
      t.codec.staging = openRuns v q ∧ t.cfg = s.cfg ∧ t.job = s.job ∧ t.sys.mode = v.sys.mode ∧ t.swath = v.swath ∧ t.pace = v.pace ∧
      t.faults = v.faults ∧ t.time = v.time ∧ t.wave = v.wave ∧ t.heads = v.heads ∧ t.axes = v.axes ∧ t.audit = s.audit)) ∧
  (∀ (s v : State) (e : WordErr) (bad : Bool), decodes s = true → openable s ≠ none → ownerFinds codecSource 3 (319 * 8192 + e.word.val) e.synd s = (bad, v) →
    (bad = false → exec (.sliceOpen (some e)) s = exec (.sliceOpen none) v) ∧
    (bad = true → Gives (.sliceOpen (some e)) s fun t => t.cfg = s.cfg ∧ t.job = s.job ∧ t.win = s.win ∧ t.audit = s.audit ∧
      (latchedAt s (blockInst codecSource) = none → latchedAt t (blockInst codecSource) = some .codQueueEcc ∧ codecSource ∈ t.faults.stopped))) ∧
  (∀ (s : State) (err : Option WordErr), decodes s = false ∨ openable s = none → exec (.sliceOpen err) s = .next s) ∧
  (∀ (s : State) (d : Fin 9) (n : Fin 4097), decodes s = true →
    (workOf s d.val = none → Gives (.streamSwitch d n) s fun t => DecodeOnly s t ∧ t.codec.staging = s.codec.staging) ∧
    (∀ q i x y r, workOf s d.val = some (q, i, x) → runStream x (reach s q x n.val) = (y, r) →
      ((r = .needOutput ∨ r = .build ∨ ((r = .needInput ∨ r = .finished) ∧ leftForInput s q x n.val y r = true)) →
        Gives (.streamSwitch d n) s fun t => DecodeOnly s t ∧
          t.codec.staging = s.codec.staging.map (fun r =>
            if r.sliceNo = q.no ∧ r.stream = i then { r with data := r.data ++ y.bytes.drop x.written } else r) ∧
          (findStream t q.no i).map (fun e => (e.2.produced, e.2.written, e.2.building, e.2.waits)) =
            some (y.made, max x.written y.made, r == .build, leftForInput s q x n.val y r)) ∧
      (((∃ c, r = .err c) ∨ r = .limit ∨ ((r = .needInput ∨ r = .finished) ∧ leftForInput s q x n.val y r = false)) →
        exec (.streamSwitch d n) s = .next s))) ∧
  (∀ (s : State) (d : Fin 9) (n : Fin 4097), decodes s = false → exec (.streamSwitch d n) s = .next s ∧ exec (.streamEnd d) s = .next s) ∧
  (∀ (s : State) (no : Nat) (i : Fin 32) (q : Slice) (x : Strm) (y : Inf) (r : IStop), findStream s no i.val = some (q, x) → x.building = true →
    decodes s = true → x.ended = false → q.aborted = false → runStream { x with built := x.built + 1 } x.produced = (y, r) →
    (x.built < y.dyn → Gives (.dynamicTableBuilt no i) s fun t => DecodeOnly s t ∧ t.codec.staging = s.codec.staging ∧
      (findStream t no i.val).map (fun e => (e.2.building, e.2.built, e.2.produced)) = some (false, x.built + 1, x.produced)) ∧
    (y.dyn ≤ x.built → r = .needInput → x.dec ≠ none → leftForInput s q x 0 y .needInput = true → Gives (.dynamicTableBuilt no i) s fun t =>
      DecodeOnly s t ∧ t.codec.staging = s.codec.staging ∧ (findStream t no i.val).map (fun e => (e.2.building, e.2.built)) = some (true, x.built)) ∧
    (y.dyn ≤ x.built → x.dec ≠ none → ((r = .needInput ∧ leftForInput s q x 0 y .needInput = false) ∨ ∃ c, r = .err c) →
      Gives (.dynamicTableBuilt no i) s fun t => (∀ z ∈ t.codec.posted, z.no = q.no → z.aborted = true) ∧ t.cfg = s.cfg ∧ t.job = s.job ∧
        t.win = s.win ∧ t.audit = s.audit ∧
        (latchedAt s (regionInst codecSource) = none → latchedAt t (regionInst codecSource) = some .sliceAbort ∧ t.faults.discard.isSome = true)) ∧
    (y.dyn ≤ x.built → x.dec = none ∨ (r ≠ .needInput ∧ ∀ c, r ≠ .err c) → exec (.dynamicTableBuilt no i) s = .next s)) ∧
  (∀ (s : State) (no : Nat) (i : Fin 32), (∀ q x, findStream s no i.val = some (q, x) →
    x.building = false ∨ decodes s = false ∨ x.ended = true ∨ q.aborted = true) → exec (.dynamicTableBuilt no i) s = .next s) ∧
  (∀ (s : State) (d : Fin 9), decodes s = true →
    (workOf s d.val = none → exec (.streamEnd d) s = .next s) ∧
    (∀ q i x y r, workOf s d.val = some (q, i, x) → runStream x (reach s q x 4096) = (y, r) →
      ((r = .needOutput ∨ r = .build ∨ leftForInput s q x 4096 y r = true) → exec (.streamEnd d) s = .next s) ∧
      (r ≠ .needOutput → r ≠ .build → leftForInput s q x 4096 y r = false →
        (streamCause x y r = none → (∀ j z, q.streams[j]? = some z → j ≠ i → z.ended = true) → Gives (.streamEnd d) s fun t =>
          DecodeOnly s t ∧ (∀ z ∈ t.codec.posted, z.no ≠ q.no) ∧ t.codec.lastReleased = q.no ∧ t.codec.released = wrapAdd 32 s.codec.released 1) ∧
        (streamCause x y r = none → (∃ j z, q.streams[j]? = some z ∧ j ≠ i ∧ z.ended = false) → Gives (.streamEnd d) s fun t =>
          DecodeOnly s t ∧ (findStream t q.no i).map (fun e => (e.2.ended, e.2.dec)) = some (true, none) ∧
          t.codec.lastReleased = s.codec.lastReleased ∧ t.codec.released = s.codec.released ∧
          t.codec.staging = s.codec.staging.map (fun r =>
            if r.sliceNo = q.no ∧ r.stream = i then { r with data := r.data ++ y.bytes.drop x.written } else r)) ∧
        (∀ c, streamCause x y r = some c → Gives (.streamEnd d) s fun t =>
          (∀ z ∈ t.codec.posted, z.no = q.no → z.aborted = true) ∧ (c = 0x0B → (decoder t d.val).testing = true) ∧ t.cfg = s.cfg ∧ t.job = s.job ∧
          t.win = s.win ∧ t.audit = s.audit ∧
          (latchedAt s (regionInst codecSource) = none →
            latchedAt t (regionInst codecSource) = some .sliceAbort ∧ t.faults.discard.isSome = true)))))

/-- O25. DECODER_LEAVES_SERVICE of an in-service or standby decoder puts it out of service without work; of one already out it changes nothing; an error in
a word of its banks that can be corrected leaves it in service. DECODER_TEST_DONE with a pass ends the test of an in-service decoder and counts one host
check, and lets the standby decoder enter service where a place is free and no slice is open; with a fail the decoder leaves service. STANDBY_TEST in the
running part sets the test of the standby decoder, and an inflate on it ends. codec.config with an accepted list replaces the compression settings alone,
and one that is refused changes nothing. codec.inflate and codec.deflate with a field out of range are BAD_ARG with its offset, of memory not initialised
UNINIT, without START and with no context to go on from BAD_ARG, without a free unit BUSY; else they start a request on the unit, with settings fresh from
codec.config or those of the context, and answer its number. The end of a host request, or of the part's own, frees its unit; of a unit without a
request, of one whose block is stopped, or of the life export it changes nothing here, and output that a compressor cannot have made leaves the request.
(R34, R145, R146, R147, R148, R149, R150, R154, R157, R380, R405) -/
def Obligations.DecodersLeaveAndEnterService : Prop :=
  (∀ (s : State) (d : Fin 9), (decoder s d.val).use ≠ .out → Gives (.decoderLeavesService d .logic) s fun t =>
    (decoder t d.val).use = .out ∧ ((decoder s d.val).use = .inService → (decoder t d.val).work = none) ∧ (decoder t d.val).testing = false ∧
    t.cfg = s.cfg ∧ t.job = s.job ∧ t.win = s.win ∧ t.audit = s.audit ∧ t.fbo = s.fbo) ∧
  (∀ (s : State) (d : Fin 9), (decoder s d.val).use = .out → exec (.decoderLeavesService d .logic) s = .next s) ∧
  (∀ (s : State) (d : Fin 9) (bank : Fin 7) (word : Fin 8192) (synd : BitVec 8),
    let r := ownerFinds codecSource 3 ((256 + 7 * d.val + bank.val) * 8192 + word.val) synd s
    exec (.decoderLeavesService d (.ecc bank word synd)) s = if r.1 then exec (.decoderLeavesService d .logic) r.2 else .next r.2) ∧
  (∀ (s : State) (d : Fin 9) (pass : Bool), (decoder s d.val).testing = false → exec (.decoderTestDone d pass) s = .next s) ∧
  (∀ (s : State) (d : Fin 9), (decoder s d.val).testing = true → (decoder s d.val).use ≠ .standby → Gives (.decoderTestDone d true) s fun t =>
    (decoder t d.val).testing = false ∧ t.codec.hostCheck = satAdd 32 s.codec.hostCheck 1 ∧ t.codec.staging = s.codec.staging ∧ DecodeOnly s t) ∧
  (∀ (s v : State) (d : Fin 9), (decoder s d.val).testing = true → (decoder s d.val).use = .standby →
    v = setDecoder d.val (fun x => { x with testing := false }) s →
    ((openSlices s ≠ [] ∨ 8 ≤ inService s) → exec (.decoderTestDone d true) s = .next v) ∧
    (openSlices s = [] → inService s < 8 → standbyOf s = some d.val → Gives (.decoderTestDone d true) s fun t =>
      (decoder t d.val).use = .inService ∧ (decoder t d.val).testing = false ∧ t.cfg = s.cfg ∧ t.job = s.job ∧ t.win = s.win ∧ t.audit = s.audit)) ∧
  (∀ (s : State) (d : Fin 9), (decoder s d.val).testing = true → (decoder s d.val).use ≠ .out → Gives (.decoderTestDone d false) s fun t =>
    (decoder t d.val).use = .out ∧ (decoder t d.val).testing = false ∧ t.cfg = s.cfg ∧ t.job = s.job ∧ t.win = s.win ∧ t.audit = s.audit) ∧
  (∀ (s : State) (d : Nat), standbyOf s = some d → s.sys.phase = .running → (decoder s d).testing = false → Gives .standbyTest s fun t =>
    t.codec.decoders = updAt s.codec.decoders d (fun x => { x with testing := true }) ∧ (∀ r ∈ t.codec.requests, r.deflate = false → r.unit ≠ d) ∧
    t.cfg = s.cfg ∧ t.job = s.job ∧ t.faults = s.faults ∧ t.sys.mode = s.sys.mode ∧ t.swath = s.swath ∧ t.pace = s.pace ∧ t.time = s.time ∧
    ((∀ r ∈ s.codec.requests, r.deflate = false → r.unit ≠ d) → t = { s with codec := t.codec })) ∧
  (∀ s : State, (∀ d, standbyOf s = some d → s.sys.phase ≠ .running ∨ (decoder s d).testing = true) → exec .standbyTest s = .next s) ∧
  (∀ (s : State) (c : Command), Doing s 0x0503 c →
    (listTarget c.payload 0 ≠ 0 → Answers .codecConfig s c { status := .badArg } s) ∧
    (∀ m, listTarget c.payload 0 = 0 → judgeList codecSpecs codecRelation s.codec.params (listItems c.payload 0) = .ok m →
      Answers .codecConfig s c { status := .ok } { s with codec := { s.codec with params := m } }) ∧
    (∀ d, listTarget c.payload 0 = 0 → judgeList codecSpecs codecRelation s.codec.params (listItems c.payload 0) = .error d →
      Answers .codecConfig s c { status := .badArg, detail := d } s)) ∧
  (∀ (s v : State) (c : Command) (deflate : Bool) (op : Nat) (i : Instr) (r : CodecReq) (o : Option CodecSave), Doing s op c →
    (op, i) = (if deflate then (0x0502, .codecDeflate) else (0x0501, .codecInflate)) → r = requestOf deflate c.payload →
    (o, v) = (if r.start then (some (freshSave s), s) else resumeFrom r s) →
    (∀ d, requestRange s r (uAt c.payload 48 2) (uAt c.payload 40 8) = some d → Answers i s c { status := .badArg, detail := d } s) ∧
    (requestRange s r (uAt c.payload 48 2) (uAt c.payload 40 8) = none →
      (requestUninit s r = true → Answers i s c { status := .uninit } s) ∧
      (requestUninit s r = false →
        (o = none → Answers i s c { status := .badArg } v) ∧
        (∀ w, o = some w → (if deflate then deflateUnit v else inflateUnit v) = none → Answers i s c { status := .busy } v) ∧
        (∀ w u, o = some w → (if deflate then deflateUnit v else inflateUnit v) = some u →
          Answers i s c { status := .ok, payload := leBytes 1 (u % 16) ++ zeros 3 }
            (bgStart (.codec u) { v with codec := { v.codec with requests := v.codec.requests ++ [{ r with unit := u, save := w }] } }))))) ∧
  (∀ (s : State) (unit used : Nat) (made : List Byte) (pend next : List Bool),
    s.codec.requests.find? (fun r => r.unit == unit) = none → exec (.codecRequestEnd unit used made pend next) s = .next s) ∧
  (∀ (s v : State) (unit used : Nat) (made : List Byte) (pend next : List Bool) (r : CodecReq) (bs : List Byte) (bad : Nat),
    s.codec.requests.find? (fun r => r.unit == unit) = some r → readInput r s = ((bs, bad), v) →
    ((isStopped s (if r.deflate then 0x12 else codecSource) = true ∨ r.owner = .lifeExport) →
      exec (.codecRequestEnd unit used made pend next) s = .next s) ∧
    (isStopped s (if r.deflate then 0x12 else codecSource) = false →
      (r.owner = .host → Gives (.codecRequestEnd unit used made pend next) s fun t =>
        ((r.deflate = false ∨ bad ≠ 0 ∨ compressorMay r next (r.save.ins ++ bs.take (if next = [] then bs.length else min used bs.length))
            (r.save.outs ++ made) pend made.length = true) → ∀ q ∈ t.codec.requests, q.owner = .host → q.unit ≠ unit) ∧
        (r.deflate = true → bad = 0 → compressorMay r next (r.save.ins ++ bs.take (if next = [] then bs.length else min used bs.length))
            (r.save.outs ++ made) pend made.length = false → r ∈ t.codec.requests) ∧
        t.cfg = s.cfg ∧ t.job = s.job ∧ t.faults = s.faults ∧ t.sys.mode = s.sys.mode ∧ t.swath = s.swath ∧ t.pace = s.pace ∧ t.time = s.time) ∧
      (r.owner = .audit → Gives (.codecRequestEnd unit used made pend next) s fun t =>
        ((bad ≠ 0 ∨ compressorMay r [] bs made [] made.length = true) → ∀ q ∈ t.codec.requests, q.owner = .host → q.unit ≠ unit) ∧
        (bad = 0 → compressorMay r [] bs made [] made.length = false → r ∈ t.codec.requests) ∧ t.cfg = s.cfg ∧ t.job.id = s.job.id ∧ t.win = s.win)))

/-- O26. grey.load and subst.load with a port, a mask or an address out of place are BAD_ARG with its offset, of memory not initialised UNINIT, while
one builds or a swap is pending BUSY; else they put the shadow in BUILDING with the addresses, as a lasting operation. table.swap of a shadow BUILDING
or READY with none pending records the request with its flags, and makes the swaps that the mode allows at once: none in most modes, in IDLE that of a
READY table; with one pending it is BUSY, of an EMPTY or FAILED shadow BAD_STATE, of a table or flags that do not fit BAD_ARG. The end of a greyscale
build of an image that passes R181 writes the copy not active in the table stores and makes the shadow READY, or the map active at once in CONFIGURE
or where its swap is due at once; of one that fails, or that cannot be read, FAILED with its request and the one linked with it cancelled. The end of
a substitution build leaves the shadow READY or FAILED, or makes the map active, for a host load as its images and R180 say; the rebuild of the audit
may follow at once. Each refusal changes nothing. (R180, R181, R186, R187, R188, R189, R190, R206, R323, R324, Table 19.4) -/
def Obligations.TablesLoadSwapAndAreBuilt : Prop :=
  (∀ (s : State) (c : Command) (p a : Nat), Doing s 0x0601 c → p = uAt c.payload 0 1 → a = uAt c.payload 8 8 →
    (16 ≤ p ∨ portSet s p = false → Answers .greyLoad s c { status := .badArg } s) ∧
    (p < 16 → portSet s p = true →
      (badImage s a 32 = some .badArg → Answers .greyLoad s c { status := .badArg, detail := 8 } s) ∧
      (badImage s a 32 = some .uninit → Answers .greyLoad s c { status := .uninit } s) ∧
      (badImage s a 32 = none → (if (greyPair s p).pending = none ∧ (greyPair s p).shadow ≠ .building then
          Answers .greyLoad s c { status := .ok } (bgStart (.grey p) { s with swath := { s.swath with
            grey := updAt s.swath.grey p (fun q => { q with shadow := .building, built := none, addr := a }) } })
        else Answers .greyLoad s c { status := .busy } s)))) ∧
  (∀ (s : State) (c : Command), Doing s 0x0602 c →
    (uAt c.payload 0 2 ≠ (((List.range 16).filter (portSet s)).map fun i => 2 ^ i).sum → Answers .substLoad s c { status := .badArg } s) ∧
    (uAt c.payload 0 2 = (((List.range 16).filter (portSet s)).map fun i => 2 ^ i).sum →
      (∀ st d, substAddrError s c.payload = some (st, d) → Answers .substLoad s c { status := st, detail := d } s) ∧
      (substAddrError s c.payload = none → (if s.swath.subst.pending = none ∧ s.swath.subst.shadow ≠ .building then
          Answers .substLoad s c { status := .ok } (bgStart .subst { s with
            swath := { s.swath with subst := { s.swath.subst with
              shadow := .building, built := none, byAudit := false, addrs := (List.range 16).map fun i => uAt c.payload (8 + 8 * i) 8 } }
            audit := { s.audit with record := [] } })
        else Answers .substLoad s c { status := .busy } s)))) ∧
  (∀ (s v : State) (c : Command) (t f : Nat) (rq : SwapReq) (sh : Shadow) (pend : Option SwapReq), Doing s 0x0603 c → t = uAt c.payload 0 1 →
    f = uAt c.payload 1 1 → rq = { required := bitOf f 0, link := bitOf f 1 } →
    sh = (if t = 0x10 then s.swath.subst.shadow else (greyPair s t).shadow) →
    pend = (if t = 0x10 then s.swath.subst.pending else (greyPair s t).pending) →
    v = (if t = 0x10 then { s with swath := { s.swath with subst := { s.swath.subst with pending := some rq } } }
      else { s with swath := { s.swath with grey := updAt s.swath.grey t (fun q => { q with pending := some rq }) } }) →
    (0x10 < t ∨ (t < 16 ∧ portSet s t = false) → Answers .tableSwap s c { status := .badArg } s) ∧
    (t = 0x10 ∨ (t < 16 ∧ portSet s t = true) →
      (3 < f ∨ (t = 0x10 ∧ rq.link = true) → Answers .tableSwap s c { status := .badArg, detail := 1 } s) ∧
      (f ≤ 3 → (t = 0x10 → rq.link = false) →
        (sh = .empty ∨ sh = .failed → Answers .tableSwap s c { status := .badState } s) ∧
        (sh = .ready ∨ sh = .building → pend ≠ none → Answers .tableSwap s c { status := .busy } s) ∧
        (sh = .ready ∨ sh = .building → pend = none → Answers .tableSwap s c { status := .ok } (swapsAtOnce v) ∧
          (s.sys.mode ≠ .idle → s.sys.mode ≠ .hold → s.sys.mode ≠ .home → s.sys.mode ≠ .safestop → s.sys.mode ≠ .service → swapsAtOnce v = v) ∧
          (∀ g, t < 16 → rq.link = false → sh = .ready → tableMoment s .atOnce = true → (greyPair s t).built = some g →
            greyPair (swapsAtOnce v) t =
              { greyPair s t with active := some g, shadow := .empty, built := none, pending := none, side := 1 - (greyPair s t).side }) ∧
          (∀ m, t = 0x10 → sh = .ready → tableMoment s .atOnce = true → s.swath.subst.built = some m → (swapsAtOnce v).swath.subst.active = m) ∧
          (swapsAtOnce v).cfg = s.cfg ∧ (swapsAtOnce v).job = s.job ∧ (swapsAtOnce v).mem = s.mem ∧ (swapsAtOnce v).faults = s.faults ∧
          (swapsAtOnce v).sys.mode = s.sys.mode ∧ (swapsAtOnce v).time = s.time ∧ (swapsAtOnce v).codec = s.codec ∧
          (swapsAtOnce v).audit = s.audit)))) ∧
  (∀ (s v : State) (p : Fin 16) (o : Option (List Byte)) (r : Except Nat GreyMap), s.swath.grey[p].shadow = .building →
    dramRead 1 s.swath.grey[p].addr 32 s = (o, v) → r = (match o with | none => .error 0x0D | some b => judgeGrey s.sys.legacy b) →
    (∀ g, r = .ok g → Gives (.tableBuildDone p.val) s fun t =>
      t.swath.grey[p] = (if s.sys.mode = .configure then
          { s.swath.grey[p] with active := some g, shadow := .empty, pending := none, side := 1 - s.swath.grey[p].side }
        else if s.swath.grey[p].pending.isSome ∧ tableMoment s .atOnce = true ∧ (isLinked s p.val = true →
            s.wave[p].pending.isSome ∧ s.wave[p].shadow = .ready ∧ waveMoment s p.val .atOnce = true) then
          { s.swath.grey[p] with active := some g, shadow := .empty, built := none, pending := none, side := 1 - s.swath.grey[p].side }
        else { s.swath.grey[p] with built := some g, shadow := .ready }) ∧
      t.cfg = s.cfg ∧ t.job = s.job ∧ t.mem = (writeGreyStore p.val v).mem ∧ t.faults = s.faults ∧ t.time = s.time ∧ t.sys.mode = s.sys.mode ∧ t.codec = s.codec ∧
      t.audit = s.audit) ∧
    (∀ e, r = .error e → Gives (.tableBuildDone p.val) s fun t =>
      t.swath.grey[p] = { s.swath.grey[p] with shadow := .failed, pending := none } ∧ (∀ k : Fin 16, k ≠ p → t.swath.grey[k] = s.swath.grey[k]) ∧
      t.wave = (if isLinked s p.val = true ∧ s.wave[p].pending.isSome then updAt s.wave p.val (fun w => { w with pending := none }) else s.wave) ∧
      t.cfg = s.cfg ∧ t.job = s.job ∧ t.mem = v.mem ∧ t.faults = s.faults ∧ t.time = s.time ∧ t.sys.mode = s.sys.mode ∧ t.codec = s.codec ∧
      t.audit = s.audit)) ∧
  (∀ s : State, s.swath.subst.shadow = .building → Gives (.tableBuildDone 0x10) s fun t =>
    ((t.swath.subst.shadow = .ready ∧ t.swath.subst.built.isSome ∧ t.swath.subst.active = s.swath.subst.active) ∨
      (t.swath.subst.shadow = .failed ∧ t.swath.subst.built = none ∧ t.swath.subst.pending = none ∧ t.swath.subst.active = s.swath.subst.active) ∨
      (t.swath.subst.shadow = .empty ∧ t.swath.subst.built = none ∧ t.swath.subst.pending = none ∧
        (s.sys.mode = .configure ∨ (s.swath.subst.pending.isSome ∧ tableMoment s .atOnce = true))) ∨
      (t.swath.subst.shadow = .building ∧ t.swath.subst.byAudit = true ∧ s.swath.subst.byAudit = false ∧ s.audit.edits ≠ [] ∧ s.sys.mode = .idle)) ∧
    (s.swath.subst.byAudit = true → t.audit.edits = []) ∧ (s.swath.subst.byAudit = false → t.audit = s.audit) ∧
    t.cfg = s.cfg ∧ t.job = s.job ∧ t.faults = s.faults ∧ t.time = s.time ∧ t.sys.mode = s.sys.mode ∧ t.codec = s.codec) ∧
  (∀ (s v : State) (l : List (Nat × List Nat × Nat)) (m : Vector (List Nat) 16), s.swath.subst.shadow = .building → s.swath.subst.byAudit = false →
    s.audit.edits = [] → readSubst ((List.range 16).filter (portSet s)) (bgEnd .subst s) = (.ok l, v) →
    m = (Vector.ofFn fun i => match l.find? fun e => e.1 == i.val with | some e => e.2.1 | none => []) → Gives (.tableBuildDone 0x10) s fun t =>
      (firstBreach v m ≠ none → t.swath.subst.shadow = .failed) ∧
      (firstBreach v m = none →
        (s.sys.mode = .configure ∨ (s.swath.subst.pending.isSome ∧ tableMoment s .atOnce = true) →
          t.swath.subst.shadow = .empty ∧ t.swath.subst.active = { codes := m, cv := mapCv (l.map (·.2.2)) }) ∧
        (s.sys.mode ≠ .configure → s.swath.subst.pending = none ∨ tableMoment s .atOnce = false →
          t.swath.subst.shadow = .ready ∧ t.swath.subst.built = some { codes := m, cv := mapCv (l.map (·.2.2)) } ∧
          t.swath.subst.pending = s.swath.subst.pending))) ∧
  (∀ (s v : State) (e : Nat × Nat), s.swath.subst.shadow = .building → s.swath.subst.byAudit = false → s.audit.edits = [] →
    readSubst ((List.range 16).filter (portSet s)) (bgEnd .subst s) = (.error e, v) →
    Gives (.tableBuildDone 0x10) s fun t => t.swath.subst.shadow = .failed) ∧
  (∀ (s : State) (n : Nat), (n = 0x10 ∧ s.swath.subst.shadow ≠ .building) ∨ (n ≠ 0x10 ∧ (16 ≤ n ∨ (greyPair s n).shadow ≠ .building)) →
    exec (.tableBuildDone n) s = .next s)

/-- O27. wave.load with its checks passed puts the port's shadow in BUILDING with address and trim; a port, a trim or an image out of place is BAD_ARG with
its offset, memory not initialised UNINIT; with no head record it is BAD_STATE, while a build runs or a swap is pending BUSY. wave.swap of a shadow
BUILDING or READY with none pending records the request and makes the swaps that the mode allows at once: none in most modes, and in IDLE, HOME, SAFESTOP and
SERVICE a READY bank that is not linked becomes the active one; of an EMPTY or FAILED shadow it is BAD_STATE, with one pending BUSY. wave.config stages an
accepted list; wave.test sets the port's pattern and value, which begin with the next frame. At the end of a build the image is judged by Table 7.2 for the
head now read: the bank joins the shadow READY, or becomes active in CONFIGURE or where its swap is due at once, and a failed one, or one that cannot be read,
leaves the shadow FAILED, empty and without a request; a build does not end while the old bank is still to be played. Each refusal changes nothing.
(R196, R198, R199, R200, R202, R203, R204, R205, R206, R207, R214, Table 7.3) -/
def Obligations.WaveformsLoadBuildAndSwap : Prop :=
  (∀ (s : State) (c : Command) (p a trim : Nat), Doing s 0x0701 c → p = uAt c.payload 0 1 → trim = uAt c.payload 2 2 → a = uAt c.payload 8 8 →
    (16 ≤ p ∨ portSet s p = false → Answers .waveLoad s c { status := .badArg } s) ∧
    (p < 16 → portSet s p = true →
      (trim < 8192 ∨ 24576 < trim → Answers .waveLoad s c { status := .badArg, detail := 2 } s) ∧
      (8192 ≤ trim → trim ≤ 24576 →
        (badBank s a = some .badArg → Answers .waveLoad s c { status := .badArg, detail := 8 } s) ∧
        (badBank s a = some .uninit → Answers .waveLoad s c { status := .uninit } s) ∧
        (badBank s a = none →
          ((nthOr s.heads p {}).record.isSome = true → (nthOr s.wave p {}).shadow ≠ .building → (nthOr s.wave p {}).pending = none →
            Answers .waveLoad s c { status := .ok } (bgStart (.wave p) { s with
              wave := updAt s.wave p (fun w => { w with shadow := .building, addr := a, trim := trim }) })) ∧
          ((nthOr s.heads p {}).record.isSome = true → (nthOr s.wave p {}).shadow = .building ∨ (nthOr s.wave p {}).pending.isSome = true →
            Answers .waveLoad s c { status := .busy } s) ∧
          ((nthOr s.heads p {}).record = none → Answers .waveLoad s c { status := .badState } s))))) ∧
  (∀ (s : State) (c : Command), Doing s 0x0702 c →
    (16 ≤ uAt c.payload 0 1 → Answers .waveSwap s c { status := .badArg } s) ∧
    (uAt c.payload 0 1 < 16 → 1 < uAt c.payload 1 1 → Answers .waveSwap s c { status := .badArg, detail := 1 } s)) ∧
  (∀ (s v : State) (c : Command) (p : Fin 16), Doing s 0x0702 c → uAt c.payload 0 1 = p.val → uAt c.payload 1 1 ≤ 1 →
    v = { s with wave := updAt s.wave p.val (fun w => { w with pending := some (uAt c.payload 1 1 == 1) }) } →
    (s.wave[p].shadow = .empty ∨ s.wave[p].shadow = .failed → Answers .waveSwap s c { status := .badState } s) ∧
    (s.wave[p].shadow = .ready ∨ s.wave[p].shadow = .building → s.wave[p].pending ≠ none → Answers .waveSwap s c { status := .busy } s) ∧
    (s.wave[p].shadow = .ready ∨ s.wave[p].shadow = .building → s.wave[p].pending = none →
      Answers .waveSwap s c { status := .ok } (swapsAtOnce v) ∧
      (s.sys.mode ≠ .idle → s.sys.mode ≠ .hold → s.sys.mode ≠ .home → s.sys.mode ≠ .safestop → s.sys.mode ≠ .service → swapsAtOnce v = v) ∧
      (∀ b, s.wave[p].shadow = .ready → waveMoment s p.val .atOnce = true → isLinked s p.val = false → shadowBank s.wave[p] = some b →
        (swapsAtOnce v).wave[p].active = 1 - s.wave[p].active ∧ (swapsAtOnce v).wave[p].shadow = .empty ∧ (swapsAtOnce v).wave[p].pending = none ∧
        (swapsAtOnce v).wave[p].banks = s.wave[p].banks) ∧
      (swapsAtOnce v).cfg = s.cfg ∧ (swapsAtOnce v).job = s.job ∧ (swapsAtOnce v).mem = s.mem ∧ (swapsAtOnce v).faults = s.faults ∧
      (swapsAtOnce v).sys.mode = s.sys.mode ∧ (swapsAtOnce v).time = s.time ∧ (swapsAtOnce v).codec = s.codec ∧ (swapsAtOnce v).audit = s.audit)) ∧
  (∀ (s : State) (c : Command), Doing s 0x0703 c →
    (16 ≤ listTarget c.payload 0 → Answers .waveConfig s c { status := .badArg } s) ∧
    (∀ m, listTarget c.payload 0 < 16 →
      judgeList waveSpecs noRelation (nthOr s.cfg.staged.waves (listTarget c.payload 0) []) (listItems c.payload 0) = .ok m →
      Answers .waveConfig s c { status := .ok } { s with cfg := { s.cfg with staged := { s.cfg.staged with
        waves := updAt s.cfg.staged.waves (listTarget c.payload 0) fun _ => m } } }) ∧
    (∀ d, listTarget c.payload 0 < 16 →
      judgeList waveSpecs noRelation (nthOr s.cfg.staged.waves (listTarget c.payload 0) []) (listItems c.payload 0) = .error d →
      Answers .waveConfig s c { status := .badArg, detail := d } s)) ∧
  (∀ (s : State) (c : Command) (p : Nat), Doing s 0x0704 c → p = uAt c.payload 0 1 →
    (16 ≤ p → Answers .waveTest s c { status := .badArg } s) ∧
    (p < 16 → 3 < uAt c.payload 1 1 → Answers .waveTest s c { status := .badArg, detail := 1 } s) ∧
    (p < 16 → uAt c.payload 1 1 ≤ 3 → Answers .waveTest s c { status := .ok } { s with wave := updAt s.wave p (fun w => { w with
      test := uAt c.payload 1 1, testValue := uAt c.payload 2 2, testNew := true }) })) ∧
  (∀ (s : State) (p : Fin 16), s.wave[p].shadow ≠ .building ∨ oldBankWaits s p.val = true → exec (.waveBuildDone p) s = .next s) ∧
  (∀ (s v : State) (p : Fin 16) (o : Option (List Byte)) (r : Except (Nat × Nat) Bank), s.wave[p].shadow = .building → oldBankWaits s p.val = false →
    dramRead 1 s.wave[p].addr (68 + 2 * uAt (Mem.readN s.mem.dram s.wave[p].addr 64) 6 2) s = (o, v) →
    r = (match o with
      | none => .error (13, 0)
      | some b => buildBank s.sys.legacy (tPortCheck s p.val) (s.heads[p].record.elim 0 (·.rankScale)) s.wave[p].trim b) →
    (∀ k, r = .ok k → Gives (.waveBuildDone p) s fun t =>
      t.wave[p].banks = updAt s.wave[p].banks (1 - s.wave[p].active) (fun _ => some k) ∧
      ((s.sys.mode = .configure ∨ (s.wave[p].pending.isSome ∧ waveMoment s p.val .atOnce = true ∧
          (isLinked s p.val = true → s.swath.grey[p].shadow = .ready ∧ tableMoment s .atOnce = true))) →
        t.wave[p].active = 1 - s.wave[p].active ∧ t.wave[p].shadow = .empty ∧ t.wave[p].pending = none) ∧
      (s.sys.mode ≠ .configure → (s.wave[p].pending = none ∨ waveMoment s p.val .atOnce = false ∨
          (isLinked s p.val = true ∧ (s.swath.grey[p].shadow ≠ .ready ∨ tableMoment s .atOnce = false))) →
        t.wave[p] = { s.wave[p] with shadow := .ready, banks := updAt s.wave[p].banks (1 - s.wave[p].active) fun _ => some k }) ∧
      t.cfg = s.cfg ∧ t.job = s.job ∧ t.mem.dram = v.mem.dram ∧ t.faults = s.faults ∧ t.time = s.time ∧ t.sys.mode = s.sys.mode ∧ t.codec = s.codec ∧
      t.audit = s.audit) ∧
    (∀ e, r = .error e → Gives (.waveBuildDone p) s fun t =>
      t.wave[p] = { s.wave[p] with shadow := .failed, pending := none, banks := updAt s.wave[p].banks (1 - s.wave[p].active) fun _ => none } ∧
      (∀ k : Fin 16, k ≠ p → t.wave[k] = s.wave[k]) ∧
      t.swath = (if isLinked s p.val = true ∧ s.wave[p].pending.isSome then
        { s.swath with grey := updAt s.swath.grey p.val (fun q => { q with pending := none }) } else s.swath) ∧
      t.cfg = s.cfg ∧ t.job = s.job ∧ t.mem = v.mem ∧ t.faults = s.faults ∧ t.time = s.time ∧ t.sys.mode = s.sys.mode ∧ t.codec = s.codec ∧
      t.audit = s.audit))

/-- O28. CYCLE_START on a port that may start one takes the token and adds a cycle on the token's bank from this clock; otherwise it changes nothing.
REST_LEVEL_MOVE with no cycle running and no line waiting on the old bank starts the port's move; otherwise it changes nothing. WAVE_FRAME of a running
stream sends 256 bytes of which the last four are the CRC-32C of the rest, counts the frame, and fixes the next frame's type, bank and rest code; of a
stream that is ending it is the last frame. The words of the bank store that stand in error, and one that is found in error, are met before: one that
cannot be used latches WAV_ECC. Of a stream that is off it changes nothing. The configuration and job stand.
(R195, R210, R211, R212, R213, R214, R215, R217, R218, R380, Table 7.4, Table 7.5) -/
def Obligations.WaveformCyclesAndFrames : Prop :=
  (∀ (s : State) (p : Fin 16) (h : HeadLine), s.wave[p].token = some h → cycleReady s p.val = true →
    exec (.cycleStart p) s = .next { s with wave := s.wave.set p { s.wave[p] with
      token := none, cycles := s.wave[p].cycles ++ [{ line := h, bank := h.bank, startAt := s.clock }]
      played := ({ startAt := s.clock, bank := h.bank } :: s.wave[p].played).take 2 } }) ∧
  (∀ (s : State) (p : Fin 16), cycleReady s p.val = false → exec (.cycleStart p) s = .next s) ∧
  (∀ (s : State) (p : Fin 16), s.wave[p].cycles = [] → oldBankWaits s p.val = false →
    exec (.restLevelMove p) s = .next { s with wave := s.wave.set p { s.wave[p] with move := s.wave[p].move.map fun m => { m with started := true } } }) ∧
  (∀ (s : State) (p : Fin 16), s.wave[p].cycles ≠ [] ∨ oldBankWaits s p.val = true → exec (.restLevelMove p) s = .next s) ∧
  (∀ (s v u : State) (p : Fin 16) (e : Option WaveErr), s.wave[p].on = true →
    v = (storedErrors p.val (s.clock - 2048) s).foldl (fun s x => bankWord p.val (s.clock - 2048) 0 x s) s →
    u = (match e with
      | some e => bankWord p.val (s.clock - 2048) e.synd (e.at_.val, e.bank.val, bankBase p.val e.bank.val + e.word.val) v
      | none => v) →
    (storedErrors p.val (s.clock - 2048) s = [] → v = s) ∧ u.cfg = s.cfg ∧ u.job = s.job ∧ u.win = s.win ∧ u.audit = s.audit ∧
    (∀ e' b, e = some e' → storedErrors p.val (s.clock - 2048) s = [] → s.wave[p].banks[e'.bank] = some b → b.bad = false →
      (ownerFinds (0x30 + p.val) 6 (bankBase p.val e'.bank.val + e'.word.val) e'.synd s).1 = true →
      latchedAt s (regionInst (0x30 + p.val)) = none → canArise .wavEcc s = true → s.sys.mode ≠ .follow →
      latchedAt u (regionInst (0x30 + p.val)) = some .wavEcc) ∧
    ∃ b : List Byte, b.length = 252 ∧ Gives (.waveFrame p e) s fun t =>
      t.sent = ⟨.wave p, b ++ leBytes 4 (crc32c b).toNat⟩ :: u.sent ∧ (∀ q : Fin 16, q ≠ p → t.wave[q] = u.wave[q]) ∧
      t = { u with sent := t.sent, wave := t.wave, mem := { u.mem with cvu := t.mem.cvu } } ∧
      (u.wave[p].ending = true → t.wave[p].on = false ∧ t.wave[p].ending = false ∧ t.wave[p].frType = 0 ∧ t.wave[p].played = []) ∧
      (u.wave[p].ending = false → t.wave[p].on = u.wave[p].on ∧ t.wave[p].frameNo = u.wave[p].frameNo + 1 ∧
        t.wave[p].frType = nextType u (isStopped u (0x30 + p.val)) { t.wave[p] with frType := u.wave[p].frType } ∧
        t.wave[p].frBank = u.wave[p].active ∧ t.wave[p].frRest = t.wave[p].level)) ∧
  (∀ (s : State) (p : Fin 16) (e : Option WaveErr), s.wave[p].on = false → exec (.waveFrame p e) s = .next s)

/-- O29. On a port that may fire: FRAME_SHIFT_START of a first line, or of another once the line before is latched, or never will be, and its latch
fell 10 ns before, moves it into the shifter; FRAME_SHIFT_DONE sends its frame and leaves it shifted, unless the mode has left the firing modes
meanwhile; LATCH_ISSUE from T_lat on, of a frame complete 40 ns before whose check holds, latches the line of the oldest cycle, and without windows
the line counts as fired and the cycle is over; else SHIFT_LATE, or in Markhor LINE_CHECK, names the line and latches. FIRE_WINDOW_OPEN, once the
HPORT clock of START is over, opens the next window, window 0 making the line count as fired; FIRE_WINDOW_CLOSE from END on closes the open one and
ends the cycle after its last. FIRE_PERMIT_FALL on a port that may not fire drops its token and every cycle without an open window and cuts the
others. Where a row does not fit, nothing changes. (R37, R196, R228, R231, R232, R233, R234, R235, R238, R239) -/
def Obligations.LinesAreShiftedLatchedAndFired : Prop :=
  (∀ (s : State) (p : Fin 16) (free : Prop), free = ((∀ h, s.swath.line[p].ready = some h → h.first = true) ∨
      ((∀ g, s.swath.line[p].shifted = some g → neverLatched s p.val g.1 = true) ∧ s.swath.line[p].latchFall + 8 ≤ s.clock)) →
    (∀ h, s.swath.line[p].ready = some h → s.swath.line[p].shifting = none → portFires s p.val = true → free →
      exec (.frameShiftStart p) s = .next { s with swath := { s.swath with
        line := s.swath.line.set p { s.swath.line[p] with ready := none, shifting := some (h, s.clock) } } }) ∧
    ((s.swath.line[p].ready = none ∨ s.swath.line[p].shifting ≠ none ∨ portFires s p.val = false ∨ ¬free) →
      exec (.frameShiftStart p) s = .next s)) ∧
  (∀ (s : State) (p : Fin 16) (h : HeadLine) (at_ : Nat), s.swath.line[p].shifting = some (h, at_) →
    Gives (.frameShiftDone p) s fun t => t = { s with
      swath := { s.swath with line := s.swath.line.set p { s.swath.line[p] with
        shifting := none, dead := false, shifted := if s.swath.line[p].dead then none else some (h, s.clock) } }
      sent := ⟨.shift p, (shiftBytes s p.val h).1⟩ :: s.sent
      mem := { s.mem with cvu := t.mem.cvu } }) ∧
  (∀ (s : State) (p : Fin 16), s.swath.line[p].shifting = none → exec (.frameShiftDone p) s = .next s) ∧
  (∀ (s : State) (p : Fin 16) (ok : Bool), (∀ c cs, s.wave[p].cycles = c :: cs → c.latched = true ∨ c.cut = true ∨ portFires s p.val = false ∨
      s.clock + 64 < c.startAt + 32 * ampLatencyOf s p.val + 8) → exec (.latchIssue p ok) s = .next s) ∧
  (∀ (s : State) (p : Fin 16) (ok : Bool) (c : Cycle) (cs : List Cycle) (whole : Prop), s.wave[p].cycles = c :: cs →
    c.latched = false → c.cut = false → portFires s p.val = true → c.startAt + 32 * ampLatencyOf s p.val + 8 ≤ s.clock + 64 →
    whole = (∃ h at_, s.swath.line[p].shifted = some (h, at_) ∧ h.f = c.line.f ∧ at_ + 32 ≤ s.clock) →
    (whole → (s.sys.profile = .markhor → ok = true) →
      (0 < (cycleBank s.wave[p] c).elim 0 (·.nwin) → exec (.latchIssue p ok) s = .next { s with
        swath := { s.swath with line := s.swath.line.set p { s.swath.line[p] with
          shifted := none, latched := some c.line, latchFall := s.clock + 16 } }
        wave := s.wave.set p { s.wave[p] with cycles := { c with latched := true } :: cs } }) ∧
      ((cycleBank s.wave[p] c).elim 0 (·.nwin) = 0 → Gives (.latchIssue p ok) s fun t => t.swath.line[p].latched = some c.line ∧
        t.swath.line[p].shifted = none ∧ t.swath.line[p].latchFall = s.clock + 16 ∧ t.wave[p].cycles = cs ∧
        ((recordOf s p.val).isSome = true → t.swath.line[p].fired = c.line.f + 1) ∧ t.cfg = s.cfg ∧ t.faults = s.faults ∧ t.time = s.time)) ∧
    (¬whole → Gives (.latchIssue p ok) s fun t =>
      t.faults.named = some { cls := .shiftLate, port := p.val, line := c.line.lineId } ∧ t.cfg = s.cfg ∧ t.job = s.job ∧ t.win = s.win ∧
      (latchedAt s (regionInst (0x30 + p.val)) = none → isWithheld s = false →
        latchedAt t (regionInst (0x30 + p.val)) = some .shiftLate ∧ t.faults.discard.isSome = true)) ∧
    (whole → s.sys.profile = .markhor → ok = false → Gives (.latchIssue p ok) s fun t =>
      t.faults.named = some { cls := .lineCheck, port := p.val, line := c.line.lineId } ∧ t.cfg = s.cfg ∧ t.job = s.job ∧ t.win = s.win ∧
      (latchedAt s (regionInst (0x30 + p.val)) = none → isWithheld s = false → s.sys.legacy = false →
        latchedAt t (regionInst (0x30 + p.val)) = some .lineCheck ∧ t.faults.discard.isSome = true))) ∧
  (∀ (s : State) (p : Fin 16) (w : Fin 7) (c : Cycle) (cs : List Cycle) (may : Prop), s.wave[p].cycles = c :: cs →
    may = (c.latched = true ∧ c.cut = false ∧ c.open_ = none ∧ c.next = w.val ∧ w.val < (cycleBank s.wave[p] c).elim 0 (·.nwin) ∧ portFires s p.val = true ∧
      (headSampleAt s p.val c (windowOf s.wave[p] c w.val).1 +
        (if w.val ≠ 0 ∧ (windowOf s.wave[p] c (w.val - 1)).2 = (windowOf s.wave[p] c w.val).1 then 4 else 0)) / 4 < s.clock / 4) →
    (may → w.val ≠ 0 ∨ recordOf s p.val = none → exec (.fireWindowOpen p w) s = .next { s with wave := s.wave.set p { s.wave[p] with
      cycles := { c with opened := c.opened + 2 ^ w.val, next := w.val + 1, open_ := some w.val, counted := true } :: cs } }) ∧
    (may → w.val = 0 → (recordOf s p.val).isSome = true → Gives (.fireWindowOpen p w) s fun t => t.swath.line[p].fired = c.line.f + 1 ∧
      t.wave[p].cycles = { c with opened := c.opened + 1, next := 1, open_ := some 0, counted := true } :: cs ∧
      t.sys.mode = s.sys.mode ∧ t.cfg = s.cfg ∧ t.faults = s.faults ∧ t.time = s.time ∧ t.pace = s.pace ∧ t.codec = s.codec) ∧
    (¬may → exec (.fireWindowOpen p w) s = .next s) ∧
    (c.open_ = some w.val → headSampleAt s p.val c (windowOf s.wave[p] c w.val).2 ≤ s.clock →
      exec (.fireWindowClose p w) s = .next { s with wave := s.wave.set p { s.wave[p] with
        cycles := if c.cut = true ∨ (cycleBank s.wave[p] c).elim 0 (·.nwin) ≤ w.val + 1 then cs else { c with open_ := none } :: cs } }) ∧
    (c.open_ ≠ some w.val ∨ s.clock < headSampleAt s p.val c (windowOf s.wave[p] c w.val).2 → exec (.fireWindowClose p w) s = .next s)) ∧
  (∀ (s : State) (p : Fin 16) (w : Fin 7), s.wave[p].cycles = [] →
    exec (.fireWindowOpen p w) s = .next s ∧ exec (.fireWindowClose p w) s = .next s) ∧
  (∀ (s : State) (p : Fin 16), portFires s p.val = false → Reaches (.firePermitFall p) s { s with wave := s.wave.set p { s.wave[p] with
    token := none, cycles := (s.wave[p].cycles.filter fun c => c.open_.isSome).map fun c => { c with cut := true } } }) ∧
  (∀ (s : State) (p : Fin 16), portFires s p.val = true → exec (.firePermitFall p) s = .next s)

/-- O30. LINE_TOKEN on a ready port whose line stands in it: the lag is counted and the token's time moves on; where no fault arises from it the port
takes the line as its token with the lines skipped, and with the next line in the swath that line comes next and, its job line staged, stands ready; on a
port that is not ready nothing changes. MAINTAIN_TIMER_LINE from t₀ + k × PERIOD on, t₀ being when line 0 may be issued, counts one line more due while the
sequence has lines; before, nothing changes. MAINT_SEQUENCE_COMPLETE of a complete sequence returns to the mode MAINTAIN came from, takes up the job's
pacing where it was set aside, and ends the operation; before, nothing changes. SWATH_START_PERMISSION with every condition met makes the swaps due and,
with every bank ready then, starts the swath, with line 0 ready on every port where no fault arises; with a condition not met, or a bank not ready, no swath
starts. (R160, R171, R195, R205, R209, R250, R287, R288, R298, R301, R303, R517) -/
def Obligations.TokensPaceTheLines : Prop :=
  (∀ (s : State) (p : Fin 16) (h : HeadLine) (e : PrepErr) (f lag : Nat), tokenReady s p.val = true →
    headLineOf s.swath.line[p] s.pace.port[p].next = some h → f = s.pace.port[p].next + 1 + s.pace.port[p].skip →
    lag = (s.clock - s.pace.port[p].dueAt.getD s.clock) * 5 / 4 →
    Gives (.lineToken p e) s fun t =>
      t.job.late = (if lag = 0 then s.job.late else satAdd 64 s.job.late 1) ∧ t.job.maxLag = max s.job.maxLag lag ∧
      t.cfg = s.cfg ∧ t.job.isOpen = s.job.isOpen ∧ t.job.pacLine = s.job.pacLine ∧ t.win = s.win ∧ t.bar = s.bar ∧ t.time.tb = s.time.tb ∧
      (latchedAt s (regionInst 0x30) = none → (s.sys.legacy = false ∨ s.sys.profile = .impala) → t.faults = s.faults →
        t.wave[p].token = some { h with skip := s.pace.port[p].skip } ∧ t.sys.mode = s.sys.mode ∧
        t.pace.port[p].lastAt = some s.clock ∧ (paceInSwath s f = true → t.pace.port[p].next = f) ∧
        (inSwath s f = true → underrunHead s f = none → (recordOf s p.val).isSome = true → t.swath.line[p].ready.map (·.f) = some f))) ∧
  (∀ (s : State) (p : Fin 16) (e : PrepErr), tokenReady s p.val = false → exec (.lineToken p e) s = .next s) ∧
  (∀ (s : State) (now : Prop), now = (s.pace.source = .timer ∧ s.swath.active = true ∧
      ((s.pace.mT0 = none ∧ frame0Shifted 32 s = true) ∨
        ∃ t0, s.pace.mT0 = some t0 ∧ 5 * t0 + 4 * (s.pace.mDue * s.pace.mPeriod) ≤ 5 * s.clock)) →
    (now → s.sys.mode = .maintain → s.pace.mDue < s.pace.mLines → s.pace.mStop = false → Gives .maintainTimerLine s fun t =>
      t.cfg = s.cfg ∧ t.win = s.win ∧ t.bar = s.bar ∧ t.job.isOpen = s.job.isOpen ∧ t.time.tb = s.time.tb ∧
      (t.faults = s.faults → t.pace.mDue = s.pace.mDue + 1 ∧ t.pace.mLines = s.pace.mLines ∧
        t.pace.mT0 = some (s.pace.mT0.getD (frame0At s)) ∧ t.sys.mode = .maintain)) ∧
    (now → s.sys.mode ≠ .maintain ∨ s.pace.mLines ≤ s.pace.mDue ∨ s.pace.mStop = true →
      exec .maintainTimerLine s = .next { s with pace := { s.pace with mT0 := some (s.pace.mT0.getD (frame0At s)) } }) ∧
    (¬now → exec .maintainTimerLine s = .next s)) ∧
  (∀ s : State, maintComplete s = true → s.sys.resetPending = false → Gives .maintSequenceComplete s fun t =>
    t.sys.mode = s.sys.maintFrom ∧ t.parked = none ∧ (∀ e ∈ t.mbx.bg, e.2 ≠ .maint) ∧
    (s.parked = none → t.pace = { s.pace with source := .none_, mStop := false, ended := false } ∧
      (s.swath.kind = .maint → t.swath.active = false)) ∧
    (∀ w q, s.parked = some (w, q) → t.pace.armed = q.armed ∧ t.pace.source = q.source ∧ t.pace.origin = q.origin ∧ t.swath.active = w.active) ∧
    t.cfg = s.cfg ∧ t.job = s.job ∧ t.faults = s.faults ∧ t.codec = s.codec ∧ t.time = s.time ∧ t.audit = s.audit) ∧
  (∀ s : State, maintComplete s = false → exec .maintSequenceComplete s = .next s) ∧
  (∀ (s v : State) (p : Fin 16) (e : PrepErr) (k : SwathKind) (q : SwathPlan), permissionBase s = some (k, q) →
    v = (portsOn s).foldl noteStale (swapSubstDue .permission
      ((portsOn s).foldl (fun s p => swapPort .permission 0 p s) ((portsOn s).foldl noteStale s))) →
    ((∃ n ∈ portsOn s, bankReady v n = false) → exec (.swathStartPermission p e) s = .next v ∧ v.swath.active = false) ∧
    ((∀ n ∈ portsOn s, bankReady v n = true) → Gives (.swathStartPermission p e) s fun t =>
      t.cfg = s.cfg ∧ t.job = s.job ∧ t.win = s.win ∧ t.bar = s.bar ∧ t.audit = s.audit ∧
      (t.faults = s.faults → t.swath.active = true ∧ t.swath.kind = k ∧ t.swath.first = q.first ∧ t.swath.ls = q.ls ∧ t.sys.mode = s.sys.mode ∧
        ((s.sys.legacy = false ∨ s.sys.profile = .impala) → (∀ n, q.ls = some n → 0 < n) → ∀ n ∈ portsOn s, (recordOf s n).isSome = true →
          (nthOr t.swath.line n {}).ready.map (·.f) = some 0)))) ∧
  (∀ (s : State) (p : Fin 16) (e : PrepErr), permissionBase s = none → Gives (.swathStartPermission p e) s fun t =>
    EventsOnly { s with wave := t.wave } t ∧ ∀ n : Fin 16, t.wave[n] = { s.wave[n] with stale := t.wave[n].stale })

/-- O31. While the filters run: HEAD_PRESENT makes an absent head present and reads it; HEAD_RECORD_READ_DONE of a head being read, its bus tried as
R241 has it, takes the record into use when Table 8.12 finds no cause and leaves the port without a record otherwise; HEAD_ABSENT ends presence and
the record, and latches HEAD_LOST on a configured port in a firing mode; HEAD_FAULT_ASSERT and HEAD_FAULT_CLEAR set and clear the port's fault, and
the first latches HEAD_FAULT on such a port; in FOLLOW HEAD_ABSENT and HEAD_FAULT_ASSERT of a configured port make a fit standby unfit.
HEAD_USAGE_WRITE of a firing port after 15 minutes makes the other copy current with a sequence one higher where its usage may be written and the bus
carries it; else the copies stand. Where a row does not fit the port's state, nothing changes. The configuration stands in all of them. (R241, R243,
R246, R247, R249, R250, R251, R297, R437, Table 8.12) -/
def Obligations.HeadsComeAndGo : Prop :=
  (∀ (s : State) (p : Fin 16), filtersRun s p.val = true →
    (s.heads[p].present = false → Gives (.headPresent p) s fun t => t.heads[p].present = true ∧ t.heads[p].reading = true ∧
      t.heads[p].usageRead = false ∧ t.heads[p].record = s.heads[p].record ∧ t = { s with heads := t.heads, life := t.life }) ∧
    (s.heads[p].present = true → exec (.headPresent p) s = .next s) ∧
    (s.heads[p].present = true → Gives (.headAbsent p) s fun t => t.heads[p].present = false ∧ t.heads[p].reading = false ∧
      t.heads[p].record = none ∧ t.cfg = s.cfg ∧ t.job = s.job ∧ t.win = s.win ∧ t.audit = s.audit ∧
      (portOn s p.val = true → s.sys.mode = .follow → s.twin.fit = true → t.twin.fit = false ∧ t.twin.unfitCause = 9) ∧
      ((portOn s p.val = false ∨ s.sys.mode.firing = false) → t.faults = s.faults ∧ t.sys.mode = s.sys.mode) ∧
      (portOn s p.val = true → s.sys.mode.firing = true → latchedAt s (regionInst (0x30 + p.val)) = none →
        latchedAt t (regionInst (0x30 + p.val)) = some .headLost)) ∧
    (s.heads[p].present = false → exec (.headAbsent p) s = .next s) ∧
    (s.heads[p].fault = false → Gives (.headFaultAssert p) s fun t => t.heads[p].fault = true ∧ t.cfg = s.cfg ∧ t.job = s.job ∧ t.win = s.win ∧
      t.audit = s.audit ∧ (portOn s p.val = true → s.sys.mode = .follow → s.twin.fit = true → t.twin.fit = false ∧ t.twin.unfitCause = 9) ∧
      ((portOn s p.val = false ∨ s.sys.mode.firing = false) → t.faults = s.faults ∧ t.sys.mode = s.sys.mode) ∧
      (portOn s p.val = true → s.sys.mode.firing = true → latchedAt s (regionInst (0x30 + p.val)) = none →
        latchedAt t (regionInst (0x30 + p.val)) = some .headFault)) ∧
    (s.heads[p].fault = true → exec (.headFaultAssert p) s = .next s) ∧
    (s.heads[p].fault = true → Gives (.headFaultClear p) s fun t => t.heads[p] = { s.heads[p] with fault := false } ∧
      (∀ q : Fin 16, q ≠ p → t.heads[q] = s.heads[q]) ∧ EventsOnly { s with heads := t.heads } t) ∧
    (s.heads[p].fault = false → exec (.headFaultClear p) s = .next s)) ∧
  (∀ (s : State) (p : Fin 16), filtersRun s p.val = false → exec (.headPresent p) s = .next s ∧ exec (.headAbsent p) s = .next s ∧
    exec (.headFaultAssert p) s = .next s ∧ exec (.headFaultClear p) s = .next s) ∧
  (∀ (s : State) (p : Fin 16) (tries : List BusTry) (data : List Byte) (bus cause : Nat), s.heads[p].reading = true → s.heads[p].present = true →
    bus = (readHead p [0, 1, 2, 3] tries s).1 → cause = recordCause s.sys.legacy bus data → Gives (.headRecordReadDone p tries data) s fun t =>
      t.heads[p].reading = false ∧ t.heads[p].present = true ∧ t.heads[p].serial = uAt (headBlock data 0) 40 8 ∧
      t.heads[p].record = (if cause = 0 then some (recordOfBytes (headBlock data 0) (headBlock data 1)) else none) ∧
      t.heads[p].mismatch = (s.heads[p].mismatch || (cause == 0 && (compareHead s p.val (recordOfBytes (headBlock data 0) (headBlock data 1))).2)) ∧
      t.heads[p].tPort = (if cause = 0 ∧ s.heads[p].committed.isSome then max s.heads[p].tPort (uAt (headBlock data 1) 4 4) else s.heads[p].tPort) ∧
      (∃ xs : List Sent, t.sent = xs ++ s.sent ∧ ∀ x ∈ xs, (∃ slow, x.chan = .i2c p slow) ∨ x.chan = .i2cFree p) ∧
      t.cfg = s.cfg ∧ t.job = s.job ∧ t.faults = s.faults ∧ t.sys.mode = s.sys.mode ∧ t.mem = s.mem ∧ t.swath = s.swath ∧ t.wave = s.wave) ∧
  (∀ (s : State) (p : Fin 16) (tries : List BusTry) (data : List Byte), s.heads[p].reading = false ∨ s.heads[p].present = false →
    exec (.headRecordReadDone p tries data) s = .next s) ∧
  (∀ (s : State) (p : Fin 16) (tries : List BusTry), portFires s p.val = true → usageDue p.val s = true →
    (mayWriteUsage s p.val = true → Gives (.headUsageWrite p tries) s fun t =>
      ((busTransfer p false [] 3 0 tries s).1 = 0 → t.heads[p].usageOk = true ∧ t.heads[p].usageCopy = 1 - s.heads[p].usageCopy ∧
        t.heads[p].usageSeq = (s.heads[p].usageSeq + 1) % 2 ^ 32) ∧
      ((busTransfer p false [] 3 0 tries s).1 ≠ 0 → t.heads[p].usageOk = s.heads[p].usageOk ∧ t.heads[p].usageCopy = s.heads[p].usageCopy ∧
        t.heads[p].usageSeq = s.heads[p].usageSeq ∧ t.heads[p].usageFires = s.heads[p].usageFires ∧ t.heads[p].usageMin = s.heads[p].usageMin) ∧
      (∃ xs : List Sent, t.sent = xs ++ s.sent ∧ (tries = [] → xs.length = 8) ∧ ∀ x ∈ xs, x.chan = .i2c p false ∨ x.chan = .i2cFree p) ∧
      t = { s with heads := t.heads, life := t.life, sent := t.sent }) ∧
    (mayWriteUsage s p.val = false → exec (.headUsageWrite p tries) s = .next (countTime s))) ∧
  (∀ (s : State) (p : Fin 16) (tries : List BusTry), portFires s p.val = false ∨ usageDue p.val s = false → exec (.headUsageWrite p tries) s = .next s)

/-- O32. head.read of blocks 2 and 3 of a present head answers the bus cause, the block's check and its 256 bytes and changes nothing but what goes
over the bus; of blocks 0 and 1 it takes the record read into use by its cause. head.write of a block that checks sends its eight pages, each with a
poll after it, and found again on reading back it answers OK; where it reads back otherwise, or the bus fails every try, it is NO_SPACE and the record
is that which is now found. Of an absent head both are BAD_STATE, and after PWR_FAIL_N has fallen head.write is BUSY (the model's reading of R490,
assumption log 57); a wrong port or block number, or a block that does not check, is BAD_ARG. OWN_READBACK outside BOOT and KEEPALIVE removes the fire
permit and latches. BAR_CONTENTION of two balls that have been high for 200 ns, not yet noted, marks it from this clock, latches, and leaves a paired
secondary without the lease; otherwise both change nothing. (R39, R241, R247, R248, R252, R254, R255, R450, Table 8.12) -/
def Obligations.HeadMemoryAndBarOwnership : Prop :=
  (∀ (s : State) (c : Command) (tries : List BusTry) (data : List Byte), Doing s 0x0801 c → 16 ≤ uAt c.payload 0 1 →
    Answers (.headRead tries data) s c { status := .badArg } s) ∧
  (∀ (s : State) (c : Command) (tries : List BusTry) (data : List Byte) (p : Fin 16) (k : Nat) (x : Nat × List BusTry × State), Doing s 0x0801 c →
    uAt c.payload 0 1 = p.val → k = uAt c.payload 1 1 → x = readHead p (if k < 2 then [0, 1, 2, 3] else [k]) tries s →
    (3 < k → Answers (.headRead tries data) s c { status := .badArg, detail := 1 } s) ∧
    (k ≤ 3 → s.heads[p].present = false → Answers (.headRead tries data) s c { status := .badState } s) ∧
    (∃ xs : List Sent, x.2.2 = { s with sent := xs ++ s.sent } ∧ ∀ y ∈ xs, (∃ slow, y.chan = .i2c p slow) ∨ y.chan = .i2cFree p) ∧
    (2 ≤ k → k ≤ 3 → s.heads[p].present = true → Answers (.headRead tries data) s c
      { status := .ok
        payload := leBytes 1 x.1 ++ leBytes 1 (bitAt (x.1 == 0 && blockOk data k) 0) ++ zeros 6 ++ headBlock data k } x.2.2) ∧
    (k < 2 → s.heads[p].present = true → Does (.headRead tries data) s c
      { status := .ok
        payload := leBytes 1 (recordCause s.sys.legacy x.1 data) ++ leBytes 1 (bitAt (x.1 == 0 && blockOk data k) 0) ++ zeros 6 ++
          headBlock data k } fun u =>
        u.heads[p].record = (if recordCause s.sys.legacy x.1 data = 0 then some (recordOfBytes (headBlock data 0) (headBlock data 1)) else none) ∧
        u.heads[p].reading = s.heads[p].reading ∧ u.sent = x.2.2.sent ∧
        u.cfg = s.cfg ∧ u.job = s.job ∧ u.mem = s.mem ∧ u.faults = s.faults ∧ u.sys.mode = s.sys.mode ∧ u.swath = s.swath ∧ u.wave = s.wave)) ∧
  (∀ (s : State) (c : Command) (tries : List BusTry) (back : List Byte), Doing s 0x0802 c → 16 ≤ uAt c.payload 0 1 →
    Answers (.headWrite tries back) s c { status := .badArg } s) ∧
  (∀ (s : State) (c : Command) (tries : List BusTry) (back b : List Byte) (p : Fin 16) (k : Nat) (w x : Nat × List BusTry × State), Doing s 0x0802 c →
    uAt c.payload 0 1 = p.val → k = uAt c.payload 1 1 → b = (c.payload.drop 8).take 256 →
    w = writePages p (0x100 * k) b tries s → x = (if w.1 = 0 then readHead p [k] w.2.1 w.2.2 else w) →
    (2 < k → Answers (.headWrite tries back) s c { status := .badArg, detail := 1 } s) ∧
    (k ≤ 2 → blockCvOk b = false → Answers (.headWrite tries back) s c { status := .badArg, detail := 8 } s) ∧
    (k ≤ 2 → blockCvOk b = true → s.heads[p].present = false → Answers (.headWrite tries back) s c { status := .badState } s) ∧
    (∃ xs : List Sent, x.2.2 = { s with sent := xs ++ s.sent } ∧ ∀ y ∈ xs, (∃ slow, y.chan = .i2c p slow) ∨ y.chan = .i2cFree p) ∧
    (tries = [] → b.length = 256 → x.1 = 0 ∧ ∃ pages : List Sent, pages.length = 16 ∧ w.2.2 = { s with sent := pages ++ s.sent }) ∧
    (k ≤ 2 → blockCvOk b = true → s.heads[p].present = true → s.sys.pwrFailN = false → Answers (.headWrite tries back) s c { status := .busy } s) ∧
    (k ≤ 2 → blockCvOk b = true → s.heads[p].present = true → s.sys.pwrFailN = true →
      (x.1 = 0 → headBlock back k = b → Answers (.headWrite tries back) s c { status := .ok } x.2.2) ∧
      (∀ cause, (x.1 ≠ 0 ∧ cause = recordCause s.sys.legacy (readHead p [0, 1, 2, 3] x.2.1 x.2.2).1 back) ∨
          (x.1 = 0 ∧ headBlock back k ≠ b ∧ cause = recordCause s.sys.legacy 0 back) →
        Does (.headWrite tries back) s c { status := .noSpace } fun u =>
          u.heads[p].record = (if cause = 0 then some (recordOfBytes (headBlock back 0) (headBlock back 1)) else none) ∧
          u.cfg = s.cfg ∧ u.job = s.job ∧ u.mem = s.mem ∧ u.faults = s.faults ∧ u.sys.mode = s.sys.mode ∧ u.swath = s.swath ∧ u.wave = s.wave))) ∧
  (∀ s : State, s.sys.mode ≠ .keepalive → s.sys.mode ≠ .boot → Gives .ownReadback s fun t =>
    t.bar = { s.bar with readbackCut := true } ∧ firePermit t = false ∧ t.cfg = s.cfg ∧ t.job = s.job ∧ t.win = s.win ∧ t.audit = s.audit ∧
    (latchedAt s (regionInst 0x61) = none → latchedAt t (regionInst 0x61) = some .ownReadback)) ∧
  (∀ s : State, s.sys.mode = .keepalive ∨ s.sys.mode = .boot → exec .ownReadback s = .next s) ∧
  (∀ s : State, contending s = true → s.bar.contention = false ∨ s.bar.contAt < s.bar.peerSince → Gives .barContention s fun t =>
    t.bar = { s.bar with contention := true, contAt := s.clock } ∧ firePermit t = false ∧ t.cfg = s.cfg ∧ t.job = s.job ∧ t.win = s.win ∧
    t.audit = s.audit ∧ (pairOn s = true → s.sys.straps.unitId = true → t.twin.lease = .none_) ∧
    (canArise .barContention s = true → latchedAt s (regionInst 0x61) = none → latchedAt t (regionInst 0x61) = some .barContention)) ∧
  (∀ s : State, contending s = false ∨ (s.bar.contention = true ∧ s.bar.peerSince ≤ s.bar.contAt) → exec .barContention s = .next s)

/-- O33. The forward sequence 00, 10, 11, 01 counts one on each step in X4, its reverse minus one, a double change is illegal. While the interface
runs, FEEDBACK_COUNT feeds the filters of FB_A and FB_B with the levels sampled; a filtered level that changes with a count d moves the channel's
48-bit position by d, negated under DIR_INV; an illegal change counts ILLEGAL and leaves the position; where the two change at different samples each
counts at its own. HALL_EVALUATE between known sectors moves the position by Table 9.4; a code that is no sector for two evaluations, or a move Table
9.4 does not have, is illegal. FBK_CAPTURE_EDGE whose filtered level changes on an armed edge copies the position and counts the capture.
SPEED_WINDOW_END reports a window that has run its length and starts the next one without a gap. FBO_STEP sends one step of the backlog after SPACING.
While the interface does not run the levels are followed and nothing is counted. (R262, R266, R267, R269, R270, R271, R274, R275, R278, R283, R284,
Table 9.4) -/
def Obligations.FeedbackCountsAndCaptures : Prop :=
  (∀ (f : Fbk), f.mode = 3 →
    (f.a = false → f.b = false → decodeCount f true false = some 1 ∧ decodeCount f false true = some (-1) ∧ decodeCount f true true = none) ∧
    (f.a = true → f.b = false → decodeCount f true true = some 1 ∧ decodeCount f false false = some (-1) ∧ decodeCount f false true = none) ∧
    (f.a = true → f.b = true → decodeCount f false true = some 1 ∧ decodeCount f true false = some (-1) ∧ decodeCount f false false = none) ∧
    (f.a = false → f.b = true → decodeCount f false false = some 1 ∧ decodeCount f true true = some (-1) ∧ decodeCount f true false = none)) ∧
  (∀ (s : State) (c : Fin 8) (a b a' b' : Bool) (n : Nat) (f g : Fbk) (x y : Option Nat), f = s.fbk[c] → x = f.fa.takesAt f.filter f.a a n →
    y = f.fb.takesAt f.filter f.b b n → a' = (if x.isSome then a else f.a) → b' = (if y.isSome then b else f.b) →
    g = { f with
      fa := f.fa.take a n, fb := f.fb.take b n
      glitch := if feedbackOn s then wrapAdd 32 f.glitch (bitAt (f.fa.rejects f.a a n) 0 + bitAt (f.fb.rejects f.b b n) 0) else f.glitch } →
    (feedbackOn s = false ∨ (x = none ∧ y = none) → exec (.feedbackCount c a b n) s = .next { s with fbk := s.fbk.set c { g with a := a', b := b' } }) ∧
    (feedbackOn s = true → (x = none ∨ y = none ∨ x = y) →
      (∀ d, decodeCount f a' b' = some d → d ≠ 0 → Gives (.feedbackCount c a b n) s fun t =>
        t.fbk[c].pos = f.pos + BitVec.ofInt 48 (if f.inverted then -d else d) ∧ t.fbk[c].a = a' ∧ t.fbk[c].b = b' ∧
        t.fbk[c].illegal = f.illegal ∧ t.cfg = s.cfg ∧ t.win = s.win ∧ t.bar = s.bar ∧ t.time.tb = s.time.tb) ∧
      (decodeCount f a' b' = none → Gives (.feedbackCount c a b n) s fun t => t.fbk[c].pos = f.pos ∧ t.fbk[c].a = a' ∧
        t.fbk[c].b = b' ∧ t.fbk[c].illegal = wrapAdd 32 f.illegal 1 ∧ t.cfg = s.cfg ∧ t.win = s.win ∧ t.bar = s.bar ∧ t.time.tb = s.time.tb) ∧
      (decodeCount f a' b' = some 0 → exec (.feedbackCount c a b n) s = .next { s with fbk := s.fbk.set c { g with a := a', b := b' } })) ∧
    (∀ i j d1 d2 h, feedbackOn s = true → x = some i → y = some j → i ≠ j →
      h = (if i < j then { f with a := a } else { f with b := b }) → decodeCount f h.a h.b = some d1 → decodeCount h a b = some d2 →
      Gives (.feedbackCount c a b n) s fun t =>
        t.fbk[c].pos = f.pos + BitVec.ofInt 48 (if f.inverted then -d1 else d1) + BitVec.ofInt 48 (if f.inverted then -d2 else d2) ∧
        t.fbk[c].a = a ∧ t.fbk[c].b = b ∧ t.fbk[c].illegal = f.illegal ∧ t.cfg = s.cfg ∧ t.win = s.win ∧ t.bar = s.bar ∧ t.time.tb = s.time.tb) ∧
    (∀ i j h, x = some i → y = some j → i ≠ j → h = (if i < j then { f with a := a } else { f with b := b }) →
      (decodeCount f h.a h.b).isSome = true ∧ (decodeCount h a b).isSome = true)) ∧
  (∀ (s : State) (c : Fin 8), feedbackOn s = false ∨ s.fbk[c].mode ≠ 6 → exec (.hallEvaluate c) s = .next s) ∧
  (∀ (s : State) (c : Fin 8), feedbackOn s = true → s.fbk[c].mode = 6 →
    (hallSector s.fbk[c].hall = none → s.fbk[c].badBefore = true → exec (.hallEvaluate c) s = .next s) ∧
    (hallSector s.fbk[c].hall = none → s.fbk[c].badBefore = false → Gives (.hallEvaluate c) s fun t => t.fbk[c].badBefore = true ∧
      t.fbk[c].pos = s.fbk[c].pos ∧ t.fbk[c].illegal = wrapAdd 32 s.fbk[c].illegal 1 ∧ t.cfg = s.cfg ∧ t.win = s.win ∧ t.time.tb = s.time.tb) ∧
    (∀ k, hallSector s.fbk[c].hall = some k →
      (s.fbk[c].sector = none ∨ (∃ o, s.fbk[c].sector = some o ∧ hallMove o k = some 0) →
        exec (.hallEvaluate c) s = .next { s with fbk := s.fbk.set c { s.fbk[c] with badBefore := false, sector := some k } }) ∧
      (∀ o, s.fbk[c].sector = some o → hallMove o k = none → Gives (.hallEvaluate c) s fun t => t.fbk[c].sector = some k ∧
        t.fbk[c].pos = s.fbk[c].pos ∧ t.fbk[c].illegal = wrapAdd 32 s.fbk[c].illegal 1 ∧ t.cfg = s.cfg ∧ t.win = s.win ∧ t.time.tb = s.time.tb) ∧
      (∀ o d, s.fbk[c].sector = some o → hallMove o k = some d → d ≠ 0 → Gives (.hallEvaluate c) s fun t =>
        t.fbk[c].pos = s.fbk[c].pos + BitVec.ofInt 48 (if s.fbk[c].inverted then -d else d) ∧ t.fbk[c].sector = some k ∧
        t.fbk[c].illegal = s.fbk[c].illegal ∧ t.cfg = s.cfg ∧ t.win = s.win ∧ t.time.tb = s.time.tb))) ∧
  (∀ (s : State) (c : Fin 8) (h : Bool) (n : Nat) (f g : Fbk), f = s.fbk[c] →
    g = { f with fc := f.fc.take h n, glitch := if feedbackOn s then wrapAdd 32 f.glitch (bitAt (f.fc.rejects f.c h n) 0) else f.glitch } →
    (f.fc.takesAt f.filter f.c h n = none → exec (.fbkCaptureEdge c h n) s = .next { s with fbk := s.fbk.set c g }) ∧
    (f.fc.takesAt f.filter f.c h n ≠ none →
      (feedbackOn s = false ∨ f.mode = 0 ∨ f.mode = 6 ∨ f.capt = none ∨ (∃ e, f.capt = some (h, e)) →
        exec (.fbkCaptureEdge c h n) s = .next { s with fbk := s.fbk.set c { g with c := h } }) ∧
      (∀ e, feedbackOn s = true → f.mode ≠ 0 → f.mode ≠ 6 → f.capt = some (!h, e) → Gives (.fbkCaptureEdge c h n) s fun t =>
        t.fbk[c].captPos = f.pos ∧ t.fbk[c].captSeq = (f.captSeq + 1) % 2 ^ 32 ∧ t.fbk[c].pos = f.pos ∧ t.fbk[c].c = h ∧
        t.cfg = s.cfg ∧ t.win = s.win ∧ t.bar = s.bar ∧ t.time.tb = s.time.tb))) ∧
  (∀ (s : State) (c : Fin 8), feedbackOn s = true → s.fbk[c].mode ≠ 0 → s.fbk[c].winAt + s.fbk[c].window ≤ s.clock → Gives (.speedWindowEnd c) s fun t =>
    t.fbk[c].winAt = s.fbk[c].winAt + 8000 * pnat s.fbk[c].params 4 0 100 ∧ t.fbk[c].report.net = s.fbk[c].net ∧ t.fbk[c].report.counts = s.fbk[c].counts ∧ t.fbk[c].report.illWin = s.fbk[c].illWin ∧
    t.fbk[c].report.seq = s.fbk[c].winSeq ∧ t.fbk[c].report.standstill = (s.fbk[c].counts == 0) ∧
    t.fbk[c].report.settling = (s.fbk[c].counts != 0 && (s.fbk[c].firstHere || (s.fbk[c].reported && s.fbk[c].report.standstill))) ∧
    t.fbk[c].report.reversed = s.fbk[c].hadReversal ∧ t.fbk[c].net = 0 ∧ t.fbk[c].counts = 0 ∧
    t.fbk[c].illWin = 0 ∧ t.fbk[c].winSeq = (s.fbk[c].winSeq + 1) % 2 ^ 32 ∧ t = { s with fbk := s.fbk.set c t.fbk[c] }) ∧
  (∀ (s : State) (c : Fin 8), feedbackOn s = false ∨ s.fbk[c].mode = 0 ∨ s.clock < s.fbk[c].winAt + s.fbk[c].window → exec (.speedWindowEnd c) s = .next s) ∧
  (∀ (s : State) (i : Fin 2), s.fbo[i].enabled = true → s.fbo[i].backlog ≠ 0 →
    s.fbo[i].stepAt = 0 ∨ s.fbo[i].stepAt + 4 * s.fbo[i].spacing ≤ s.clock →
    exec (.fboStep i) s = .next { s with fbo := s.fbo.set i (s.fbo[i].step s.clock) } ∧
    (s.fbo[i].step s.clock).backlog.natAbs + 1 = s.fbo[i].backlog.natAbs) ∧
  (∀ (s : State) (i : Fin 2), (s.fbo[i].enabled = false ∨ s.fbo[i].backlog = 0 ∨
      (s.fbo[i].stepAt ≠ 0 ∧ s.clock < s.fbo[i].stepAt + 4 * s.fbo[i].spacing)) → exec (.fboStep i) s = .next s)

/-- O34. With its list accepted and the channel unclaimed, fbk.config sets the channel's parameters and restarts it; fbk.set gives it the position named
and takes REFERENCED from the axes measured by it; fbk.capture arms or disarms its capture, unless the pacing of the job or pass captures on it; fbk.read
answers the snapshot of Table 18.10 with TB and changes nothing. fbk.out with an accepted list enables its output from PHASE with no backlog, or disables it,
or sets a disabled one; with an enabled output anything but ENABLE = 0 is BAD_STATE. A channel or output number, a position, a mode or a list that does
not fit is BAD_ARG, and after that a claimed channel is BAD_STATE. (That the host's ENABLE takes the output over from the audit is the model's, assumption log 32.)
(R264, R265, R273, R274, R281, R282, R283, R289, R365, Table 9.6, Table 18.10, assumption log 32) -/
def Obligations.FeedbackCommandsSetChannels : Prop :=
  (∀ (s : State) (c : Command), (8 ≤ uAt c.payload 0 1 → (Doing s 0x0902 c → Answers .fbkSet s c { status := .badArg } s) ∧
      (Doing s 0x0903 c → Answers .fbkCapture s c { status := .badArg } s) ∧ (Doing s 0x0904 c → Answers .fbkRead s c { status := .badArg } s)) ∧
    (8 ≤ listTarget c.payload 0 → Doing s 0x0901 c → Answers .fbkConfig s c { status := .badArg } s) ∧
    (2 ≤ listTarget c.payload 0 → Doing s 0x0905 c → Answers .fbkOut s c { status := .badArg } s)) ∧
  (∀ (s : State) (c : Command) (n : Fin 8), Doing s 0x0901 c → listTarget c.payload 0 = n.val →
    (∀ m, judgeList fbkSpecs noRelation s.fbk[n].params (listItems c.payload 0) = .ok m →
      (channelClaimed s n.val = true → Answers .fbkConfig s c { status := .badState } s) ∧
      (channelClaimed s n.val = false →
        Answers .fbkConfig s c { status := .ok } { s with fbk := s.fbk.set n (Fbk.restart s.clock { s.fbk[n] with params := m }) })) ∧
    (∀ d, judgeList fbkSpecs noRelation s.fbk[n].params (listItems c.payload 0) = .error d →
      Answers .fbkConfig s c { status := .badArg, detail := d } s)) ∧
  (∀ (s : State) (c : Command) (n : Fin 8), Doing s 0x0902 c → uAt c.payload 0 1 = n.val →
    (channelClaimed s n.val = true → -(2 ^ 47) ≤ iAt c.payload 8 8 → iAt c.payload 8 8 < 2 ^ 47 → Answers .fbkSet s c { status := .badState } s) ∧
    (iAt c.payload 8 8 < -(2 ^ 47) ∨ 2 ^ 47 ≤ iAt c.payload 8 8 → Answers .fbkSet s c { status := .badArg, detail := 8 } s) ∧
    (channelClaimed s n.val = false → -(2 ^ 47) ≤ iAt c.payload 8 8 → iAt c.payload 8 8 < 2 ^ 47 → Does .fbkSet s c { status := .ok } fun u =>
      u = { s with fbk := s.fbk.set n { s.fbk[n] with pos := BitVec.ofInt 48 (iAt c.payload 8 8) }, axes := u.axes } ∧
      ∀ a : Fin 8, u.axes[a] = (if pnat (axisCfg s a.val) 3 0 0 = 1 ∧ pnat (axisCfg s a.val) 4 0 0 = n.val then
        { s.axes[a] with referenced := false } else s.axes[a]))) ∧
  (∀ (s : State) (c : Command) (n : Fin 8) (paces : Prop), Doing s 0x0903 c → uAt c.payload 0 1 = n.val →
    paces = ((s.job.isOpen = true ∧ pnat s.job.params 1 0 0 = n.val ∧ pnat s.job.params 7 0 0 = 2) ∨
      ∃ q, s.audit.pass = some q ∧ pnat q.params 1 0 0 = n.val ∧ pnat q.params 7 0 0 = 2) →
    (1 < uAt c.payload 1 1 → Answers .fbkCapture s c { status := .badArg, detail := 1 } s) ∧
    (uAt c.payload 1 1 ≤ 1 → 2 < uAt c.payload 2 1 → Answers .fbkCapture s c { status := .badArg, detail := 2 } s) ∧
    (uAt c.payload 1 1 ≤ 1 → uAt c.payload 2 1 ≤ 2 →
      (s.fbk[n].mode = 0 ∨ s.fbk[n].mode = 6 → Answers .fbkCapture s c { status := .badArg } s) ∧
      (s.fbk[n].mode ≠ 0 → s.fbk[n].mode ≠ 6 → paces → Answers .fbkCapture s c { status := .badState } s) ∧
      (s.fbk[n].mode ≠ 0 → s.fbk[n].mode ≠ 6 → ¬paces →
        Answers .fbkCapture s c { status := .ok } { s with fbk := s.fbk.set n { s.fbk[n] with
          capt := if uAt c.payload 2 1 = 2 then none else some (uAt c.payload 1 1 == 1, uAt c.payload 2 1 == 1) } }))) ∧
  (∀ (s : State) (c : Command) (n : Fin 8), Doing s 0x0904 c → uAt c.payload 0 1 = n.val →
    Answers .fbkRead s c { status := .ok, payload := snapshot s.fbk[n] s.time.tb } s) ∧
  (∀ (s : State) (c : Command) (i : Fin 2) (off : Prop) (r : Except Nat ParamSet), Doing s 0x0905 c → listTarget c.payload 0 = i.val →
    off = (∃ n, listItems c.payload 0 = [⟨1, n, 0⟩]) →
    (off → r = judgeList fboSpecs noRelation s.fbo[i].params (listItems c.payload 0)) →
    (¬off → r = judgeList fboSpecs (fboRelation s (listItems c.payload 0)) s.fbo[i].params (listItems c.payload 0)) →
    (∀ d, r = .error d → Answers .fbkOut s c { status := .badArg, detail := d } s) ∧
    (∀ m, r = .ok m →
      (s.fbo[i].enabled = true → ¬off → Answers .fbkOut s c { status := .badState } s) ∧
      (s.fbo[i].enabled = false → pon m 1 0 false = true → Answers .fbkOut s c { status := .ok } { s with fbo := s.fbo.set i { s.fbo[i] with
        params := m, byAudit := false, acc := pnat m 5 0 0, o := 0, backlog := 0, a := false, b := false, stepAt := 0, lost := 0 } }) ∧
      (s.fbo[i].enabled = false → pon m 1 0 false = false → Answers .fbkOut s c { status := .ok } { s with fbo := s.fbo.set i { s.fbo[i] with
        params := m } }) ∧
      (s.fbo[i].enabled = true → off → Answers .fbkOut s c { status := .ok } { s with fbo := s.fbo.set i { s.fbo[i] with
        params := m, byAudit := false, a := false, b := false, backlog := 0, disabledAt := s.clock } })))

/-- O35. audit.start without a camera lane up, or with its output enabled by the host, is BAD_STATE; with a list that is refused BAD_ARG, of memory
not initialised UNINIT, without capacity OVER_CAPACITY, with an axis that is not referenced NOT_REFERENCED; else it numbers the pass, holds its
parameters, reserves its trigger output and, where no fault arises, paces by them in AUDIT. audit.stop starts a discard, and like the end of TIMEOUT
after the last token of an uncompressed pass, or of 100 ms without a compressor, leaves no pass and the mode IDLE; where a fault has left AUDIT
without its pass, audit.stop is OK and only gives way to IDLE; a compressed pass holds its result after TIMEOUT until a compressor has made its body.
The trigger output of a pass, or of a started job, is enabled from its line pitch once it has been off for 100 microseconds. Before its time a row
changes nothing. (R313, R325, R326, R327, R330, Table 11.4) -/
def Obligations.AuditPassesStartAndEnd : Prop :=
  (∀ (s : State) (c : Command), Doing s 0x0C02 c → s.audit.laneUp = 0 → Answers .auditStart s c { status := .badState } s) ∧
  (∀ (s : State) (c : Command), Doing s 0x0C02 c → s.audit.laneUp ≠ 0 →
    (listTarget c.payload 0 ≠ 0 → Answers .auditStart s c { status := .badArg } s) ∧
    (∀ d, listTarget c.payload 0 = 0 → judgeAudit s (listItems c.payload 0) = .error d → Answers .auditStart s c { status := .badArg, detail := d } s) ∧
    (∀ (m : ParamSet) (a : Nat), listTarget c.payload 0 = 0 → judgeAudit s (listItems c.payload 0) = .ok m → a = pnat m 30 0 255 →
      ((nthOr s.fbo (pnat m 14 0 0) {}).enabled = true → (nthOr s.fbo (pnat m 14 0 0) {}).byAudit = false → Answers .auditStart s c { status := .badState } s) ∧
      ((nthOr s.fbo (pnat m 14 0 0) {}).enabled = false ∨ (nthOr s.fbo (pnat m 14 0 0) {}).byAudit = true →
        (auditUninit s m = true → Answers .auditStart s c { status := .uninit } s) ∧
        (auditUninit s m = false →
          (∀ d, auditCapacity s m = some d → Answers .auditStart s c { status := .overCapacity, detail := d } s) ∧
          (auditCapacity s m = none →
            (a < 8 → (nthOr s.axes a {}).referenced = false → Answers .auditStart s c { status := .notReferenced, detail := a } s) ∧
            ((a < 8 → (nthOr s.axes a {}).referenced = true) → Does .auditStart s c { status := .ok } fun u =>
              u.audit.pass = some { params := m } ∧ u.audit.passNo = s.audit.passNo + 1 ∧
              (pnat m 14 0 0 < 2 → (nthOr u.fbo (pnat m 14 0 0) {}).byAudit = true) ∧ u.audit.crc = 0 ∧ u.audit.lost = 0 ∧ u.audit.accepted = 0 ∧
              (latchedAt u chipInst = none → u.sys.mode = .audit) ∧ (u.faults = s.faults → u.pace.params = m ∧ u.pace.source = .channel) ∧
              u.cfg = s.cfg ∧ u.job = s.job ∧ u.win = s.win ∧ u.bar = s.bar ∧ u.eth = s.eth ∧ u.fawn = s.fawn ∧ u.time.tb = s.time.tb)))))) ∧
  (∀ (s : State) (c : Command), Doing s 0x0C03 c → s.audit.pass = none →
    Does .auditStop s c { status := .ok } fun u => u.sys.mode = .idle ∧ u.audit = s.audit ∧ u.faults = s.faults ∧
      u.cfg = s.cfg ∧ u.job = s.job ∧ u.time = s.time) ∧
  (∀ (s : State) (c : Command) (a : AuditPass), Doing s 0x0C03 c → s.audit.pass = some a → Does .auditStop s c { status := .ok } fun u =>
    u.audit.pass = none ∧ u.sys.mode = .idle ∧
      u.faults.discard.isSome = true ∧ u.audit.passNo = s.audit.passNo ∧ u.cfg = s.cfg ∧ u.job = s.job ∧ u.win = s.win ∧ u.bar = s.bar ∧
      u.twin = s.twin ∧ u.time.tb = s.time.tb) ∧
  (∀ (s : State) (a : AuditPass) (t : Nat), s.sys.mode = .audit → s.audit.pass = some a → a.result = none → a.lastToken = some t →
    t + pnat a.params 29 0 1000 * 800000 ≤ s.clock → s.sys.resetPending = false →
    (auditCompress a.params = false → Gives .auditTimeout s fun u => u.audit.pass = none ∧ u.sys.mode = .idle ∧ u.cfg = s.cfg ∧ u.job = s.job ∧
      u.faults = s.faults ∧ u.time = s.time ∧ u.twin = s.twin) ∧
    (auditCompress a.params = true → Gives .auditTimeout s fun u => (∃ r w, u.audit.pass = some { a with result := some r, waiting := w }) ∧
      u.sys.mode = .audit ∧ u.cfg = s.cfg ∧ u.job = s.job ∧ u.faults = s.faults ∧ u.time = s.time ∧ u.twin = s.twin)) ∧
  (∀ s : State, (∀ a t, s.audit.pass = some a → a.lastToken = some t → s.sys.mode ≠ .audit ∨ a.result ≠ none ∨
    s.clock < t + pnat a.params 29 0 1000 * 800000) → exec .auditTimeout s = .next s) ∧
  (∀ (s : State) (a : AuditPass) (r : AuditResult) (t : Nat), s.sys.mode = .audit → s.audit.pass = some a → a.result = some r →
    a.waiting = some t → t + 80000000 ≤ s.clock → s.sys.resetPending = false → Gives .auditCompressTimeout s fun u =>
      u.audit.pass = none ∧ u.sys.mode = .idle ∧ u.cfg = s.cfg ∧ u.job = s.job ∧ u.faults = s.faults ∧ u.time = s.time ∧ u.twin = s.twin) ∧
  (∀ s : State, (∀ a t, s.audit.pass = some a → a.waiting = some t → s.sys.mode ≠ .audit ∨ a.result = none ∨ s.clock < t + 80000000) →
    exec .auditCompressTimeout s = .next s) ∧
  (∀ (s : State) (i : Fin 2) (due : Prop),
    due = ((s.sys.mode = .audit → passRuns s = true) ∧ (s.sys.mode ≠ .audit → s.job.started = true) ∧ triggerOutput s = some i.val ∧
      s.fbo[i].byAudit = true ∧ s.fbo[i].enabled = false ∧ (s.fbo[i].disabledAt = 0 ∨ s.fbo[i].disabledAt + 80000 ≤ s.clock)) →
    (due → Gives (.triggerOutputEnable i) s fun t =>
      t.fbo[i].params = triggerParams (pacePars s) ∧ t.fbo[i].o = 0 ∧ t.fbo[i].backlog = 0 ∧ t.fbo[i].acc = 0 ∧
      t = { s with fbo := s.fbo.set i t.fbo[i], audit := { s.audit with trigLast := 0 } }) ∧
    (¬due → exec (.triggerOutputEnable i) s = .next s))

/-- O36. audit.config with an accepted list takes it at once, and where it names RATE or WIDTH it takes every lane down and begins bring-up; a list
that is refused is BAD_ARG. CAMERA_LANE_UP adds a lane that has passed its verification, its peaking frozen, CAMERA_LINK_LOST of a lane that is up, or
of four mismatches in the window, takes all lanes down and notes the time, and of a lane in bring-up makes it lock anew; CAMERA_RESTART lets bring-up
run again 1 ms later. While a pass or an inspection runs on a lane that is up, a frame with a wrong check value, framing or format, or one not newer
than the last accepted, is counted by that cause; an accepted one is counted, its gap added to the lost frames, and its trigger count kept; a word of
the audit store that cannot be used latches AUD_ECC and ends the pass. A closed window, or one whose last line was committed 1 s ago, leaves the list
and is judged. Where a row does not fit, nothing changes. (R309, R312, R314, R316, R331, R332, R333, Table 11.2, Table 11.3) -/
def Obligations.CameraLinkAndFrames : Prop :=
  (∀ (s : State) (c : Command), Doing s 0x0C01 c →
    (listTarget c.payload 0 ≠ 0 → Answers .auditConfig s c { status := .badArg } s) ∧
    (∀ d, listTarget c.payload 0 = 0 →
      judgeList auditConfigSpecs auditConfigRelation s.audit.params (spoil auditConfigBad (listItems c.payload 0)) = .error d →
      Answers .auditConfig s c { status := .badArg, detail := d } s) ∧
    (∀ m, listTarget c.payload 0 = 0 →
      judgeList auditConfigSpecs auditConfigRelation s.audit.params (spoil auditConfigBad (listItems c.payload 0)) = .ok m →
      ((∀ i ∈ listItems c.payload 0, i.id ≠ 1 ∧ i.id ≠ 2) →
        Answers .auditConfig s c { status := .ok } { s with audit := { s.audit with params := m } }) ∧
      ((∃ i ∈ listItems c.payload 0, i.id = 1 ∨ i.id = 2) → Does .auditConfig s c { status := .ok } fun u =>
        EventsOnly { s with audit := clearedCamera { s.audit with params := m, configured := true, lostAt := none } } u))) ∧
  (∀ (s : State) (n : Fin 2), cameraPassed n.val s = true → bitOf s.audit.laneUp n.val = false → Gives (.cameraLaneUp n) s fun t =>
      EventsOnly { s with audit := { s.audit with
        laneUp := s.audit.laneUp + 2 ^ n.val, lanes := s.audit.lanes.set n { s.audit.lanes[n] with intervalErr := 0, peaking := t.audit.lanes[n].peaking, dfe := true } }
                          free := s.free + 1, life := t.life } t) ∧
  (∀ (s : State) (n : Fin 2), cameraPassed n.val s = false ∨ bitOf s.audit.laneUp n.val = true → exec (.cameraLaneUp n) s = .next s) ∧
  (∀ (s : State) (lock : Option (Fin 2)), auditPresent s = true →
    ((∃ i, lock = some i ∧ bitOf s.audit.laneUp i.val = true) ∨ (lock = none ∧ cameraErrors s = true) → Gives (.cameraLinkLost lock) s fun t =>
      EventsOnly { s with audit := clearedCamera { s.audit with lostAt := some s.clock }, life := t.life } t) ∧
    (∀ i, lock = some i → bitOf s.audit.laneUp i.val = false → exec (.cameraLinkLost lock) s = .next { s with audit := { s.audit with
      lanes := s.audit.lanes.set i { s.audit.lanes[i] with lock := false, train2 := 0, aligns := 0, alignSeen := false } } }) ∧
    (lock = none → cameraErrors s = false → exec (.cameraLinkLost lock) s = .next s)) ∧
  (∀ (s : State) (lock : Option (Fin 2)), auditPresent s = false → exec (.cameraLinkLost lock) s = .next s) ∧
  (∀ (s : State) (t : Nat), s.audit.lostAt = some t → (t + 800000 ≤ s.clock →
    exec .cameraRestart s = .next { s with audit := { s.audit with lostAt := none } }) ∧ (s.clock < t + 800000 → exec .cameraRestart s = .next s)) ∧
  (∀ s : State, s.audit.lostAt = none → exec .cameraRestart s = .next s) ∧
  (∀ (s v : State) (f : List Byte) (err : Option AuditErr) (takes bad : Prop) (r : Bool × State),
    takes = (auditPresent s = true ∧ s.audit.laneUp ≠ 0 ∧ s.audit.rxDiscard = false ∧ isStopped s auditSource = false ∧
      (passRuns s = true ∨ inspecting s = true)) →
    r = (match err with | some e => ownerFinds auditSource 6 (464 * 8192 + e.word.val) e.synd s | none => (false, s)) → bad = (r.1 = true) → v = r.2 →
    (¬takes → exec (.cameraFrame f err) s = .next s) ∧ (err = none → v = s) ∧
    (takes → bad → Gives (.cameraFrame f err) s fun t => t.audit.stopped = true ∧ t.audit.pass = none ∧ t.cfg = s.cfg ∧ t.job = s.job ∧ t.win = s.win ∧
      (latchedAt s (blockInst auditSource) = none → latchedAt t (blockInst auditSource) = some .audEcc)) ∧
    (takes → ¬bad →
      (checkFrame s f = .framing → Gives (.cameraFrame f err) s fun t => t.audit.framing = satAdd 32 s.audit.framing 1 ∧ t.audit.rxDiscard = true ∧
        t.audit.accepted = s.audit.accepted ∧ t.audit.trigLast = s.audit.trigLast ∧ t = { v with audit := t.audit, evr := t.evr }) ∧
      (checkFrame s f = .crc → Gives (.cameraFrame f err) s fun t => t.audit.crc = satAdd 32 s.audit.crc 1 ∧
        t.audit.accepted = s.audit.accepted ∧ t.audit.trigLast = s.audit.trigLast ∧ t = { v with audit := t.audit, evr := t.evr }) ∧
      (checkFrame s f = .format → Gives (.cameraFrame f err) s fun t => t.audit.format = satAdd 32 s.audit.format 1 ∧
        t.audit.accepted = s.audit.accepted ∧ t.audit.trigLast = s.audit.trigLast ∧ t = { v with audit := t.audit, evr := t.evr }) ∧
      (checkFrame s f = .dup → Gives (.cameraFrame f err) s fun t => t.audit.dup = satAdd 32 s.audit.dup 1 ∧
        t.audit.accepted = s.audit.accepted ∧ t.audit.trigLast = s.audit.trigLast ∧ t = { v with audit := t.audit, evr := t.evr }) ∧
      (∀ g, checkFrame s f = .accepted g → Gives (.cameraFrame f err) s fun t => t.audit.accepted = wrapAdd 32 s.audit.accepted 1 ∧
        t.audit.lost = satAdd 32 s.audit.lost (g - 1) ∧ t.audit.trigLast = BitVec.ofNat 32 (uAt f 4 4) ∧ t.cfg = s.cfg ∧ t.job = s.job ∧
        t.faults = s.faults ∧ t.win = s.win ∧ t.time = s.time ∧ t.twin = s.twin))) ∧
  (∀ (s : State) (w : InlineWin), s.audit.windows.find? (fun w => w.closed || w.lastCommit.any fun t => decide (t + 800000000 ≤ s.clock)) = some w →
    Gives .inlineWindowClose s fun t =>
      t.audit = { s.audit with
        windows := s.audit.windows.erase w, winDone := max s.audit.winDone (w.first + w.len)
        streaks := if s.audit.stopped then s.audit.streaks else ((portsOn s).map fun p => (headStreaks s w p).length).sum } ∧
      EventsOnly { s with audit := t.audit, free := t.free } t) ∧
  (∀ s : State, s.audit.windows.find? (fun w => w.closed || w.lastCommit.any fun t => decide (t + 800000000 ≤ s.clock)) = none →
    exec .inlineWindowClose s = .next s)

/-- O37. axis.config stages the parameters of an accepted list, and axis.limits does so in CONFIGURE. Elsewhere axis.limits is BAD_TARGET where the
move in progress would leave the new limits; it is in force at once at standstill and in FOLLOW, where a lower D or J fits the stop, or where neither
is lower; else it is ACCEL_DEFERRED, and D and J stay until standstill where they would fall. axis.move starts the move it names on an axis that is
not held or held by HOST alone, and keeps it on an axis held by more; a move outside the limits is BAD_TARGET, and an argument, mode or reference that
does not fit gives its own refusal. axis.stop with HOLD sets the HOST hold on each axis named, keeping its move, with ABORT it leaves no move, and in
HOME it ends the referencing. axis.resume takes the HOST hold off, and where no other is left starts the held move if it passes R343, once the axis
rests, else drops it. axis.home enters HOME with each named axis referencing by its method, the channel of a search set to capture and the move of an
axis that holds kept; where all are referenced where they stand, HOME ends at once. (R336, R338, R341, R342, R343, R346, R348, R349, R350, R363, Table
12.1, Table 12.2) -/
def Obligations.AxisCommandsSetAndMoveAxes : Prop :=
  (∀ (s : State) (c : Command), 8 ≤ listTarget c.payload 0 → (Doing s 0x0D01 c → Answers .axisConfig s c { status := .badArg } s) ∧
    (Doing s 0x0D02 c → Answers .axisLimits s c { status := .badArg } s)) ∧
  (∀ (s : State) (c : Command) (a : Fin 8), Doing s 0x0D01 c → listTarget c.payload 0 = a.val →
    (∀ d, judgeList (axisSpecs a.val) (axisRelation s a.val) s.cfg.staged.axes[a] (listItems c.payload 0) = .error d →
      Answers .axisConfig s c { status := .badArg, detail := d } s) ∧
    (∀ m, judgeList (axisSpecs a.val) (axisRelation s a.val) s.cfg.staged.axes[a] (listItems c.payload 0) = .ok m →
      Answers .axisConfig s c { status := .ok } { s with cfg := { s.cfg with staged := { s.cfg.staged with
        axes := s.cfg.staged.axes.set a m } } })) ∧
  (∀ (s : State) (c : Command) (a : Fin 8), Doing s 0x0D02 c → listTarget c.payload 0 = a.val → s.sys.mode = .configure →
    (∀ d, judgeList limitSpecs (limitRelation s.cfg.staged.axes[a] a.val) s.axes[a].staged.items (listItems c.payload 0) = .error d →
      Answers .axisLimits s c { status := .badArg, detail := d } s) ∧
    (∀ m, judgeList limitSpecs (limitRelation s.cfg.staged.axes[a] a.val) s.axes[a].staged.items (listItems c.payload 0) = .ok m →
      Answers .axisLimits s c { status := .ok } { s with axes := s.axes.set a { s.axes[a] with staged := limitsOf m } })) ∧
  (∀ (s : State) (c : Command) (a : Fin 8) (x : Axis) (now : Limits), Doing s 0x0D02 c → listTarget c.payload 0 = a.val → s.sys.mode ≠ .configure →
    x = s.axes[a] → (x.deferred = none → now = x.lim) → (∀ d j, x.deferred = some (d, j) → now = { x.lim with d := d, j := j }) →
    (∀ d, judgeList limitSpecs (limitRelation (axisCfg s a.val) a.val) now.items (listItems c.payload 0) = .error d →
      Answers .axisLimits s c { status := .badArg, detail := d } s) ∧
    (∀ (m : ParamSet) (l : Limits) (blocked atOnce : Prop),
      judgeList limitSpecs (limitRelation (axisCfg s a.val) a.val) now.items (listItems c.payload 0) = .ok m → l = limitsOf m →
      blocked = (x.standstill = false ∧ limitsOn s a.val = true ∧
        s.sys.mode ≠ .follow ∧ ∃ v, x.pending.or x.move = some v ∧ pathOk x { l with d := x.lim.d, j := x.lim.j } v = false) →
      atOnce = (x.standstill = true ∨ s.sys.mode = .follow ∨ lowerFits s a.val l = true ∨ (x.lim.d ≤ l.d ∧ x.lim.j ≤ l.j)) →
      (blocked → Answers .axisLimits s c { status := .badTarget } s) ∧
      (¬blocked → atOnce → Answers .axisLimits s c { status := .ok } { s with axes := s.axes.set a { x with staged := l, lim := l, deferred := none } }) ∧
      (¬blocked → ¬atOnce → Answers .axisLimits s c { status := .accelDeferred } { s with axes := s.axes.set a { x with
        staged := l, lim := { l with d := max l.d x.lim.d, j := max l.j x.lim.j }, deferred := some (l.d, l.j) } }))) ∧
  (∀ (s : State) (c : Command) (a mode speed : Nat) (value : Int) (x : Axis) (bad : List (Reply × Prop)), Doing s 0x0D03 c → a = uAt c.payload 0 1 →
    mode = uAt c.payload 1 1 → speed = uAt c.payload 4 4 → value = iAt c.payload 8 8 → x = nthOr s.axes a {} →
    bad = [({ status := .badArg }, 8 ≤ a), ({ status := .badArg, detail := 1 }, 2 < mode), ({ status := .badArg, detail := 4 }, x.lim.v < speed),
      ({ status := .badArg, detail := 8 }, value < -(2 ^ 47) ∨ 2 ^ 47 ≤ value ∨ (mode = 2 ∧ (x.lim.v : Int) < value.natAbs)),
      ({ status := .badState }, motionLegal s a = false)] →
    (∀ (k : Nat) (r : Reply) (e : Prop), bad[k]? = some (r, e) → e → (∀ j < k, ∀ y : Reply × Prop, bad[j]? = some y → ¬ y.2) →
      Answers .axisMove s c r s) ∧
    ((∀ y ∈ bad, ¬ y.2) →
      (∀ st d, namedMove s a mode speed value = .error (st, d) → Answers .axisMove s c { status := st, detail := d } s) ∧
      (∀ m, namedMove s a mode speed value = .ok m →
        (moveOk s a m = false → Answers .axisMove s c { status := .badTarget } s) ∧
        (moveOk s a m = true → x.holds = [] ∨ x.holds = [.host] → Answers .axisMove s c { status := .ok } { s with
          axes := updAt s.axes a fun _ => { x with holds := [], heldMove := none, stopping := false, pending := some m, standstill := false } }) ∧
        (moveOk s a m = true → x.holds ≠ [] → x.holds ≠ [.host] → Answers .axisMove s c { status := .ok } { s with
          axes := updAt s.axes a fun _ => { x with heldMove := some m } })))) ∧
  (∀ (s : State) (c : Command) (a kind : Nat) (legal : Nat → Prop), Doing s 0x0D04 c → a = uAt c.payload 0 1 → kind = uAt c.payload 1 1 →
    (∀ b, legal b ↔ motionLegal s b = true ∨ (s.sys.mode = .safestop ∧ axisOn s b = true ∧ kind = 1)) →
    (8 ≤ a → a ≠ 0xFF → Answers .axisStop s c { status := .badArg } s) ∧
    (a < 8 ∨ a = 0xFF → 1 < kind → Answers .axisStop s c { status := .badArg, detail := 1 } s) ∧
    (a < 8 ∨ a = 0xFF → kind ≤ 1 →
      (s.sys.mode = .home → Does .axisStop s c { status := .ok } fun u => u.sys.mode = .idle ∧
        (∀ b : Fin 8, (s.axes[b].homing = .search ∨ s.axes[b].homing = .park ∨ s.axes[b].homing = .drive → u.axes[b] = { s.axes[b] with
            move := none, pending := none, heldMove := none, homing := .none_, stopping := !(decide (s.axes[b].v = 0) && decide (s.axes[b].a = 0)) }) ∧
          (s.axes[b].homing = .none_ ∨ s.axes[b].homing = .done → u.axes[b] = s.axes[b])) ∧
        u.cfg = s.cfg ∧ u.job = s.job ∧ u.faults = s.faults ∧ u.win = s.win ∧ u.fbk = s.fbk ∧ u.mem = s.mem ∧ u.twin = s.twin ∧ u.time = s.time ∧
        u.drive = s.drive ∧ u.audit = s.audit ∧ u.eth = s.eth) ∧
      (s.sys.mode ≠ .home → a < 8 → ¬ legal a → Answers .axisStop s c { status := .badState } s) ∧
      (s.sys.mode ≠ .home → a = 0xFF → s.sys.mode ∉ [.idle, .maintain, .print, .hold] → ¬ (s.sys.mode = .safestop ∧ kind = 1) →
        Answers .axisStop s c { status := .badState } s) ∧
      (s.sys.mode ≠ .home → (a < 8 ∧ legal a) ∨ (a = 0xFF ∧ (s.sys.mode ∈ [.idle, .maintain, .print, .hold] ∨ (s.sys.mode = .safestop ∧ kind = 1))) →
        Does .axisStop s c { status := .ok } fun u => EventsOnly { s with axes := u.axes } u ∧
          ∀ (b : Fin 8) (x : Axis), x = s.axes[b] →
            ((a ≠ b.val ∧ a ≠ 0xFF) ∨ ¬ legal b.val → u.axes[b] = x) ∧
            (a = b.val ∨ a = 0xFF → legal b.val → kind = 0 → u.axes[b] =
              if HoldSrc.host ∈ x.holds then x
              else if x.holds = [] then { x with
                holds := [.host], heldMove := (x.pending.or x.move).or x.heldMove, move := none, pending := none, stopping := !x.standstill }
              else { x with holds := x.holds ++ [.host] }) ∧
            (a = b.val ∨ a = 0xFF → legal b.val → kind = 1 → u.axes[b] = { x with
              move := none, pending := none, heldMove := none, stopping := !(decide (x.v = 0) && decide (x.a = 0))
              endReason := if (x.move.isSome || x.pending.isSome || x.heldMove.isSome) && !(decide (x.v = 0) && decide (x.a = 0)) then 4
                else x.endReason })))) ∧
  (∀ (s : State) (c : Command), Doing s 0x0D05 c → 8 ≤ uAt c.payload 0 1 → Answers .axisResume s c { status := .badArg } s) ∧
  (∀ (s : State) (c : Command) (a : Fin 8) (x : Axis) (left : List HoldSrc), Doing s 0x0D05 c → uAt c.payload 0 1 = a.val → x = s.axes[a] →
    left = x.holds.filter (· ≠ .host) →
    (motionLegal s a.val = false → Answers .axisResume s c { status := .badState } s) ∧
    (motionLegal s a.val = true →
      (HoldSrc.host ∉ x.holds → Answers .axisResume s c { status := .ok } s) ∧
      (HoldSrc.host ∈ x.holds → left ≠ [] ∨ x.heldMove = none →
        Answers .axisResume s c { status := .ok } { s with axes := s.axes.set a { x with holds := left } }) ∧
      (∀ m, HoldSrc.host ∈ x.holds → left = [] → x.heldMove = some m → moveOk s a.val m = true →
        (x.stopping = false → Answers .axisResume s c { status := .ok } { s with
          axes := s.axes.set a { x with holds := [], heldMove := none, pending := some m, standstill := false } }) ∧
        (x.stopping = true → Answers .axisResume s c { status := .ok } { s with axes := s.axes.set a { x with holds := [] } })) ∧
      (∀ m, HoldSrc.host ∈ x.holds → left = [] → x.heldMove = some m → moveOk s a.val m = false → Does .axisResume s c { status := .ok } fun u =>
        EventsOnly { s with axes := s.axes.set a { x with holds := [], heldMove := none } } u))) ∧
  (∀ (s : State) (c : Command) (named : Fin 8 → Bool) (method : Fin 8 → Nat), Doing s 0x0D06 c →
    (∀ a : Fin 8, named a = bitOf (uAt c.payload 0 1) a.val ∧ method a = pnat (axisCfg s a.val) 17 0 0) →
    (uAt c.payload 0 1 = 0 ∨ (∃ a, named a = true ∧ homeable s a.val = false) → Answers .axisHome s c { status := .badArg } s) ∧
    (∀ (a : Fin 8) (d : Nat), (∀ b, named b = true → homeable s b.val = true) → named a = true → method a = 1 →
      missingParam [20, 21] (axisCfg s a.val) = some d →
      (∀ b < a, named b = true → method b = 1 → missingParam [20, 21] (axisCfg s b.val) = none) → Answers .axisHome s c { status := .badArg, detail := d } s) ∧
    (uAt c.payload 0 1 ≠ 0 → (∀ a, named a = true → homeable s a.val = true ∧ (method a = 1 → missingParam [20, 21] (axisCfg s a.val) = none)) →
      Does .axisHome s c { status := .ok } fun u =>
        ((∃ a, named a = true ∧ (method a = 1 ∨ method a = 2)) → u.sys.mode = .home) ∧
        ((∀ a, named a = true → method a ≠ 1 ∧ method a ≠ 2) → u.sys.mode = .idle) ∧
        (∀ (a : Fin 8) (x : Axis) (far : Int), x = s.axes[a] →
          far = (if pon (axisCfg s a.val) 18 0 false then -(pnat (axisCfg s a.val) 21 0 1 : Int) else pnat (axisCfg s a.val) 21 0 1) →
          ∀ m : Move, m = .target (max (-(2 ^ 47)) (min (2 ^ 47 - 1) (x.p / 2 ^ 32 + far)) + x.refOffset) (pnat (axisCfg s a.val) 20 0 1) →
          (named a = false → u.axes[a] = { x with homing := .none_ }) ∧
          (named a = true → method a = 1 →
            (x.holds = [] → u.axes[a] = { x with
              homing := .search, referenced := false, homeAt := s.clock, standstill := false, pending := some m }) ∧
            (x.holds ≠ [] → u.axes[a] = { x with homing := .search, referenced := false, homeAt := s.clock, heldMove := some m }) ∧
            ∀ k : Fin 8, pnat (axisCfg s a.val) 4 0 0 = k.val → ∃ edge, u.fbk[k] = { s.fbk[k] with capt := some (edge, false) }) ∧
          (named a = true → method a = 2 → u.axes[a] = { x with homing := .drive, referenced := false, homeAt := s.clock, standstill := false }) ∧
          (named a = true → method a ≠ 1 → method a ≠ 2 → u.axes[a] = { x with
            homing := if u.sys.mode = .home then .done else .none_, referenced := true, homeAt := s.clock
            refOffset := wrapTo 48 (pget (axisCfg s a.val) 22 0 0 - x.p / 2 ^ 32) })) ∧
        u.cfg = s.cfg ∧ u.job = s.job ∧ u.faults = s.faults ∧ u.win = s.win ∧ u.mem = s.mem ∧ u.twin = s.twin ∧ u.time = s.time ∧ u.audit = s.audit ∧
        u.eth = s.eth))

/-- O38. Where outputs are on and the boundary is due: AX6 and AX7 each take the position, velocity and acceleration chosen within R339, and a drive
link whose frames go out, started where it does not run yet, takes its three axes through their periods, counts the cycle and sends one set-point
frame of what they then hold, the positions of an axis whose drive references it being its drive's. A choice outside R339, or a boundary that is not
due, changes nothing. A valid reply gives the axis its actual position and ends its run of missed replies, and may reference it or report the drive's
fault; an invalid reply, or none, counts one missed, and the set number in a row of a configured axis latches DRIVE_SILENT. HOME_TIMEOUT of an axis
referencing by its drive for longer than its time latches HOME_FAIL in the Motion region. MICROSTEP_UPDATE drives index and current of a configured
axis and disables the outputs elsewhere; CURRENT_REDUCTION reduces the current of an axis that has stood still for its delay. (R339, R353, R354, R356,
R357, R358, R360, R361, R362, R364, Table 12.5, Table 14.4) -/
def Obligations.ServoPeriodsAndDriveReplies : Prop :=
  (∀ (s : State) (u : Fin 4) (n0 n1 n2 : ServoNext), outputsOn s = false ∨ boundaryDue s ([0, 3, 6, 7].getD u.val 0) = false →
    exec (.servoPeriod u n0 n1 n2) s = .next s) ∧
  (∀ (s : State) (u : Fin 4) (a : Fin 8) (n0 n1 n2 : ServoNext), 2 ≤ u.val → a.val = u.val + 4 → outputsOn s = true → boundaryDue s a.val = true →
    (mayChoose s a.val n0 = false ∨ axisOn s a.val = false → exec (.servoPeriod u n0 n1 n2) s = .next s) ∧
    (mayChoose s a.val n0 = true → axisOn s a.val = true → Gives (.servoPeriod u n0 n1 n2) s fun t =>
      (homingOf s a.val ≠ .drive ∨ t.sys.mode ≠ .home → t.axes[a].p = wrapTo 80 n0.p ∧ t.axes[a].v = n0.v ∧ t.axes[a].a = n0.a) ∧
      (homingOf s a.val = .drive → t.sys.mode = .home → t.axes[a].p = s.axes[a].actPos * 2 ^ 32 ∧ t.axes[a].v = 0 ∧ t.axes[a].a = 0) ∧
      t.axes[a].p0 = s.axes[a].p ∧ t.axes[a].boundaryAt = s.clock ∧ (∀ b : Fin 8, b ≠ a → t.axes[b].p = s.axes[b].p) ∧ t.cfg = s.cfg ∧ t.job = s.job ∧
      t.win = s.win ∧ t.audit = s.audit ∧ t.eth = s.eth)) ∧
  (∀ (s w : State) (u : Fin 4) (n0 n1 n2 : ServoNext) (dl : Fin 2), u.val = dl.val → w = linkBoundary dl s →
    framesOn s = false ∨ isStopped s (0x50 + dl.val) = true ∨
      mayChoose w (3 * dl.val) n0 = false ∨ mayChoose w (3 * dl.val + 1) n1 = false ∨ mayChoose w (3 * dl.val + 2) n2 = false →
    exec (.servoPeriod u n0 n1 n2) s = .next s) ∧
  (∀ (s w : State) (u : Fin 4) (n0 n1 n2 : ServoNext) (dl : Fin 2) (st : Nat), u.val = dl.val → framesOn s = true → boundaryDue s (3 * dl.val) = true →
    isStopped s (0x50 + dl.val) = false → w = linkBoundary dl s →
    mayChoose w (3 * dl.val) n0 = true → mayChoose w (3 * dl.val + 1) n1 = true → mayChoose w (3 * dl.val + 2) n2 = true →
    st = (if s.drive[dl].running then s.drive[dl].startup else if s.drive[dl].skipStartup then 9 else 0) →
    Gives (.servoPeriod u n0 n1 n2) s fun t =>
      t.drive[dl] = { s.drive[dl] with
        cycle := s.drive[dl].cycle + 1, running := true, startup := if st < 8 then st + 1 else if st = 8 then 9 else st
        skipStartup := s.drive[dl].running && s.drive[dl].skipStartup } ∧
      (∃ f rest, t.sent = ⟨.drive dl, f⟩ :: rest ∧ f.take 2 = [0xA7, 0x01] ∧ f.length = 47 ∧
        f = setPointFrame { t with drive := t.drive.set dl { t.drive[dl] with
          cycle := s.drive[dl].cycle, startup := if st = 8 then 9 else st } } dl.val) ∧
      (∀ (k : Fin 3) (a : Fin 8) (n : ServoNext), a.val = 3 * dl.val + k.val → n = [n0, n1, n2][k] → axisOn s a.val = true →
        (homingOf s a.val ≠ .drive → t.axes[a].p = wrapTo 80 n.p ∧ t.axes[a].v = n.v ∧ t.axes[a].a = n.a) ∧
        (homingOf s a.val = .drive → t.sys.mode = .home → t.axes[a].p = s.axes[a].actPos * 2 ^ 32 ∧ t.axes[a].v = 0 ∧ t.axes[a].a = 0) ∧
        t.axes[a].boundaryAt = s.clock) ∧
      t.cfg = s.cfg ∧ t.job = s.job ∧ t.win = s.win ∧ t.audit = s.audit ∧ t.eth = s.eth) ∧
  (∀ (s : State) (dl : Fin 2) (k : Fin 3) (rx : List Bool), s.drive[dl].running = false ∨ framesOn s = false →
    exec (.driveReply dl k rx) s = .next s ∧ exec (.driveReplyMissed dl k) s = .next s) ∧
  (∀ (s : State) (dl : Fin 2) (k : Fin 3) (rx : List Bool) (f : List Byte) (a : Fin 8), a.val = 3 * dl.val + k.val → f = windowBytes rx →
    s.drive[dl].running = true → framesOn s = true → replyOk s dl k.val f = true → Gives (.driveReply dl k rx) s fun t =>
      t.axes[a].actPos = iAt f 5 6 ∧ t.axes[a].gotReply = true ∧ t.axes[a].missRun = 0 ∧ t.axes[a].driveStatus = uAt f 4 1 ∧
      t.axes[a].warning = bitOf (uAt f 4 1) 3 ∧ t.axes[a].missed = s.axes[a].missed ∧
      (axisOn s a.val = false → t = { s with axes := s.axes.set a { s.axes[a] with
        actPos := iAt f 5 6, gotReply := true, missRun := 0, driveStatus := uAt f 4 1, warning := bitOf (uAt f 4 1) 3 } }) ∧
      (axisOn s a.val = true → homingOf s a.val = .drive → bitOf (uAt f 4 1) 4 = true → bitOf s.axes[a].driveStatus 4 = false →
        bitOf (uAt f 4 1) 2 = false → t.axes[a].referenced = true ∧ t.axes[a].refOffset = wrapTo 48 (pget (axisCfg s a.val) 22 0 0) ∧
          t.axes[a].p = iAt f 5 6 * 2 ^ 32 ∧ t.axes[a].homing = .done) ∧
      (axisOn s a.val = true → bitOf (uAt f 4 1) 2 = true → latchedAt s (blockInst (0x48 + a.val)) = none →
        latchedAt t (blockInst (0x48 + a.val)) ≠ none ∧
        (pnat (axisCfg s a.val) 3 0 0 ≠ 2 → latchedAt t (blockInst (0x48 + a.val)) = some .axisDrive)) ∧
      (axisOn s a.val = true → pnat (axisCfg s a.val) 3 0 0 = 2 → bitOf (uAt f 4 1) 2 = true → t.axes[a].referenced = false) ∧
      t.cfg = s.cfg ∧ t.job = s.job ∧ t.win = s.win ∧ t.audit = s.audit ∧ t.eth = s.eth) ∧
  (∀ (s : State) (dl : Fin 2) (k : Fin 3) (row : Instr) (a : Fin 8), a.val = 3 * dl.val + k.val → s.drive[dl].running = true → framesOn s = true → ∀ run : Nat,
    run = (if axisOn s a.val then s.axes[a].missRun + 1 else 0) →
    (row = .driveReplyMissed dl k ∨ ∃ rx, row = .driveReply dl k rx ∧ replyOk s dl k.val (windowBytes rx) = false) → Gives row s fun t =>
      t.axes[a].missed = wrapAdd 32 s.axes[a].missed 1 ∧ t.axes[a].missRun = run ∧ t.axes[a].followRun = 0 ∧
      t.axes[a].actPos = s.axes[a].actPos ∧ t.cfg = s.cfg ∧ t.job = s.job ∧ t.win = s.win ∧ t.audit = s.audit ∧ t.eth = s.eth ∧
      (axisOn s a.val = false ∨ run ≠ pnat (axisCfg s a.val) 11 0 3 → EventsOnly { s with axes := s.axes.set a { s.axes[a] with
        missed := wrapAdd 32 s.axes[a].missed 1, missRun := run, followRun := 0 } } t) ∧
      (axisOn s a.val = true → run = pnat (axisCfg s a.val) 11 0 3 → latchedAt s (blockInst (0x48 + a.val)) = none →
        latchedAt t (blockInst (0x48 + a.val)) = some .driveSilent)) ∧
  (∀ (s : State) (a : Fin 8) (due : Prop),
    due = (homingOf s a.val = .drive ∧ s.axes[a].homeAt + 800000000 * pnat (axisCfg s a.val) 24 0 60 < s.clock) →
    (due → Gives (.homeTimeout a) s fun t =>
      (latchedAt s { level := .region, source := 3 } = none → latchedAt t { level := .region, source := 3 } = some .homeFail) ∧ t.cfg = s.cfg ∧
      t.job = s.job ∧ t.win = s.win ∧ t.audit = s.audit ∧ t.eth = s.eth ∧ t.clock = s.clock) ∧
    (¬due → exec (.homeTimeout a) s = .next s)) ∧
  (∀ (s : State) (i : Fin 2) (a : Fin 8), a.val = 6 + i.val →
    (axisOn s a.val = true → outputsOn s = true → s.sys.resetN = true → exec (.microstepUpdate i) s = .next { s with axes := s.axes.set a { s.axes[a] with
      msEn := true
      msIdx := BitVec.ofNat 10 (((pnat (axisCfg s a.val) 13 0 0 : Int) +
        interpolated s s.axes[a] a.val / 2 ^ 32 * (1024 / pnat (axisCfg s a.val) 12 0 256 : Nat)) % 1024).toNat
      msCur := BitVec.ofNat 4 (if s.axes[a].reduced then pnat (axisCfg s a.val) 15 0 8 else pnat (axisCfg s a.val) 14 0 15) } }) ∧
    (axisOn s a.val = false ∨ outputsOn s = false ∨ s.sys.resetN = false →
      exec (.microstepUpdate i) s = .next { s with axes := s.axes.set a { s.axes[a] with msEn := false } })) ∧
  (∀ (s : State) (a : Fin 8) (due : Prop),
    due = (axisOn s a.val = true ∧ s.axes[a].standstill = true ∧ s.axes[a].pending = none ∧ pnat (axisCfg s a.val) 16 0 500 ≠ 0 ∧
      s.axes[a].stillAt + 800000 * pnat (axisCfg s a.val) 16 0 500 ≤ s.clock) →
    (due → exec (.currentReduction a) s = .next { s with axes := s.axes.set a { s.axes[a] with reduced := true } }) ∧
    (¬due → exec (.currentReduction a) s = .next s))

/-- O39. mem.config before the first sweep stages an accepted arrangement, afterwards it is BAD_STATE. mem.sweep without an arrangement or to no even
number of MiB fitted is BAD_ARG, during training or a sweep BUSY; else it starts training, or the sweep where training has passed, or is done where
the range already reaches that far. mem.status answers the counts, bucket, log and scrub of one source and changes nothing. mem.scrub starts a scrub
of an initialised aligned range, paused where the posted slices fill the DRAM, and is BUSY during one; STOP ends a running scrub, and with none
changes nothing. mem.repair adds an SRAM entry to the map while a spare is free, and leaves a full map as it is; without a spare it is NO_SPACE.
mem.ppr of a legal row starts it where supported and its group is unused, is BUSY during another, else NO_SPACE. mem.ecctest writes a word with the
check bits named, reads a word's data, check bits and syndrome, or arms an injection, for at most 64 words, in the DRAM and on die, where a word of a
bank that no owner has used reads as the zero that the reset sweep wrote. An argument that does not fit is BAD_ARG with the offset of its field.
(R371, R374, R379, R387, R391, R392, R393, R519, Table 13.1) -/
def Obligations.MemoryCommandsArrangeScrubAndRepair : Prop :=
  (∀ (s : State) (c : Command), Doing s 0x0E01 c →
    (listTarget c.payload 0 ≠ 0 → Answers .memConfig s c { status := .badArg } s) ∧
    (∀ d, listTarget c.payload 0 = 0 → judgeList memSpecs memRelation s.cfg.staged.mem (listItems c.payload 0) = .error d →
      Answers .memConfig s c { status := .badArg, detail := d } s) ∧
    (∀ m, listTarget c.payload 0 = 0 → judgeList memSpecs memRelation s.cfg.staged.mem (listItems c.payload 0) = .ok m →
      (s.mem.sweepSeen = true → Answers .memConfig s c { status := .badState } s) ∧
      (s.mem.sweepSeen = false →
        Answers .memConfig s c { status := .ok } { s with cfg := { s.cfg with staged := { s.cfg.staged with mem := m } } }))) ∧
  (∀ (s : State) (c : Command) (t : Nat), Doing s 0x0E02 c → t = uAt c.payload 0 4 →
    (∀ d, missingParam [1, 2] (memCfg s) = some d → Answers .memSweep s c { status := .badArg, detail := d } s) ∧
    (missingParam [1, 2] (memCfg s) = none →
      (t % 2 ≠ 0 ∨ fittedBytes s < t * 2 ^ 20 → Answers .memSweep s c { status := .badArg } s) ∧
      (t % 2 = 0 → t * 2 ^ 20 ≤ fittedBytes s →
        (s.mem.sweepBusy = true ∨ s.mem.training = true → Answers .memSweep s c { status := .busy } s) ∧
        (s.mem.sweepBusy = false → s.mem.training = false →
          (s.mem.trained = false → Answers .memSweep s c { status := .ok }
            (bgStart .sweep { s with mem := { s.mem with sweepSeen := true, target := t / 2, training := true } })) ∧
          (s.mem.trained = true → min s.mem.init[0] s.mem.init[1] < t / 2 → Answers .memSweep s c { status := .ok }
            (bgStart .sweep { s with mem := { s.mem with sweepSeen := true, target := t / 2, sweepBusy := true } })) ∧
          (s.mem.trained = true → t / 2 ≤ min s.mem.init[0] s.mem.init[1] → Does .memSweep s c { status := .ok } fun u => EventsOnly
            (bgEnd .sweep (bgStart .sweep { s with mem := { s.mem with sweepSeen := true, target := t / 2, swept := true } })) u))))) ∧
  (∀ (s : State) (c : Command), Doing s 0x0E03 c → 7 < uAt c.payload 0 1 → Answers .memStatus s c { status := .badArg } s) ∧
  (∀ (s : State) (c : Command) (k : Fin 8), Doing s 0x0E03 c → uAt c.payload 0 1 = k.val → Answers .memStatus s c
    { status := .ok
      payload := leBytes 4 s.mem.sources[k].ce ++ leBytes 4 s.mem.sources[k].ue ++ leBytes 2 s.mem.sources[k].bucket ++
        leBytes 1 s.mem.sources[k].log.length ++
        leBytes 1 (if s.mem.scrub.running then (if s.mem.scrub.paused then 2 else 1) else 0) ++ leBytes 4 s.mem.scrub.pass ++
        leBytes 8 s.mem.scrub.pos ++ s.mem.sources[k].log.flatMap fun e =>
          leBytes 8 e.addr ++ leBytes 1 e.syndrome ++ leBytes 1 e.cls ++ zeros 2 ++ leBytes 4 e.time.toNat } s) ∧
  (∀ (s : State) (c : Command) (target rate base limit : Nat) (bad : List (Reply × Prop)) (crowded : Bool), Doing s 0x0E04 c →
    target = uAt c.payload 0 1 → rate = uAt c.payload 4 4 → base = uAt c.payload 8 8 → limit = uAt c.payload 16 8 →
    crowded = decide (85 * fittedBytes s < 100 * (s.codec.posted.map (·.len)).sum) →
    bad = [({ status := .badArg }, 1 < target), ({ status := .badArg, detail := 4 }, rate < 10 ∨ 2000 < rate),
      ({ status := .badArg, detail := 8 }, target = 0 ∧ base % 64 ≠ 0), ({ status := .badArg, detail := 16 }, target = 0 ∧ (limit % 64 ≠ 0 ∨ limit ≤ base)),
      ({ status := .busy }, s.mem.scrub.running = true), ({ status := .uninit }, target = 0 ∧ initBytes s < limit)] →
    (1 < uAt c.payload 2 1 → Answers .memScrub s c { status := .badArg, detail := 2 } s) ∧
    (uAt c.payload 2 1 = 1 → s.mem.scrub.running = false → Answers .memScrub s c { status := .ok } s) ∧
    (uAt c.payload 2 1 = 1 → s.mem.scrub.running = true → Does .memScrub s c { status := .ok } fun u => EventsOnly
      (bgEnd .scrub { s with mem := { s.mem with scrub := { s.mem.scrub with running := false, paused := false } } }) u) ∧
    (uAt c.payload 2 1 = 0 →
      (∀ (k : Nat) (r : Reply) (e : Prop), bad[k]? = some (r, e) → e → (∀ j < k, ∀ y : Reply × Prop, bad[j]? = some y → ¬ y.2) →
        Answers .memScrub s c r s) ∧
      ((∀ y ∈ bad, ¬ y.2) → Answers .memScrub s c { status := .ok } (bgStart .scrub { s with mem := { s.mem with scrub :=
        { running := true, paused := crowded, pauseAt := if crowded then s.clock else 0, sram := target == 1, base := if target = 0 then base else 0
          limit := limit, rate := rate, rateAt := s.clock, passes := uAt c.payload 1 1, pos := if target = 0 then base else 0 } } })))) ∧
  (∀ (s : State) (c : Command) (kind bank i spares : Nat) (bad : List (Reply × Prop)), Doing s 0x0E05 c → kind = uAt c.payload 0 1 →
    bank = uAt c.payload 2 2 → i = uAt c.payload 4 2 → spares = (if kind = 1 then 2 else 1) →
    bad = [({ status := .badArg }, kind ≠ 1 ∧ kind ≠ 2), ({ status := .badArg, detail := 2 }, 448 ≤ bank),
      ({ status := .badArg, detail := 4 }, (if kind = 1 then 1024 else 576) ≤ i), ({ status := .noSpace }, spares ≤ sparesTaken s kind bank)] →
    (∀ (k : Nat) (r : Reply) (e : Prop), bad[k]? = some (r, e) → e → (∀ j < k, ∀ y : Reply × Prop, bad[j]? = some y → ¬ y.2) →
      Answers .memRepair s c r s) ∧
    ((∀ y ∈ bad, ¬ y.2) → Does .memRepair s c { status := .ok } fun u =>
      (∀ n, s.life.repairs.findIdx? (fun q => uAt q 0 1 == 0) = some n → u.life.repairs = s.life.repairs.set n (sramEntry kind bank i)) ∧
      (s.life.repairs.findIdx? (fun q => uAt q 0 1 == 0) = none → u.life.repairs =
        if 251 ≤ s.life.repairs.length then s.life.repairs else s.life.repairs ++ [sramEntry kind bank i]) ∧
      EventsOnly { s with life := u.life } u)) ∧
  (∀ (s : State) (c : Command) (support : Bool), Doing s 0x0E06 c →
    (∀ d, pprRow c.payload s = .error d → Answers (.memPpr support) s c { status := .badArg, detail := d } s) ∧
    (∀ r, pprRow c.payload s = .ok r →
      (s.mem.ppr ≠ none → Answers (.memPpr support) s c { status := .busy } s) ∧
      (s.mem.ppr = none → support = false ∨ r.group ∈ s.mem.pprUsed → Answers (.memPpr support) s c { status := .noSpace } s) ∧
      (s.mem.ppr = none → support = true → r.group ∉ s.mem.pprUsed → Answers (.memPpr support) s c { status := .ok }
        (bgStart .ppr { s with mem := { s.mem with ppr := some ⟨r.ch, r.rank, r.bg, r.bank, r.row⟩ } })))) ∧
  (∀ (s : State) (c : Command) (op space chk a d fold : Nat) (words : List (Nat × Nat)) (bad : List (Reply × Prop)), Doing s 0x0E07 c →
    op = uAt c.payload 0 1 → space = uAt c.payload 1 1 → chk = uAt c.payload 2 1 → a = uAt c.payload 8 8 → d = uAt c.payload 16 8 →
    fold = (if space = 0 then foldedDram a else a) →
    words = (if (space, a) ∈ s.mem.testWords then s.mem.testWords else s.mem.testWords ++ [(space, a)]) →
    bad = [({ status := .badArg }, 2 < op), ({ status := .badArg, detail := 1 }, 1 < space),
      ({ status := .badArg, detail := 8 }, (space = 0 ∧ (a % 8 ≠ 0 ∨ beyondFitted s a 8 = true)) ∨ (space ≠ 0 ∧ 448 * 8192 ≤ a)),
      ({ status := .uninit }, space = 0 ∧ uninitRange s a 8 = true),
      ({ status := .noSpace }, op ≠ 1 ∧ (space, a) ∉ s.mem.testWords ∧ 64 ≤ s.mem.testWords.length)] →
    (∀ (k : Nat) (r : Reply) (e : Prop), bad[k]? = some (r, e) → e → (∀ j < k, ∀ y : Reply × Prop, bad[j]? = some y → ¬ y.2) →
      Answers .memEcctest s c r s) ∧
    ((∀ y ∈ bad, ¬ y.2) →
      (op = 0 → space = 0 → Answers .memEcctest s c { status := .ok } { s with mem := { s.mem with
        dram := Mem.writeN s.mem.dram a (leBytes 8 d), synd := SMap.put 0 s.mem.synd (a / 8) (BitVec.ofNat 8 (chk ^^^ checkBits fold d))
        testWords := words } }) ∧
      (op = 0 → space = 1 → Answers .memEcctest s c { status := .ok } { s with mem := { s.mem with
        ondieData := (a, d) :: s.mem.ondieData.filter fun e => e.1 != a
        ondie := SMap.put 0 s.mem.ondie a (BitVec.ofNat 8 (chk ^^^ checkBits fold d)), testWords := words } }) ∧
      (∀ (v y : Nat) (u : State), op = 1 →
        (space = 0 → v = leNat (Mem.readN s.mem.dram a 8) ∧ y = (beatSyndrome s a).toNat ∧ u = s) →
        (space = 1 → y = (SMap.get 0 s.mem.ondie a).toNat ∧
          (∀ e, s.mem.ondieData.find? (fun e => e.1 == a) = some e → v = e.2 ∧ u = s) ∧
          (s.mem.ondieData.find? (fun e => e.1 == a) = none → s.mem.ondieUsed.getLsbD (a / 8192) = false → v = 0 ∧ u = s) ∧
          (s.mem.ondieData.find? (fun e => e.1 == a) = none → s.mem.ondieUsed.getLsbD (a / 8192) = true →
            v = Config.freeNat s.free % 2 ^ 64 ∧ u = { s with free := s.free + 1 })) →
        Answers .memEcctest s c { status := .ok, payload := leBytes 8 v ++ leBytes 1 (checkBits fold v ^^^ y) ++ leBytes 1 y ++ zeros 6 } u) ∧
      (op = 2 → Answers .memEcctest s c { status := .ok } { s with mem := { s.mem with
        injects := s.mem.injects ++ [{ space := space, addr := a, check := BitVec.ofNat 8 chk, data := BitVec.ofNat 64 d }], testWords := words } })))

/-- O40. DRAM_TRAINING_DONE with both channels trained starts the sweep, or ends it where the target is reached, and else leaves the DRAM untrained
and latches DRC_TRAIN of each channel that failed. SWEEP_MIB_COMPLETE makes every byte of the channel's MiB read zero with no syndrome, leaves every
other byte, advances the channel, and then applies the writes held. MEM_SWEEP_DONE at the target ends the sweep. SCRUB_LINE at its rate leaves a
correctable DRAM line without syndrome, poisons one that is uncorrectable and keeps one that is poisoned, and counts them. On die it does the same,
one word a CORE clock at most, with the word it names, whose poison holds data 0, but rewrites a word of the fire accumulator store as zero. At the
limit, or the last on-die word, it begins the next pass or ends. CE_LEAK_TICK when due takes one from every bucket. DRAM_REFRESH flips the bits that
have decayed and nothing else, and latches DRC_PARITY of its channel with a command still in error, DRC_CRC with a write; ZQ_CALIBRATION changes
nothing. PPR_DONE ends the repair, the row's initialised bytes read zero, and its candidate takes the outcome; with failure it latches DRC_PPR. Where
a row does not fit, nothing changes. (R370, R371, R374, R380, R382, R388, R389, R392, Table 13.4, Table 13.5) -/
def Obligations.MemoryKeepsItsContents : Prop :=
  (∀ (s : State) (ok0 ok1 : Bool), s.mem.training = false → exec (.dramTrainingDone ok0 ok1) s = .next s) ∧
  (∀ s : State, s.mem.training = true →
    (min s.mem.init[0] s.mem.init[1] < s.mem.target →
      exec (.dramTrainingDone true true) s = .next { s with mem := { s.mem with training := false, trained := true, sweepBusy := true } }) ∧
    (s.mem.target ≤ min s.mem.init[0] s.mem.init[1] → Reaches (.dramTrainingDone true true) s
      (bgEnd .sweep { s with mem := { s.mem with training := false, trained := true, swept := true, sweepBusy := false } })) ∧
    ∀ ok0 ok1, (ok0 && ok1) = false → Gives (.dramTrainingDone ok0 ok1) s fun t => t.mem.training = false ∧ t.mem.trained = false ∧
      t.mem.dram = s.mem.dram ∧ t.mem.init = s.mem.init ∧ t.cfg = s.cfg ∧ t.job = s.job ∧ t.win = s.win ∧
      (∀ ch : Fin 2, [ok0, ok1][ch] = false → s.sys.mode ≠ .boot → s.sys.mode ≠ .keepalive → latchedAt s (blockInst (0x13 + ch.val)) = none →
        latchedAt t (blockInst (0x13 + ch.val)) = some .drcTrain)) ∧
  (∀ (s : State) (ch : Fin 2), (s.mem.sweepBusy = true → s.mem.init[ch] < s.mem.target → Gives (.sweepMibComplete ch) s fun t => ∃ z : State,
      (∀ a, channelOf a = ch.val → localOf a / 2 ^ 20 = s.mem.init[ch] → Mem.read z.mem.dram a = 0 ∧ beatSyndrome z a = 0) ∧
      (∀ a, channelOf a ≠ ch.val ∨ localOf a / 2 ^ 20 ≠ s.mem.init[ch] → Mem.read z.mem.dram a = Mem.read s.mem.dram a ∧
        beatSyndrome z a = beatSyndrome s a) ∧
      z = { s with mem := { s.mem with init := s.mem.init.set ch (s.mem.init[ch] + 1), heldWrites := [], dram := z.mem.dram, synd := z.mem.synd } } ∧
      t = applyHeld s.mem.heldWrites z) ∧
    (s.mem.sweepBusy = false ∨ s.mem.target ≤ s.mem.init[ch] → exec (.sweepMibComplete ch) s = .next s)) ∧
  (∀ s : State, (s.mem.sweepBusy = true → s.mem.target ≤ min s.mem.init[0] s.mem.init[1] → Reaches .memSweepDone s
      (bgEnd .sweep { s with mem := { s.mem with swept := true, sweepBusy := false } })) ∧
    (s.mem.sweepBusy = false ∨ min s.mem.init[0] s.mem.init[1] < s.mem.target → exec .memSweepDone s = .next s)) ∧
  (∀ (s : State) (w : Nat) (y : BitVec 8) (last : Bool), s.mem.scrub.running = false ∨ s.mem.scrub.paused = true ∨ rateAllows w s = false ∨
    (s.mem.scrub.sram = false ∧ channelStopped s s.mem.scrub.pos = true) ∨
    (s.mem.scrub.sram = true ∧ (w < s.mem.scrub.pos ∨ ondieEnd ≤ w ∨ (last = true ↔ w + 1 ≠ ondieEnd))) →
    exec (.scrubLine w y last) s = .next s) ∧
  (∀ (s : State) (w : Nat) (y : BitVec 8) (last : Bool) (la cor new_ old : Nat) (c : Scrub), s.mem.scrub.running = true → s.mem.scrub.paused = false →
    51200 * s.mem.scrub.rateLines ≤ s.mem.scrub.rate * (s.clock - s.mem.scrub.rateAt) → s.mem.scrub.sram = false → la = s.mem.scrub.pos → channelStopped s la = false → SMap.wf 0 s.mem.synd = true →
    (lineState s la = .good → cor = ((List.range 8).filter fun k => beatSyndrome s (la + 8 * k) != 0).length ∧ new_ = 0 ∧ old = 0) →
    (∀ k, lineState s la = .bad k → cor = 0 ∧ new_ = 1 ∧ old = 0) → (lineState s la = .poisoned → cor = 0 ∧ new_ = 0 ∧ old = 1) →
    c = { s.mem.scrub with
      lines := wrapAdd 32 s.mem.scrub.lines 1, rateLines := s.mem.scrub.rateLines + 1, corrected := wrapAdd 32 s.mem.scrub.corrected cor
      newPoison := satAdd 16 s.mem.scrub.newPoison new_, found := satAdd 16 s.mem.scrub.found old, pos := la + 64 } →
    Gives (.scrubLine w y last) s fun t =>
      (∀ k < 8, beatSyndrome t (la + 8 * k) = if lineState s la = .good then 0 else 0xFF) ∧
      (lineState s la = .poisoned → t.mem.dram = s.mem.dram ∧ t.mem.synd = s.mem.synd) ∧
      (la + 64 < s.mem.scrub.limit → t.mem.scrub = c) ∧
      (s.mem.scrub.limit ≤ la + 64 → c.passes ≠ 0 → c.passes ≤ c.pass + 1 → t.mem.scrub = { c with running := false }) ∧
      (s.mem.scrub.limit ≤ la + 64 → c.passes = 0 ∨ c.pass + 1 < c.passes → t.mem.scrub = { c with
        pass := c.pass + 1, pos := c.base, lines := 0, corrected := 0, newPoison := 0, found := 0, pausedTicks := 0 }) ∧
      t.cfg = s.cfg ∧ t.job = s.job ∧ t.faults = s.faults ∧ t.win = s.win ∧ t.time = s.time) ∧
  (∀ (s v : State) (w cor new_ old : Nat) (lost y : BitVec 8) (last : Bool) (c : Scrub), s.mem.scrub.running = true → s.mem.scrub.paused = false →
    s.mem.scrub.rateLines + (w + 1 - s.mem.scrub.pos) ≤ s.clock - s.mem.scrub.rateAt → s.mem.scrub.sram = true → s.mem.scrub.pos ≤ w → w < ondieEnd →
    (last = true ↔ w + 1 = ondieEnd) → v = scrubWords s.mem.scrub.pos w s →
    y = (if SMap.get 0 v.mem.ondie w = 0xFF then 0xFF else SMap.get 0 v.mem.ondie w ^^^ lost) →
    (classify y = .clean → cor = 0 ∧ new_ = 0 ∧ old = 0) →
    (classify y = .checkBit ∨ (∃ j, classify y = .dataBit j) → cor = 1 ∧ new_ = 0 ∧ old = 0) → (classify y = .uncorrectable → cor = 0 ∧ new_ = 1 ∧ old = 0) →
    (classify y = .poison → cor = 0 ∧ new_ = 0 ∧ old = 1) →
    c = { v.mem.scrub with
      lines := wrapAdd 32 v.mem.scrub.lines (w + 1 - v.mem.scrub.pos), rateLines := v.mem.scrub.rateLines + (w + 1 - v.mem.scrub.pos)
      corrected := wrapAdd 32 v.mem.scrub.corrected cor, newPoison := satAdd 16 v.mem.scrub.newPoison new_, found := satAdd 16 v.mem.scrub.found old
      pos := w + 1 } →
    ((∀ e ∈ s.mem.ondie, e.1 < s.mem.scrub.pos ∨ w ≤ e.1) → v = s) ∧
    Gives (.scrubLine w lost last) s fun t =>
      (classify y = .poison → t.mem.ondie = v.mem.ondie) ∧
      (classify y = .clean ∨ cor = 1 → t.mem.ondie = SMap.put 0 v.mem.ondie w 0) ∧
      (new_ = 1 → wordOwner w ≠ lifeSource → t.mem.ondie = SMap.put 0 v.mem.ondie w 0xFF ∧ t.mem.ondieData.head? = some (w, 0)) ∧
      (new_ = 1 → wordOwner w = lifeSource → v.mem.injects = [] → t.mem.ondie = SMap.clear v.mem.ondie w (w + 1) ∧
        t.life.acc = SMap.clear v.life.acc (2 * (w - accWord 0)) (2 * (w - accWord 0) + 2)) ∧
      (last = false → t.mem.scrub = c) ∧
      (last = true → c.passes ≠ 0 → c.passes ≤ c.pass + 1 → t.mem.scrub = { c with running := false }) ∧
      (last = true → c.passes = 0 ∨ c.pass + 1 < c.passes → t.mem.scrub = { c with
        pass := c.pass + 1, pos := c.base, lines := 0, corrected := 0, newPoison := 0, found := 0, pausedTicks := 0 }) ∧
      t.mem.dram = s.mem.dram ∧ t.cfg = s.cfg ∧ t.job = s.job ∧ t.faults = s.faults ∧ t.win = s.win ∧ t.time = s.time) ∧
  (∀ s : State, (s.mem.leakAt + 800000 * pnat (memCfg s) 5 0 1000 ≤ s.clock → exec .ceLeakTick s = .next { s with mem := { s.mem with
      leakAt := s.clock, sources := s.mem.sources.map fun m => { m with bucket := m.bucket - 1 } } }) ∧
    (s.clock < s.mem.leakAt + 800000 * pnat (memCfg s) 5 0 1000 → exec .ceLeakTick s = .next s)) ∧
  (∀ (s : State) (ch : Fin 2) (alert : DramAlert) (ups : List Upset), Gives (.dramRefresh ch alert ups) s fun t =>
    ((∀ u ∈ ups, channelOf u.addr ≠ ch.val ∨ beyondFitted s u.addr 8 = true) → t.mem.dram = s.mem.dram ∧ t.mem.synd = s.mem.synd) ∧
    (∀ u, ups = [u] → channelOf u.addr = ch.val → beyondFitted s u.addr 8 = false → Memory.wf s.mem.dram = true → SMap.wf 0 s.mem.synd = true →
      (∀ k < 8, Mem.read t.mem.dram (u.addr / 8 * 8 + k) =
        Mem.read s.mem.dram (u.addr / 8 * 8 + k) ^^^ BitVec.ofNat 8 (u.data.toNat / 256 ^ k)) ∧
      beatSyndrome t u.addr = beatSyndrome s u.addr ^^^ u.check ^^^ BitVec.ofNat 8 (columnXor dataColumns u.data.toNat)) ∧
    (∀ a, (∀ u ∈ ups, u.addr / 8 ≠ a / 8) → Mem.read t.mem.dram a = Mem.read s.mem.dram a ∧ beatSyndrome t a = beatSyndrome s a) ∧
    (alert = .none_ ∨ s.mem.trained = false → t = { s with mem := { s.mem with dram := t.mem.dram, synd := t.mem.synd } }) ∧
    (s.mem.trained = true → s.sys.mode ≠ .boot → s.sys.mode ≠ .keepalive → latchedAt s (blockInst (0x13 + ch.val)) = none →
      (alert = .command → latchedAt t (blockInst (0x13 + ch.val)) = some .drcParity) ∧
      (∀ a, alert = .write a → channelOf a = ch.val → beyondFitted s (64 * (a / 64)) 64 = false →
        latchedAt t (blockInst (0x13 + ch.val)) = some .drcCrc)) ∧
    (∀ a, alert = .write a → channelOf a ≠ ch.val ∨ beyondFitted s (64 * (a / 64)) 64 = true →
      t = { s with mem := { s.mem with dram := t.mem.dram, synd := t.mem.synd } }) ∧ t.cfg = s.cfg ∧ t.job = s.job ∧ t.win = s.win) ∧
  (∀ s : State, exec .zqCalibration s = .next s) ∧
  (∀ (s : State) (ok : Bool), s.mem.ppr = none → exec (.pprDone ok) s = .next s) ∧
  (∀ (s : State) (ok : Bool) (x : Ppr) (r : RowAddr) (cand : RepairEntry → Bool), s.mem.ppr = some x → r = ⟨x.ch, x.rank, x.bg, x.bank, x.row⟩ →
    cand = (fun e => uAt e 0 1 == 3 && uAt e 1 1 == 0 && decide (entryRow e = r)) → Gives (.pprDone ok) s fun t =>
      t.mem.ppr = none ∧ t.mem.pprUsed = r.group :: s.mem.pprUsed ∧
      (∀ a, a < initBytes s → rowAddr s a = r → Mem.read t.mem.dram a = 0) ∧
      (∀ a, ¬(a < initBytes s ∧ rowAddr s a = r) → Mem.read t.mem.dram a = Mem.read s.mem.dram a) ∧
      (s.life.repairs.findIdx? cand = none → t.life.repairs = s.life.repairs) ∧
      (∀ i, s.life.repairs.findIdx? cand = some i →
        t.life.repairs = s.life.repairs.modify i fun e => e.set 1 (if ok then 1 else 2)) ∧
      (ok = true → t.faults = s.faults ∧ t.sys.mode = s.sys.mode) ∧
      (ok = false → s.sys.mode ≠ .boot → s.sys.mode ≠ .keepalive → latchedAt s (blockInst (0x13 + x.ch)) = none →
        latchedAt t (blockInst (0x13 + x.ch)) = some .drcPpr) ∧ t.cfg = s.cfg ∧ t.job = s.job ∧ t.win = s.win)

/-- O41. cvu.config with a wrong field is BAD_ARG with its offset; of an idle unit with good fields it arms it with its settings, and with START NOW starts it
with STATE all ones and COUNT 0; of an armed or running unit it is BUSY. With point 0 it stops an armed or running unit, and changes nothing of an idle
one. cvu.write of an idle unit sets STATE and COUNT, of a busy one it is BUSY. cvu.read answers STATE, its complement, COUNT and the flags. Of a unit there is
not, both are BAD_ARG. CVU_STOP of a running unit that has reached its stop ends it, and otherwise changes nothing. (R394, R395, Table 18.11) -/
def Obligations.CheckValueUnitsRun : Prop :=
  (∀ (s : State) (c : Command) (d : Nat), Doing s 0x0F01 c → cvuBad c.payload s = some d → Answers .cvuConfig s c { status := .badArg, detail := d } s) ∧
  (∀ (s : State) (c : Command), 7 < uAt c.payload 0 1 → (Doing s 0x0F02 c → Answers .cvuRead s c { status := .badArg } s) ∧
    (Doing s 0x0F03 c → Answers .cvuWrite s c { status := .badArg } s)) ∧
  (∀ (s : State) (c : Command) (u : Fin 8) (x : Cvu), uAt c.payload 0 1 = u.val → x = s.mem.cvu[u] →
    (Doing s 0x0F01 c → cvuBad c.payload s = none → uAt c.payload 1 1 ≠ 0 →
      (x.armed = true ∨ x.running = true → Answers .cvuConfig s c { status := .busy } s) ∧
      (∀ y, x.armed = false → x.running = false → y = { x with
          point := uAt c.payload 1 1, start := uAt c.payload 2 1, stop := uAt c.payload 3 1, sel := uAt c.payload 4 1, firstNoz := uAt c.payload 6 2
          base := uAt c.payload 8 8, limit := uAt c.payload 16 8, bytes := uAt c.payload 24 8, armed := true, reached := false } →
        (uAt c.payload 2 1 ≠ 0 → Answers .cvuConfig s c { status := .ok } { s with mem := { s.mem with cvu := s.mem.cvu.set u y } }) ∧
        (uAt c.payload 2 1 = 0 → Answers .cvuConfig s c { status := .ok } { s with mem := { s.mem with
          cvu := s.mem.cvu.set u { y with armed := false, running := true, state := 0xFFFFFFFF, count := 0 } } }))) ∧
    (Doing s 0x0F01 c → cvuBad c.payload s = none → uAt c.payload 1 1 = 0 →
      (x.armed = false → x.running = false → Answers .cvuConfig s c { status := .ok } s) ∧
      (x.armed = true ∨ x.running = true → Does .cvuConfig s c { status := .ok } fun t => EventsOnly { s with mem := { s.mem with
        cvu := s.mem.cvu.set u { x with armed := false, running := false, reached := false } } } t)) ∧
    (Doing s 0x0F02 c → Answers .cvuRead s c
      { status := .ok
        payload := leBytes 4 x.state.toNat ++ leBytes 4 (~~~ x.state).toNat ++ leBytes 8 x.count ++
          leBytes 1 (bitAt x.armed 0 + bitAt x.running 1) ++ zeros 7 } s) ∧
    (Doing s 0x0F03 c →
      (x.armed = true ∨ x.running = true → Answers .cvuWrite s c { status := .busy } s) ∧
      (x.armed = false → x.running = false → Answers .cvuWrite s c { status := .ok } { s with mem := { s.mem with
        cvu := s.mem.cvu.set u { x with state := BitVec.ofNat 32 (uAt c.payload 4 4), count := uAt c.payload 8 8 } } }))) ∧
  (∀ (s : State) (u : Fin 8), s.mem.cvu[u].running = true → s.mem.cvu[u].reached = true → Reaches (.cvuStop u) s { s with mem := { s.mem with
    cvu := s.mem.cvu.set u { s.mem.cvu[u] with armed := false, running := false, reached := false } } }) ∧
  (∀ (s : State) (u : Fin 8), s.mem.cvu[u].running = false ∨ s.mem.cvu[u].reached = false → exec (.cvuStop u) s = .next s)

/-- O42. Outside an overflow episode, in the running part: an event with room for its entries moves MBX_EVR_WR past all of them, its first entry carrying
TB, and MBX_EVR_LOST stands. Without room, a K event joins the hold queue and the ring stands; an event without K leaves the ring alone, adds its
entries to MBX_EVR_LOST and sets EVR_LOST. In every state with at most 1024 entries unread there are at most 1024 afterwards. Nothing but the ring,
the interrupt status and the interrupt messages changes. (R77, R78, R526, R527, R528, R530) -/
def Obligations.EventsAreWrittenHeldOrDropped : Prop :=
  (∀ (e : Event) (s : State), s.sys.phase = .running → s.evr.episode = false → s.evr.held = [] →
    (s.evr.unread + (e.conts + 1) ≤ 1024 → (emit e s).evr.wr = s.evr.wr + BitVec.ofNat 16 (e.conts + 1) ∧ (emit e s).evr.lost = s.evr.lost ∧
      (emit e s).evr.held = [] ∧ (emit e s).evr.gap = 0 ∧ (emit e s).evr.unread = s.evr.unread + (e.conts + 1) ∧
      ((emit e s).evr.ring[e.conts]?).map (fun x => (x.code, x.source, x.status, x.time)) = some (e.code, e.source, e.status, s.time.tb)) ∧
    (1024 < s.evr.unread + (e.conts + 1) → e.keep = true → e.conts + 1 ≤ 64 → (emit e s).evr.ring = s.evr.ring ∧
      (emit e s).evr.wr = s.evr.wr ∧ (emit e s).evr.lost = s.evr.lost ∧ (emit e s).evr.held = [{ e with time := s.time.tb }]) ∧
    (1024 < s.evr.unread + (e.conts + 1) → e.keep = false → (emit e s).evr.ring = s.evr.ring ∧ (emit e s).evr.wr = s.evr.wr ∧
      (emit e s).evr.lost = satAdd 32 s.evr.lost (e.conts + 1) ∧ (emit e s).sys.irqStatus = s.sys.irqStatus ||| irqEvrLost)) ∧
  (∀ (e : Event) (s : State), s.evr.unread ≤ 1024 → (emit e s).evr.unread ≤ 1024) ∧
  (∀ (e : Event) (s : State), EventsOnly s (emit e s))

/-- O43. For every class, source and cell, where the class can arise in the mode and no rule suppresses it, at the instance where Table 14.4 lets it
enter: an empty latch takes the class with REPEAT 0; a latch of the same class keeps it and REPEAT goes up by one, to 4095 at most; a latch of another
class keeps it, and the fault joins the overrun list while that holds fewer than four, else OLOST goes up. Outside BOOT and KEEPALIVE every class can arise,
in BOOT only CORE_WDOG once Verup has started; a class that cannot arise is not raised. A withheld line raises none of the consequences of R406, and with
legacy behaviour the classes it lacks are not raised. (R54, R401, R402, R403, R406, Table 14.4) -/
def Obligations.FaultsLatchRepeatAndOverrun : Prop :=
  (∀ (c : FClass) (src cell : Nat) (s : State) (x : Inst) (up : List Inst), canArise c s = true →
    (isConsequence c && isWithheld s) = false → (s.sys.legacy && notInLegacy c) = false → faultPath c src cell = x :: up →
    (latchedAt s x = none → latchedAt (raiseFault c src cell s) x = some c ∧ (recOf (raiseFault c src cell s) x).repeatN = 0) ∧
    (latchedAt s x = some c → latchedAt (raiseFault c src cell s) x = some c ∧
      (recOf (raiseFault c src cell s) x).repeatN = min ((recOf s x).repeatN + 1) 4095 ∧
      (recOf (raiseFault c src cell s) x).overruns = (recOf s x).overruns) ∧
    (∀ l, latchedAt s x = some l → l ≠ c → latchedAt (raiseFault c src cell s) x = some l ∧
      (recOf (raiseFault c src cell s) x).repeatN = (recOf s x).repeatN ∧
      ((recOf s x).overruns.length < 4 → (recOf (raiseFault c src cell s) x).overruns.length = (recOf s x).overruns.length + 1 ∧
        (recOf (raiseFault c src cell s) x).olost = (recOf s x).olost) ∧
      (4 ≤ (recOf s x).overruns.length → (recOf (raiseFault c src cell s) x).overruns = (recOf s x).overruns ∧
        (recOf (raiseFault c src cell s) x).olost = satAdd 16 (recOf s x).olost 1))) ∧
  (∀ (c : FClass) (s : State), canArise c s = true ↔
    (s.sys.mode ≠ .boot ∧ s.sys.mode ≠ .keepalive) ∨ (s.sys.mode = .boot ∧ s.sys.phase = .starting ∧ c = .coreWdog)) ∧
  (∀ (c : FClass) (src cell : Nat) (s : State), canArise c s = false → raiseFault c src cell s = s) ∧
  (∀ (c : FClass) (src cell : Nat) (s : State), isConsequence c = true → isWithheld s = true → raiseFault c src cell s = s) ∧
  (∀ (c : FClass) (src cell : Nat) (s : State), s.sys.legacy = true → notInLegacy c = true → raiseFault c src cell s = s)

/-- O44. fault.read of a legal instance answers its status word, lost count and overrun list and changes nothing. fault.ack of the latched class,
released by ACK below the chip, whose condition holds and whose discard has ended, removes the record; before that it is BUSY; of an instance without
a latch, with another class, or with a class that ACK does not release, it is BAD_STATE. An instance there is not is BAD_ARG with the offset of its
field. fault.clear with axes still, no flush and the condition met empties the chip latch and those that used it, gives back the read-back cut and
goes to IDLE, or before a commit to CONFIGURE; otherwise it is BUSY. fn.reinit of a block, or of each block of a region, refuses those in use and with
the detail which; a block that passes its self-test returns to service with its latch empty, and where all of a region pass its latch is emptied too;
a block that fails stays stopped, raises BLOCK_STOP where it was not stopped before and its region hears of it, and ends the command with
REINIT_FAILED. (R398, R405, R414, R416, R417, R418, R518, Table 14.4) -/
def Obligations.RecoveryReadsReleasesAndRestarts : Prop :=
  (∀ (s : State) (c : Command) (d : Nat), instOf c.payload = .error d →
    (Doing s 0x1001 c → Answers .faultRead s c { status := .badArg, detail := d } s) ∧
    (Doing s 0x1002 c → Answers .faultAck s c { status := .badArg, detail := d } s)) ∧
  (∀ (s : State) (c : Command) (x : Inst), instOf c.payload = .ok x → (Doing s 0x1001 c → Answers .faultRead s c
    { status := .ok
      payload := leBytes 4 (recOf s x).word ++ leBytes 2 (recOf s x).olost ++ [0, 0] ++ padTo 32 ((recOf s x).overruns.flatMap overrunBytes) } s) ∧
    (Doing s 0x1002 c → (latchedAt s x = none → Answers .faultAck s c { status := .badState } s) ∧
      (∀ k, latchedAt s x = some k →
        (k.code ≠ uAt c.payload 4 1 ∨ k.release ≠ .ack ∨ x.level = .chip → Answers .faultAck s c { status := .badState } s) ∧
        (k.code = uAt c.payload 4 1 → k.release = .ack → x.level ≠ .chip →
          (ackCondition s (recOf s x) k = false ∨ ((recOf s x).discards = true ∧ s.faults.discard ≠ none) →
            Answers .faultAck s c { status := .busy } s) ∧
          (ackCondition s (recOf s x) k = true → (recOf s x).discards = false ∨ s.faults.discard = none → Does .faultAck s c { status := .ok } fun u =>
            u.faults.recs = s.faults.recs.filter (fun q => q.inst ≠ x) ∧ latchedAt u x = none ∧
            EventsOnly { s with faults := { s.faults with recs := u.faults.recs, released := u.faults.released }, life := u.life } u))))) ∧
  (∀ (s : State) (c : Command) (ball : Bool), Doing s 0x1003 c →
    (axesStill s = false ∨ s.life.flush.isSome = true ∨ clearCondition ball s = false →
      Answers (.faultClear ball) s c { status := .busy } s) ∧
    (axesStill s = true → s.life.flush = none → clearCondition ball s = true → Does (.faultClear ball) s c { status := .ok } fun u =>
      u.sys.mode = (if s.bar.committed then .idle else .configure) ∧ latchedAt u chipInst = none ∧
      (∀ r ∈ s.faults.recs, r.toChip = true → latchedAt u r.inst = none) ∧ u.bar.readbackCut = false ∧
      (∀ a : Fin 8, HoldSrc.safestop ∉ u.axes[a].holds) ∧ u.cfg = s.cfg ∧ u.job = s.job ∧ u.mem = s.mem ∧ u.win = s.win ∧ u.codec = s.codec ∧
      u.twin = (if s.bar.committed then s.twin else { s.twin with hand := none }) ∧ u.time = s.time ∧ u.eth = s.eth)) ∧
  (∀ (s : State) (c : Command) (fails : List Nat) (pass : BitVec 9) (src : Nat) (region : Bool) (blocks : List Nat), Doing s 0x1101 c →
    src = uAt c.payload 0 1 → region = (decide (1 ≤ src) && decide (src ≤ 5)) →
    blocks = (if region then (List.range 0x75).filter fun b => hasBlock b && regionOf b == src else [src]) →
    ((region = false ∧ hasBlock src = false) ∨ src ∈ [5, 0x70, 0x72, 0x74] → Answers (.fnReinit fails pass) s c { status := .badArg } s) ∧
    (region = true ∨ hasBlock src = true → src ∉ [5, 0x70, 0x72, 0x74] →
      (∀ (k b : Nat) (st : Status), blocks[k]? = some b → reinitRefusal s b = some st →
        (∀ j < k, ∀ b', blocks[j]? = some b' → reinitRefusal s b' = none) → Answers (.fnReinit fails pass) s c { status := st, detail := b } s) ∧
      ((∀ b ∈ blocks, reinitRefusal s b = none) →
        ((∀ b ∈ blocks, b ∉ fails ∧ (b = 0x11 → pass ≠ 0)) → Does (.fnReinit fails pass) s c { status := .ok } fun u =>
          (∀ b ∈ blocks, b ∉ u.faults.stopped ∧ latchedAt u (blockInst b) = none) ∧
          (region = true → latchedAt u { level := .region, source := src } = none) ∧ (0x11 ∉ blocks → u.sys.mode = s.sys.mode) ∧
          u.cfg = s.cfg ∧ u.job = s.job ∧ u.win = s.win ∧ u.bar = s.bar ∧ u.eth = s.eth ∧ u.fawn = s.fawn) ∧
        (∀ k b, blocks[k]? = some b → b ∈ fails ∨ (b = 0x11 ∧ pass = 0) →
          (∀ j < k, ∀ b', blocks[j]? = some b' → b' ∉ fails ∧ (b' = 0x11 → pass ≠ 0)) →
          Does (.fnReinit fails pass) s c { status := .reinitFailed, detail := b } fun u =>
            b ∈ u.faults.stopped ∧ (∀ j < k, ∀ b', blocks[j]? = some b' → b' ∉ u.faults.stopped) ∧
            (0x11 ∉ blocks.take (k + 1) → b ∈ s.faults.stopped ∨ latchedAt s (regionInst b) = none → u.sys.mode = s.sys.mode) ∧
            (0x11 ∉ blocks.take (k + 1) → b ∉ s.faults.stopped → stopReports b s = true → canArise .blockStop s = true →
              latchedAt s (regionInst b) = none → latchedAt u (regionInst b) = some .blockStop) ∧
            u.cfg = s.cfg ∧ u.job = s.job ∧ u.win = s.win ∧ u.bar = s.bar ∧ u.eth = s.eth ∧ u.fawn = s.fawn))))

/-- O45. DISCARD_END of a running discard leaves no discard, withholds nothing and expects slices from PAC_LINE; a pass without a result, or any in
SAFESTOP, ends with it, and the mode stays; and in the printing modes the next swath is armed as far as R304 lets it. Without a discard it changes
nothing. TEMP_UPDATE takes the reading; below 115 degrees it starts the count anew, at or above it counts, and the fourth in a row latches OVERTEMP at
the chip, which with the chip latch empty enters SAFESTOP, where nothing fires, unless a warm reset waits for its flush; in BOOT none latches, and in
reset and KEEPALIVE no reading is taken. (R41, R304, R327, R411, R413, R414, R566, Table 14.4) -/
def Obligations.DiscardsEndAndTemperatureTrips : Prop :=
  (∀ (s : State) (d : Discard) (ends : Prop), s.faults.discard = some d →
    ends = (∃ a, s.audit.pass = some a ∧ (s.sys.mode = .safestop ∨ (s.sys.mode = .audit ∧ a.result = none))) →
    Gives .discardEnd s fun t => ∃ v : State, t = armNext v ∧ (v.sys.mode ∉ [.print, .hold, .audit] → t = v) ∧
      v.faults = { s.faults with discard := none } ∧ v.swath.withheld = false ∧ v.codec.nextLine = s.job.pacLine.toNat ∧
      (∀ e ∈ v.mbx.bg, e.2 ≠ .discard) ∧
      (¬ends → v.sys.mode = s.sys.mode ∧ v.audit = s.audit ∧ v.swath = { s.swath with withheld := false } ∧
        v.codec = { s.codec with nextLine := s.job.pacLine.toNat } ∧ v.pace = s.pace ∧ v.fbo = s.fbo) ∧
      (ends → v.audit.pass = none ∧ v.sys.mode = s.sys.mode) ∧
      v.cfg = s.cfg ∧ v.job = s.job ∧ v.mem = s.mem ∧ v.time = s.time ∧ v.win = s.win ∧ v.twin = s.twin ∧ v.fbk = s.fbk ∧ v.eth = s.eth) ∧
  (∀ s : State, s.faults.discard = none → exec .discardEnd s = .next s) ∧
  (∀ (s : State) (tj : BitVec 12), s.sys.mode = .keepalive ∨ s.sys.phase = .inReset → exec (.tempUpdate tj) s = .next s) ∧
  (∀ (s v : State) (tj : BitVec 12), s.sys.mode ≠ .keepalive → s.sys.phase ≠ .inReset →
    v = { s with sys := { s.sys with
      tj := tj, tempValid := true, hotReadings := (if 920 ≤ tj.toInt then s.sys.hotReadings + 1 else 0) % 4 } } →
    (tj.toInt < 920 ∨ s.sys.hotReadings ≠ 3 ∨ s.sys.mode = .boot → exec (.tempUpdate tj) s = .next v) ∧
    (920 ≤ tj.toInt → s.sys.hotReadings = 3 → s.sys.mode ≠ .boot → Gives (.tempUpdate tj) s fun t => SafestopBy .overtemp v t ∧
      t.sys.tj = tj ∧ t.sys.hotReadings = 0))

/-- O46. A 250 microsecond slot repeats the messages still to be repeated where the lease is not off, and then, where the exchange runs, a holder
sends RENEW with the next SEQ on both paths, and a unit in NONE that has answered no RENEW in it sends HELLO. A message that breaks R432 or R433 is
refused and counted; one of another type is left to its row; an unpaired unit notes that it has heard the path and whether its peer renews; an older
EPOCH is counted. Of good messages, heard on their path with the FIT they carry: HELLO says that the peer does not hold the lease; RENEW gives a unit
in NONE its EPOCH and a view of 2 ms, is granted, and takes the lease from a holder with an older EPOCH, or the same on the secondary, whose work in
flight is discarded, and the unit is in FOLLOW then unless it waits for PASS or a warm reset waits for its flush; GRANT of a RENEW noted makes a
holder of that EPOCH HOLDER until 2 ms after its sending; PASS moves a receiver that has answered READY; RELEASE is noted by a unit in NONE; DEPART
makes a holder SOLO and any other unit unfit. A copy already acted on (of the last sixteen, assumption log 31; the model's) is ignored, and so is PASS
by the wires while the twin-link path is up. (R410, R428, R429, R431, R432, R433, R434, R435, R443, R446, R449, R450) -/
def Obligations.LeaseMessagesKeepTheLease : Prop :=
  (∀ (s v w : State) (q : BitVec 16) (n : BitVec 16), v = (if leaseOff s = true then s else sendRepeats s) → q = v.twin.seq + 1 → n = v.twin.msgSeq + 1 →
    (s.twin.repeats = [] → v = s) ∧
    v.twin = (if leaseOff s = true then s.twin else { s.twin with
      repeats := (s.twin.repeats.map fun e => (e.1, e.2 - 1)).filter fun e => e.2 != 0 }) ∧
    (leaseRuns s = false ∨ isStopped s 0x61 = true → exec .renewTimer s = .next v) ∧
    (leaseRuns s = true → isStopped s 0x61 = false → holdsLease s = true →
      w = sendLeaseFrame (leaseMsg 2 0 v.twin.epoch.toNat q.toNat v) { v with twin := { v.twin with
        seq := q, sentAt := ((q.toNat, v.clock) :: v.twin.sentAt).take 16 } } →
      exec .renewTimer s = .next { w with sent := ⟨.leaseWire, wireFrame (leaseMsg 2 0 v.twin.epoch.toNat q.toNat v)⟩ :: w.sent }) ∧
    (leaseRuns s = true → isStopped s 0x61 = false → holdsLease s = false →
      (s.twin.vValid = true → s.clock < s.twin.v - 1600000 + 200000 → exec .renewTimer s = .next v) ∧
      (s.twin.vValid = false ∨ s.twin.v - 1600000 + 200000 ≤ s.clock →
        w = sendLeaseFrame (leaseMsg 1 0 v.twin.epoch.toNat n.toNat v) { v with twin := { v.twin with msgSeq := n } } →
        exec .renewTimer s = .next { w with sent := ⟨.leaseWire, wireFrame (leaseMsg 1 0 v.twin.epoch.toNat n.toNat v)⟩ :: w.sent }))) ∧
  (∀ (type : Nat) (row : LeaseIn → Instr), (type, row) ∈ [(1, .helloReceived), (2, .renewReceived), (3, .grantReceived), (4, .passReceived),
      (5, .releaseReceived), (6, Instr.departReceived)] →
    (∀ (s : State) (h : List Bool), s.sys.phase ≠ .running → exec (row (.wire h)) s = .next s) ∧
    (∀ (s : State) (h : List Bool), s.sys.phase = .running →
      (leaseOf true (leaseBytes h) = none ∨ (∃ m, leaseOf true (leaseBytes h) = some m ∧ leaseGood m = false) → Gives (row (.wire h)) s fun t =>
        EventsOnly { s with twin := { s.twin with wireRefused := wrapAdd 32 s.twin.wireRefused 1 } } t) ∧
      (∀ m, leaseOf true (leaseBytes h) = some m → leaseGood m = true → leaseType m ≠ type → exec (row (.wire h)) s = .next s)) ∧
    (∀ (s v : State) (f : List Byte), v = acceptLease f s →
      (f = [] → v = s) ∧
      (v.twinLink.rxLease = [] ∨ s.sys.phase ≠ .running → exec (row (.link f)) s = .next v) ∧
      (∀ p ms, s.sys.phase = .running → v.twinLink.rxLease = p :: ms →
        (∀ m, leaseOf false p = some m → leaseGood m = true → leaseType m ≠ type → exec (row (.link f)) s = .next v) ∧
        (leaseOf false p = none ∨ (∃ m, leaseOf false p = some m ∧ leaseGood m = false) → Gives (row (.link f)) s fun t =>
          EventsOnly { v with twinLink := { v.twinLink with rxLease := ms }, twin := { v.twin with msgRefused := wrapAdd 32 v.twin.msgRefused 1 } } t))) ∧
    (∀ (s v w : State) (x : LeaseIn) (m : List Byte), s.sys.phase = .running → Carries s x m v → leaseGood m = true → leaseType m = type →
      w = { v with twin := { v.twin with
        wireAt := if byWires x then some v.clock else v.twin.wireAt, linkAt := if byWires x then v.twin.linkAt else some v.clock } } →
      (pairOn s = false → exec (row x) s = .next { w with twin := { w.twin with
        heardRenew := type == 2, epoch := if type = 2 then leaseEpoch m else w.twin.epoch } }) ∧
      (pairOn s = true → epochNewer s.twin.epoch (leaseEpoch m) = true → Gives (row x) s fun t =>
        EventsOnly { w with twin := { w.twin with leaseStale := wrapAdd 32 w.twin.leaseStale 1 } } t))) ∧
  (∀ (s v w : State) (x : LeaseIn) (type : Nat) (m : List Byte) (e : BitVec 16) (k : Nat × Nat), Heard s x type m v → e = leaseEpoch m →
    k = (e.toNat, leaseSeq m) →
    w = { v with twin := { v.twin with
      wireAt := if byWires x then some v.clock else v.twin.wireAt, linkAt := if byWires x then v.twin.linkAt else some v.clock, peerFit := leaseFit m
      newest := some (match v.twin.newest with | some n => if epochNewer e n then e else n | none => e)
      revertAt := if leaseFit m && v.twin.lease != .none_ && v.sys.straps.unitId then v.twin.revertAt.or (some v.clock) else none } } →
    (type = 1 → Reaches (.helloReceived x) s { w with twin := { w.twin with heardRenew := false } }) ∧
    (type = 2 → w.twin.lease ≠ .none_ → epochNewer e w.twin.epoch = false → ¬(e = w.twin.epoch ∧ w.sys.straps.unitId = true) →
      Reaches (.renewReceived x) s w) ∧
    (type = 2 → w.twin.lease = .none_ ∨ epochNewer e w.twin.epoch = true ∨ (e = w.twin.epoch ∧ w.sys.straps.unitId = true) →
      Gives (.renewReceived x) s fun t => t.twin.lease = .none_ ∧ t.twin.epoch = e ∧ t.twin.v = w.clock + 1600000 ∧ t.twin.vValid = true ∧
        t.twin.heardRenew = true ∧ t.twin.release = none ∧ firePermit t = false ∧ t.cfg = s.cfg ∧ t.win = s.win ∧ t.audit = s.audit ∧ t.eth = s.eth ∧
        (w.twin.lease ≠ .none_ ∨ (∀ h, w.twin.hand = some h → h.step ≠ .received ∧ h.step ≠ .passed) →
          t.sys.mode = if w.sys.mode ∈ [.idle, .print, .hold] ∧ w.sys.resetPending = false then .follow else w.sys.mode) ∧
        (w.twin.lease ≠ .none_ → t.faults.discard.isSome = true) ∧
        (∀ h u, w.twin.lease = .none_ → (w.twin.hand = some h ∧ (h.step = .received ∨ h.step = .passed)) ∨ w.sys.mode ∉ [.idle, .print, .hold] →
          u = { w with twin := { w.twin with epoch := e, v := w.clock + 1600000, vValid := true, heardRenew := true, release := none } } →
          EventsOnly (if leaseRuns u then sendPath (byWires x) (leaseMsg 3 0 e.toNat (leaseSeq m) u) u else u) t)) ∧
    (type = 3 → (∀ q t0, w.twin.lease ≠ .none_ → e = w.twin.epoch → w.twin.sentAt.find? (fun r => r.1 == leaseSeq m) = some (q, t0) →
        Reaches (.grantReceived x) s { w with twin := { w.twin with heardRenew := false, lease := .holder, e := max w.twin.e (t0 + 1600000) } }) ∧
      (w.twin.lease = .none_ ∨ e ≠ w.twin.epoch ∨ w.twin.sentAt.find? (fun r => r.1 == leaseSeq m) = none →
        Reaches (.grantReceived x) s { w with twin := { w.twin with heardRenew := false } })) ∧
    (type = 4 →
      ((byWires x = true ∧ w.twin.linkAt ≠ none) ∨ k ∈ w.twin.acted → Reaches (.passReceived x) s w) ∧
      (byWires x = false ∨ w.twin.linkAt = none → k ∉ w.twin.acted →
        (∀ h, w.twin.hand = some h → h.step = .received → w.twin.lease = .none_ → Reaches (.passReceived x) s { w with twin := { w.twin with
          acted := (k :: w.twin.acted).take 16, heardRenew := false, vValid := false, hand := some { h with step := .passed, at_ := w.clock, epoch := e.toNat } } }) ∧
        ((∀ h, w.twin.hand = some h → h.step = .received → w.twin.lease ≠ .none_) →
          Reaches (.passReceived x) s { w with twin := { w.twin with acted := (k :: w.twin.acted).take 16 } }))) ∧
    (type = 5 →
      (k ∈ w.twin.acted → Reaches (.releaseReceived x) s w) ∧
      (k ∉ w.twin.acted → w.twin.lease ≠ .none_ → Reaches (.releaseReceived x) s { w with twin := { w.twin with acted := (k :: w.twin.acted).take 16 } }) ∧
      (k ∉ w.twin.acted → w.twin.lease = .none_ → Reaches (.releaseReceived x) s { w with twin := { w.twin with
        acted := (k :: w.twin.acted).take 16, heardRenew := false, release := some (!byWires x, w.clock, uAt m 1 1) } })) ∧
    (type = 6 →
      (k ∈ w.twin.acted → Reaches (.departReceived x) s w) ∧
      (k ∉ w.twin.acted → w.twin.lease ≠ .none_ → Reaches (.departReceived x) s { w with twin := { w.twin with
        acted := (k :: w.twin.acted).take 16, heardRenew := false, lease := .solo, peerFit := false, revertAt := none } }) ∧
      (k ∉ w.twin.acted → w.twin.lease = .none_ → Reaches (.departReceived x) s { w with twin := { w.twin with
        acted := (k :: w.twin.acted).take 16, heardRenew := false, fit := false, unfitCause := if w.twin.fit then 1 else w.twin.unfitCause } })))

/-- O47. LEASE_EXPIRY of a paired holder at E leaves it in NONE without the permit and latches LEASE_EXPIRED. A path silent for 750 microseconds goes
down, and with the twin-link path of a paired unit TWIN_LINK_DOWN latches, the unit is unfit, and the clock exchange ends; a clock that it disciplined
slews only from then on. A view that has passed is no longer valid; BAR_PEER_CHANGE notes the new level and its moment. TAKEOVER_RELEASE and
LEASE_CLAIM, when their conditions hold, take the lease with the next EPOCH, certain after a RELEASE on the twin link and uncertain after a claim; a
unit in FOLLOW leaves it for PRINT or IDLE with its axes held as the mirror has them, in another mode they are held where they are (the model's,
assumption log 30); twin.takeover does so on command, and is BAD_STATE when neither condition holds. CONTENTION_RESOLVE after 1 ms of BAR_PEER low
ends contention where the unit keeps the bar; a holder that has received a newer EPOCH gives up the lease there. Where a row does not fit, nothing
changes. (R252, R255, R422, R429, R430, R446, R447, R448, R450, R451, R477, Table 15.7) -/
def Obligations.LeaseExpiryAndTakeover : Prop :=
  (∀ (s : State) (due : Prop), due = (pairOn s = true ∧ s.twin.lease = .holder ∧ s.twin.e ≤ s.clock) →
    (due → Gives .leaseExpiry s fun t => t.twin.lease = .none_ ∧ firePermit t = false ∧ t.twin.epoch = s.twin.epoch ∧
      (s.sys.mode ≠ .boot → s.sys.mode ≠ .keepalive → latchedAt s (regionInst 0x61) = none → latchedAt t (regionInst 0x61) = some .leaseExpired) ∧
      t.cfg = s.cfg ∧ t.job = s.job ∧ t.win = s.win ∧ t.bar = s.bar ∧ t.audit = s.audit ∧ t.eth = s.eth) ∧
    (¬due → exec .leaseExpiry s = .next s)) ∧
  (∀ (s : State) (wire : Bool), silent (if wire then s.twin.wireAt else s.twin.linkAt) s = false → exec (.leasePathDown wire) s = .next s) ∧
  (∀ s : State, silent s.twin.wireAt s = true → Gives (.leasePathDown true) s fun t => EventsOnly { s with twin := { s.twin with
      wireAt := none, downAt := s.clock, heardRenew := s.twin.heardRenew && s.twin.linkAt.isSome
      fitAtDown := if s.twin.linkAt = none ∧ s.clock < s.twin.downAt + 600000 then s.twin.fitAtDown else s.twin.fit } } t ∧
    (pairOn s = false → t = { s with twin := t.twin })) ∧
  (∀ (s w : State), silent s.twin.linkAt s = true → w = { s with
      twin := { s.twin with linkAt := none, downAt := s.clock, fitAtDown := s.twin.fit, heardRenew := s.twin.heardRenew && s.twin.wireAt.isSome }
      time := if discipline s = .twin then { s.time with slewOnly := true } else s.time } →
    (pairOn s = false → exec (.leasePathDown false) s = .next w) ∧
    (pairOn s = true → Gives (.leasePathDown false) s fun t => t.twin.linkAt = none ∧ t.twin.downAt = s.clock ∧ t.twin.fitAtDown = s.twin.fit ∧
      t.twin.fit = false ∧ t.twin.epoch = s.twin.epoch ∧ t.time.exchange = false ∧ t.time.pingOut = false ∧
      (discipline s = .twin → t.time.slewOnly = true) ∧
      (s.sys.mode ≠ .boot → s.sys.mode ≠ .keepalive → latchedAt s (blockInst 0x60) = none →
        latchedAt t (blockInst 0x60) = some .twinLinkDown ∧ t.twin.lease = s.twin.lease ∧ t.sys.mode = s.sys.mode) ∧
      t.cfg = s.cfg ∧ t.job = s.job ∧ t.win = s.win ∧ t.bar = s.bar ∧ t.audit = s.audit ∧ t.eth = s.eth)) ∧
  (∀ s : State, (s.twin.lease = .none_ → s.twin.vValid = true → s.twin.v ≤ s.clock →
      exec .leaseViewExpiry s = .next { s with twin := { s.twin with vValid := false } }) ∧
    (s.twin.lease ≠ .none_ ∨ s.twin.vValid = false ∨ s.clock < s.twin.v → exec .leaseViewExpiry s = .next s)) ∧
  (∀ (s : State) (b : Bool), (s.bar.peer ≠ b → exec (.barPeerChange b) s = .next { s with bar := { s.bar with peer := b, peerSince := s.clock } }) ∧
    (s.bar.peer = b → exec (.barPeerChange b) s = .next s)) ∧
  (∀ (s : State) (takes : Bool → State → Prop) (target : Mode), target = (if s.sys.mode = .follow then afterFollow s else s.sys.mode) →
    (∀ certain u, takes certain u ↔
      (u.twin.epoch = s.twin.epoch + 1 ∧ u.twin.uncertain = !certain ∧ u.twin.e = s.clock + 1600000 ∧ u.twin.fit = false ∧
        u.twin.vValid = false ∧ u.twin.layers = 0 ∧ u.twin.release = none ∧
        (target ≠ .print ∨ latchedAt u chipInst = none → u.sys.mode = target ∧ u.twin.lease = if inContact s then .holder else .solo) ∧
        (∀ a : Fin 8, target ≠ .print → s.sys.mode ≠ .follow → axisOn s a.val = true → HoldSrc.host ∈ u.axes[a].holds) ∧
        (target ≠ .print → s.sys.mode = .follow → s.job.isOpen = true → u.job.pacLine = BitVec.ofNat 32 s.twin.peer.pacLine) ∧
        (∀ (a : Fin 8) (src : Nat), target ≠ .print → s.sys.mode = .follow → axisOn s a.val = true → src = pnat (axisCfg s a.val) 3 0 0 →
          u.axes[a] = { s.axes[a] with
            p := s.twin.peerAxes[a].raw * 2 ^ 32, v := 0, a := 0, refOffset := s.twin.peerAxes[a].refOffset, move := none, pending := none
            stopping := false, standstill := true, stillAt := s.clock, holds := [.host]
            referenced := s.twin.peerAxes[a].referenced &&
              (src == 2 || (src == 1 && !(nthOr s.fbk (pnat (axisCfg s a.val) 4 0 0) {}).chFault))
            heldMove := if s.twin.peerAxes[a].held then some (.target s.twin.peerAxes[a].target s.twin.peerAxes[a].speed.toNat) else none }) ∧
        u.cfg = s.cfg ∧ u.win = s.win ∧ u.bar = s.bar ∧ u.eth = s.eth)) →
    (releaseReady s = true → takeoverAuto s = true → s.twin.fit = true → Gives .takeoverRelease s (takes true)) ∧
    (releaseReady s = false ∨ takeoverAuto s = false ∨ s.twin.fit = false → exec .takeoverRelease s = .next s) ∧
    (claimReady s = true → takeoverAuto s = true → s.twin.fitAtDown = true → Gives .leaseClaim s (takes false)) ∧
    (claimReady s = false ∨ takeoverAuto s = false ∨ s.twin.fitAtDown = false → exec .leaseClaim s = .next s) ∧
    (∀ c, Doing s 0x1205 c →
      (releaseReady s = false → claimReady s = false → Answers .twinTakeover s c { status := .badState } s) ∧
      (releaseReady s = true ∨ claimReady s = true → Does .twinTakeover s c { status := .ok } (takes (releaseReady s))))) ∧
  (∀ (s : State) (due older : Prop), due = (s.bar.contention = true ∧ peerLow 800000 0 s = true ∧ (pairOn s = false ∨ s.sys.straps.unitId = false)) →
    older = (pairOn s = true ∧ s.twin.lease ≠ .none_ ∧ ∃ e, s.twin.newest = some e ∧ epochNewer e s.twin.epoch = true) →
    (due → older → Gives .contentionResolve s fun t => t.twin.lease = .none_ ∧ t.twin.hand = none ∧ t.faults.discard.isSome = true ∧
      t.bar = { s.bar with contention := false } ∧ (∀ r ∈ t.faults.recs, r ∈ s.faults.recs) ∧ (∀ x, latchedAt t x ≠ some .barContention) ∧
      t.sys.mode = s.sys.mode ∧ t.cfg = s.cfg ∧ t.job = s.job ∧ t.win = s.win ∧ t.eth = s.eth) ∧
    (due → ¬older → Gives .contentionResolve s fun t =>
      (∀ r ∈ t.faults.recs, r ∈ s.faults.recs) ∧ (∀ x, latchedAt t x ≠ some .barContention) ∧
      EventsOnly { s with bar := { s.bar with contention := false }, faults := t.faults, life := t.life } t) ∧
    (¬due → exec .contentionResolve s = .next s))

/-- O48. twin.config stages an accepted list. twin.swap to the active makes a handover due, to another unit it is BAD_STATE. twin.resolve to the
active while XCHECK_MISMATCH is latched releases it and tells the peer, and with SWAP offers the bar where the conditions hold, else is BUSY; in
SAFESTOP it does so on either unit, and SWAP is BUSY (the model's, assumption log 30). twin.unpair of a unit that holds the lease, or of another with
BAR_PEER low, leaves it unpaired without the lease, its DEPART to be repeated, out of FOLLOW. The peer's requests PAIR_INFO, XCHECK and RESOLVE are
served by their sequence: PAIR_INFO keeps the peer's fields and answers this unit's, XCHECK at the active is counted and latches, RESOLVE releases; an
unlisted opcode is BAD_OPCODE. REVERT_HOLD_EXPIRY on an active secondary makes a handover due. The checks of a pair's commit passed, it is refused
where the peer's fields differ, enters FOLLOW under a holder in contact, is refused on the secondary, and on the primary waits for BAR_PEER low for 1
ms, when LEASE_TAKE_AT_COMMIT leaves IDLE, SOLO with EPOCH 1; a check that fails is BAD_STATE with its item. (R55, R72, R423, R424, R425, R428, R435,
R439, R440, R441, R445, assumption log 30) -/
def Obligations.TwinCommandsAndTheCommitOfAPair : Prop :=
  (∀ (s : State) (c : Command), Doing s 0x1201 c →
    (listTarget c.payload 0 ≠ 0 → Answers .twinConfig s c { status := .badArg } s) ∧
    (∀ d, listTarget c.payload 0 = 0 → judgeList twinSpecs noRelation s.cfg.staged.twin (listItems c.payload 0) = .error d →
      Answers .twinConfig s c { status := .badArg, detail := d } s) ∧
    (∀ m, listTarget c.payload 0 = 0 → judgeList twinSpecs noRelation s.cfg.staged.twin (listItems c.payload 0) = .ok m →
      Answers .twinConfig s c { status := .ok } { s with cfg := { s.cfg with staged := { s.cfg.staged with twin := m } } })) ∧
  (∀ (s : State) (c : Command), Doing s 0x1203 c →
    (pairOn s = true → s.twin.lease ≠ .none_ → Answers .twinSwap s c { status := .ok } { s with twin := { s.twin with
      hand := s.twin.hand.or (some { trigger := 1, step := .due }) } }) ∧
    (pairOn s = false ∨ s.twin.lease = .none_ → Answers .twinSwap s c { status := .badState } s)) ∧
  (∀ (s : State) (c : Command) (k : Nat) (legal : Prop), Doing s 0x1204 c → k = uAt c.payload 0 1 →
    legal = (pairOn s = true ∧ (s.twin.lease ≠ .none_ ∨ s.sys.mode = .safestop) ∧
      latchedAt s { level := .region, source := 4 } = some .xcheckMismatch) →
    (1 < k → Answers .twinResolve s c { status := .badArg } s) ∧
    (k ≤ 1 → ¬legal → Answers .twinResolve s c { status := .badState } s) ∧
    (k ≤ 1 → legal → ∃ w, (∀ x, latchedAt w x ≠ some .xcheckMismatch) ∧ (∀ r ∈ w.faults.recs, r ∈ s.faults.recs) ∧
      EventsOnly { s with faults := w.faults, life := w.life } w ∧
      (k = 0 → Answers .twinResolve s c { status := .ok } (twinRequest 0xF004 (leBytes 4 0) w)) ∧
      (k = 1 → handoverFails 4 false (twinRequest 0xF004 (leBytes 4 1) w) ≠ 0 ∨ s.sys.mode = .safestop → Answers .twinResolve s c { status := .busy } s) ∧
      (k = 1 → handoverFails 4 false (twinRequest 0xF004 (leBytes 4 1) w) = 0 → s.sys.mode ≠ .safestop →
        Answers .twinResolve s c { status := .ok } (offerBar 4 (twinRequest 0xF004 (leBytes 4 1) w))))) ∧
  (∀ (s : State) (c : Command), Doing s 0x1202 c →
    (pairOn s = false ∨ (s.twin.lease = .none_ ∧ s.bar.peer = true) → Answers .twinUnpair s c { status := .badState } s) ∧
    (pairOn s = true → s.twin.lease ≠ .none_ ∨ s.bar.peer = false → Does .twinUnpair s c { status := .ok } fun u =>
      u.twin = { s.twin with
        paired := false, lease := .none_, fit := false, layers := 0, revertAt := none, hand := none, release := none, msgSeq := s.twin.msgSeq + 1
        repeats := s.twin.repeats ++ [(leaseMsg 6 0 s.twin.epoch.toNat (s.twin.msgSeq + 1).toNat s, 4)] } ∧
      (s.sys.mode ≠ .follow → u = { s with twin := u.twin, twinLink := u.twinLink, host := u.host, sent := u.sent }) ∧
      (s.sys.mode = .follow → u.sys.mode = .idle ∧ u.cfg = s.cfg ∧ u.job = s.job ∧ u.faults = s.faults ∧ u.win = s.win ∧ u.time = s.time ∧
        u.axes = s.axes ∧ u.bar = s.bar ∧ u.eth = s.eth))) ∧
  (∀ (op : Nat) (row : List Byte → Instr) (heard : List Byte → State → Reply × State),
    (op, row, heard) ∈ [(0xF001, .pairInfoReceived, pairInfoHeard), (0xF003, .xcheckReceived, xcheckHeard), (0xF004, Instr.resolveReceived, resolveHeard)] →
    (∀ (s : State) (f : List Byte), TmbIdle f s → exec (row f) s = .next (acceptTmb f s)) ∧
    (∀ (s v : State) (f m : List Byte) (t0 : Nat), TmbTaken f t0 m s v → tmbOp m = op → Gives (row f) s fun t =>
      Served m v (heard (tmbPayload m) v).1 (heard (tmbPayload m) v).2 t) ∧
    (∀ (s v : State) (f m : List Byte) (t0 : Nat), TmbTaken f t0 m s v → tmbOp m ≠ op → op ≠ 0xF001 → exec (row f) s = .next (acceptTmb f s))) ∧
  (∀ (s v : State) (f m : List Byte) (t0 : Nat), TmbTaken f t0 m s v →
    (answersTo 0xF001 v m = true → exec (.pairInfoReceived f) s = .next { v with twin := { v.twin with
      tmbOut := v.twin.tmbOut.filter (fun e => e.1 != tmbSeqOf m)
      peerInfo := if (tmbPayload m).length = 12 then some (tmbPayload m) else v.twin.peerInfo } }) ∧
    (0xF000 ≤ tmbOp m → tmbOp m ∉ tmbKnown → Gives (.pairInfoReceived f) s fun t => Served m v { status := .badOpcode } v t) ∧
    (tmbOp m ≠ 0xF001 → answersTo 0xF001 v m = false → tmbOp m < 0xF000 ∨ tmbOp m ∈ tmbKnown → exec (.pairInfoReceived f) s = .next (acceptTmb f s))) ∧
  (∀ (s : State) (p : List Byte),
    (p.length ≠ 12 → pairInfoHeard p s = ({ status := .badArg }, s)) ∧
    (p.length = 12 → pairInfoHeard p s = ({ status := .ok, payload := pairInfo (standingCv s) s }, { s with twin := { s.twin with peerInfo := some p } })) ∧
    (p.length ≠ 16 ∨ 15 < uAt p 0 4 → xcheckHeard p s = ({ status := .badArg }, s)) ∧
    (p.length = 16 → uAt p 0 4 ≤ 15 → pairOn s = false ∨ s.twin.lease = .none_ ∨ s.sys.profile ≠ .markhor ∨ s.sys.legacy = true →
      xcheckHeard p s = ({ status := .badState }, s)) ∧
    (p.length = 16 → uAt p 0 4 ≤ 15 → pairOn s = true → s.twin.lease ≠ .none_ → s.sys.profile = .markhor → s.sys.legacy = false → ∃ u,
      xcheckHeard p s = ({ status := .ok }, u) ∧ u.twin.xcheck = wrapAdd 32 s.twin.xcheck 1 ∧ u.cfg = s.cfg ∧ u.job = s.job ∧ u.win = s.win ∧
      u.bar = s.bar ∧ u.eth = s.eth ∧ (s.sys.mode ≠ .boot → s.sys.mode ≠ .keepalive → latchedAt s { level := .region, source := 4 } = none →
        latchedAt u { level := .region, source := 4 } = some .xcheckMismatch)) ∧
    (p.length ≠ 4 → resolveHeard p s = ({ status := .badArg }, s)) ∧
    (p.length = 4 → pairOn s = false → resolveHeard p s = ({ status := .badState }, s)) ∧
    (p.length = 4 → pairOn s = true → ∃ u, resolveHeard p s = ({ status := .ok }, u) ∧ (∀ x, latchedAt u x ≠ some .xcheckMismatch) ∧
      (∀ r ∈ u.faults.recs, r ∈ s.faults.recs) ∧ EventsOnly { s with faults := u.faults, life := u.life } u)) ∧
  (∀ (s : State) (due : Prop), due = (∃ t0, s.twin.revertAt = some t0 ∧ pairOn s = true ∧ s.twin.lease ≠ .none_ ∧ s.sys.straps.unitId = true ∧
      s.twin.peerFit = true ∧ revertHold s ≠ 0 ∧ t0 + 800000000 * revertHold s ≤ s.clock) →
    (due → exec .revertHoldExpiry s = .next { s with twin := { s.twin with hand := s.twin.hand.or (some { trigger := 3, step := .due }) } }) ∧
    (¬due → exec .revertHoldExpiry s = .next s)) ∧
  (∀ s : State, commitUnderWay s = none ∨ s.twin.takeAtCommit = false ∨ peerHolds s = true ∨ peerLow 800000 0 s = false →
    exec .leaseTakeAtCommit s = .next s) ∧
  (∀ (s : State) (c : Command), commitUnderWay s = some c → pairStaged s = true → inContact s = true → s.twin.peerInfo = none → requestOut 0xF001 s = true →
    exec .modeTransitionEnd s = .next s) ∧
  (∀ (s v : State) (c : Command) (row : Instr) (refused : Nat → Nat → State → Prop) (enters : Mode → LeaseState → BitVec 16 → State → Prop),
    commitUnderWay s = some c → Memory.wf s.mbx.area = true → s.sys.resetPending = false →
    (row = .modeTransitionEnd ∧ pairStaged s = true ∧ (inContact s = false ∨ s.twin.peerInfo ≠ none ∨ requestOut 0xF001 s = false)) ∨
      (row = .leaseTakeAtCommit ∧ s.twin.takeAtCommit = true ∧ peerHolds s = false ∧ peerLow 800000 0 s = true) →
    (∀ i n t, refused i n t ↔ ∃ bytes, bytes = responseBytes c { status := .badState, detail := i * 256 + n } s ∧
      t.sys.mode = s.sys.mode ∧ t.sys.transition = none ∧ t.twin = { s.twin with takeAtCommit := false } ∧ t.cfg = s.cfg ∧ t.axes = s.axes ∧ t.job = s.job ∧
      t.bar = s.bar ∧ t.time = s.time ∧ t.mbx.box[c.mb].state = .done ∧ t.mbx.box[c.mb].seq = c.seq ∧ Mem.readN t.mbx.area (respArea c.mb) bytes.length = bytes) →
    (∀ mode lease epoch t, enters mode lease epoch t ↔ ∃ bytes,
      bytes = responseBytes c { status := .ok, payload := leBytes 4 (configCv (asCommitted s)).toNat } s ∧ t.sys.mode = mode ∧ t.sys.transition = none ∧
      t.cfg.live = s.cfg.staged ∧ t.cfg.staged = s.cfg.staged ∧ t.cfg.cv = configCv (asCommitted s) ∧ t.bar.committed = true ∧
      t.twin.paired = pairStaged s ∧ t.twin.lease = lease ∧ t.twin.epoch = epoch ∧ t.twin.takeAtCommit = false ∧
      t.mbx.box[c.mb].state = .done ∧ Mem.readN t.mbx.area (respArea c.mb) bytes.length = bytes ∧ t.job = s.job ∧ t.eth = s.eth ∧ t.fawn = s.fawn ∧
      t.win = s.win ∧ t.time.tb = s.time.tb) →
    (∀ i n, commitItemA s (asCommitted s) = some (i, n) → Gives row s (refused i n)) ∧
    (∀ n, commitItemA s (asCommitted s) = none →
      readPatterns (asCommitted s) ((portsOn (asCommitted s)).filter (usesPattern (asCommitted s))) s = (.error n, v) → Gives row s (refused 0x0B n)) ∧
    (∀ pats, commitItemA s (asCommitted s) = none →
      readPatterns (asCommitted s) ((portsOn (asCommitted s)).filter (usesPattern (asCommitted s))) s = (.ok pats, v) →
      (∀ i n, commitItemB v (asCommitted s) = some (i, n) → Gives row s (refused i n)) ∧
      (commitItemB v (asCommitted s) = none →
        (pairStaged s = false → Gives row s (enters .idle .none_ s.twin.epoch)) ∧
        (pairStaged s = true →
          (inContact s = true → pairMismatch v = true → Gives row s (refused 0x0F 0)) ∧
          (inContact s = false ∨ pairMismatch v = false →
            (peerHolds s = true → Gives row s (enters .follow .none_ s.twin.epoch)) ∧
            (peerHolds s = false →
              (pairOn s = true → s.twin.lease ≠ .none_ → Gives row s (enters .idle s.twin.lease s.twin.epoch)) ∧
              (pairOn s = false ∨ s.twin.lease = .none_ →
                (s.sys.straps.unitId = true → Gives row s (refused 0x10 0)) ∧
                (s.sys.straps.unitId = false → row = .leaseTakeAtCommit → Gives row s (enters .idle .solo 1)) ∧
                (s.sys.straps.unitId = false → row = .modeTransitionEnd →
                  exec row s = .next { v with twin := { v.twin with takeAtCommit := true } }))))))))

/-- O49. HANDOVER_START of an active at a boundary whose due handover meets R442 sends HANDOVER and waits for READY; with a condition failed it stays
due, and only an event is raised. HANDOVER served on a standby whose mirror agrees leaves FOLLOW as the giver stands, with the snapshot's record, axes
and queue, and answers READY; one that does not agree answers BAD_STATE with the first that differs, keeps its mode and is unfit. READY makes the
giver, in IDLE, PRINT or HOLD still, pass the bar with EPOCH + 1 and enter FOLLOW; another answer, or 1 ms without one, leaves it as it was; a
receiver that waits 1 ms for PASS becomes unfit and, with a view, follows again. HANDOVER_TAKE_BAR of a receiver whose mode lets it hold the lease,
with BAR_PEER low, makes it HOLDER with the EPOCH passed, until 2 ms after the PASS, its drives starting without their first cycles, its axes as the
snapshot has them, and in HOLD where the giver was. Where a row does not fit, nothing changes but that the frame is accepted. (R38, R41, R422, R441,
R442, R443, R444, Table 15.6) -/
def Obligations.HandoversGiveTheBar : Prop :=
  (∀ (s : State) (due : Nat → Prop),
    (∀ tr, due tr ↔ (s.sys.mode = .idle ∨ s.sys.mode = .hold ∨ (s.sys.mode = .print ∧ s.swath.active = false)) ∧ dueTrigger s = some tr ∧
      pairOn s = true ∧ s.twin.lease ≠ .none_ ∧ moving s = false) →
    ((∀ tr, ¬ due tr) → exec .handoverStart s = .next s) ∧
    (∀ tr, due tr →
      (handoverFails tr true s ≠ 0 → Reaches .handoverStart s s) ∧
      (handoverFails tr true s = 0 → Gives .handoverStart s fun t =>
        t.twin = { s.twin with
          hand := some { trigger := tr, step := .offered, at_ := s.clock, epoch := s.twin.epoch.toNat }
          tmbSeq := if s.twinLink.linkUp then (s.twin.tmbSeq + 1) % 2 ^ 32 else s.twin.tmbSeq
          tmbOut := if s.twinLink.linkUp then s.twin.tmbOut ++ [(s.twin.tmbSeq, 0xF002, snapshotBytes tr s)] else s.twin.tmbOut } ∧
        (∃ e ∈ t.mbx.bg, e.2 = .handover) ∧
        t = { s with mbx := { s.mbx with bg := t.mbx.bg, bgNext := t.mbx.bgNext }, twin := t.twin, twinLink := t.twinLink, host := t.host
                     sent := t.sent }))) ∧
  (∀ (s : State) (f : List Byte), TmbIdle f s → exec (.handoverReceived f) s = .next (acceptTmb f s) ∧
    exec (.handoverReadyReceived f) s = .next (acceptTmb f s)) ∧
  (∀ (s v : State) (f m : List Byte) (t0 : Nat), TmbTaken f t0 m s v →
    (tmbOp m ≠ 0xF002 → exec (.handoverReceived f) s = .next (acceptTmb f s)) ∧
    (tmbOp m = 0xF002 → Gives (.handoverReceived f) s fun t => Served m v (handoverHeard (tmbPayload m) v).1 (handoverHeard (tmbPayload m) v).2 t)) ∧
  (∀ (s : State) (p : List Byte) (q : Snap) (r : PeerState) (bad : List (Reply × Prop)), q = snapOf p → r = peerOf q.record →
    bad = [({ status := .badArg }, snapGood p = false), ({ status := .badState }, mirrors s = false ∨ s.sys.resetPending = true), ({ status := .badState, detail := 1 }, r.job ≠ s.twin.peer.job),
      ({ status := .badState, detail := 2 }, r.pacLine ≠ s.twin.peer.pacLine), ({ status := .badState, detail := 3 }, r.swathFirst ≠ s.twin.peer.swathFirst),
      ({ status := .badState, detail := 4 }, q.epoch ≠ s.twin.epoch)] →
    (∀ (k : Nat) (a : Reply) (e : Prop), bad[k]? = some (a, e) → e → (∀ j < k, ∀ y : Reply × Prop, bad[j]? = some y → ¬ y.2) →
      ∃ u, handoverHeard p s = (a, u) ∧ EventsOnly { s with twin := { s.twin with
        fit := false, unfitCause := if s.twin.fit then 5 else s.twin.unfitCause } } u) ∧
    ((∀ y ∈ bad, ¬ y.2) → ∃ u, handoverHeard p s = ({ status := .ok }, u) ∧
      u.sys.mode = afterFollow { s with twin := { s.twin with peer := r } } ∧
      u.twin.hand = some { trigger := q.trigger, step := .received, at_ := s.clock, epoch := q.epoch.toNat, print := r.print, hold := r.held } ∧
      u.twin.peer = r ∧ u.twin.layers = r.layers ∧ u.twin.lease = s.twin.lease ∧ u.pace.armed = q.armed.isSome ∧
      u.pace.queue = (q.queue.map fun e => (e.1 + s.twin.delta, e.2)) ∧ u.pace.u = r.u ∧ u.pace.hi = r.u ∧
      u.pace.origin = r.origin + paceDen s * s.twin.delta ∧ u.cfg = s.cfg ∧ u.win = s.win ∧ u.faults = s.faults ∧ u.bar = s.bar ∧ u.time = s.time)) ∧
  (∀ (s v : State) (f m : List Byte) (t0 : Nat), TmbTaken f t0 m s v →
    (answersTo 0xF002 v m = false → exec (.handoverReadyReceived f) s = .next (acceptTmb f s)) ∧
    (∀ w, answersTo 0xF002 v m = true → w = { v with twin := { v.twin with tmbOut := v.twin.tmbOut.filter fun e => e.1 != tmbSeqOf m } } →
      (((∀ h, w.twin.hand = some h → h.step ≠ .offered) ∨ pairOn w = false ∨ w.twin.lease = .none_) → exec (.handoverReadyReceived f) s = .next w) ∧
      (∀ h, w.twin.hand = some h → h.step = .offered → pairOn w = true → w.twin.lease ≠ .none_ →
        (tmbOp m = Status.ok.code → mayPass w = true → Gives (.handoverReadyReceived f) s fun t => t.sys.mode = .follow ∧ t.twin.lease = .none_ ∧
          t.twin.epoch = w.twin.epoch + 1 ∧ t.twin.fit = false ∧ t.twin.vValid = false ∧ firePermit t = false ∧ t.twin.hand = none ∧ t.twin.layers = 0 ∧
          (∃ x, t.twin.repeats = w.twin.repeats ++ [(x, 4)] ∧ leaseType x = 4 ∧ leaseEpoch x = w.twin.epoch + 1) ∧
          (∀ e ∈ t.mbx.bg, e.2 ≠ .handover) ∧ t.cfg = w.cfg ∧ t.job = w.job ∧ t.win = w.win ∧ t.pace = w.pace ∧ t.audit = w.audit ∧ t.eth = w.eth) ∧
        (tmbOp m ≠ Status.ok.code ∨ mayPass w = false → exec (.handoverReadyReceived f) s =
          .next (bgEnd .handover { w with twin := { w.twin with hand := none } }))))) ∧
  (∀ s : State, (∀ h, s.twin.hand = some h → s.clock < h.at_ + 800000 ∨ (h.step ≠ .offered ∧ h.step ≠ .received)) →
    exec .handoverTimeout s = .next s) ∧
  (∀ (s : State) (h : Handover), s.twin.hand = some h → h.at_ + 800000 ≤ s.clock →
    (h.step = .offered → exec .handoverTimeout s = .next (bgEnd .handover { s with twin := { s.twin with hand := none } })) ∧
    (h.step = .received →
      (s.twin.vValid = false ∨ s.sys.mode ∉ [.idle, .print, .hold] ∨ pairOn s = false ∨ s.twin.lease ≠ .none_ ∨ s.sys.resetPending = true → Reaches .handoverTimeout s
        { s with twin := { s.twin with hand := none, fit := false, unfitCause := if s.twin.fit then 5 else s.twin.unfitCause } }) ∧
      (s.twin.vValid = true → s.sys.mode ∈ [.idle, .print, .hold] → pairOn s = true → s.twin.lease = .none_ → s.sys.resetPending = false → Gives .handoverTimeout s fun t =>
        t.sys.mode = .follow ∧ t.twin.hand = none ∧ t.twin.fit = false ∧ t.twin.lease = .none_ ∧ t.twin.epoch = s.twin.epoch ∧ t.cfg = s.cfg ∧
        t.job = s.job ∧ t.win = s.win ∧ t.pace = s.pace ∧ t.audit = s.audit ∧ t.eth = s.eth))) ∧
  (∀ (s : State) (due : Handover → Prop), (∀ h, due h ↔ s.twin.hand = some h ∧ h.step = .passed ∧ pairOn s = true ∧ s.twin.lease = .none_ ∧
      leaseTakeable s = true ∧ peerLow 800 0 s = true) →
    ((∀ h, ¬ due h) → exec .handoverTakeBar s = .next s) ∧
    (∀ h, due h → Gives .handoverTakeBar s fun t =>
      t.twin.epoch = BitVec.ofNat 16 h.epoch ∧ t.twin.e = h.at_ + 1600000 ∧ t.twin.hand = none ∧ t.twin.uncertain = false ∧ t.twin.fit = false ∧
      t.twin.layers = 0 ∧ (∀ i : Fin 2, t.drive[i].running = false ∧ t.drive[i].skipStartup = true) ∧
      (s.sys.mode ∉ [.print, .hold] ∨ latchedAt t chipInst = none → t.twin.lease = .holder ∧
        t.sys.mode = if s.sys.mode = .print ∧ h.hold = true ∧ linesLeft s = true then .hold else s.sys.mode) ∧
      (s.sys.mode ∉ [.print, .hold] → t.job = s.job ∧ t.pace = s.pace ∧ ∀ a : Fin 8,
        (axisOn s a.val = false → t.axes[a] = s.axes[a]) ∧
        (axisOn s a.val = true → t.axes[a] = { s.axes[a] with
          p := s.twin.peerAxes[a].raw * 2 ^ 32, v := 0, a := 0, refOffset := s.twin.peerAxes[a].refOffset
          referenced := s.twin.peerAxes[a].referenced, move := none, pending := none, stopping := false, standstill := true, stillAt := s.clock
          holds := if s.twin.peerAxes[a].held then (if h.hold && jobAxis s a.val then [.job] else [.host]) else []
          heldMove := if s.twin.peerAxes[a].held then some (.target s.twin.peerAxes[a].target s.twin.peerAxes[a].speed.toNat) else none })) ∧
      t.cfg = s.cfg ∧ t.win = s.win ∧ t.bar = s.bar ∧ t.eth = s.eth))

/-- O50. A row for the records of one kind acts on the oldest record that waits, after taking the MIRROR frame it is given, when it is of that kind:
on a unit that does not mirror the record is dropped, and with none of that kind first only the frame is taken. On one that mirrors: an AXIS record
becomes the copy of its axis. A STATE record becomes the peer's state, and the difference of positions is formed with the unit's own sample; fitness
is kept, or returns at a swath start or outside PRINT, only with every condition holding; a swath starts with the active's, line 0 being staged, and
ends with it. A SLICE record of a slice held changes nothing, of another makes the unit unfit. A LINE record of a swath marks its line fired on its
port and makes the unit unfit unless the line was prepared, and in Markhor unless HLCV is equal, where XCHECK_MISMATCH is raised; without a swath it
makes the unit unfit. A SWAP record makes each swap it asks for whose table is READY with an equal CV, of a map or a bank once its port has come to
the line named, and no other, where the unit becomes unfit; swaps that wait are made at the latest at the next swath. MIRROR_STATE_TIMER in FOLLOW
keeps the unit's own sample and checks fitness, and on the active sends its STATE record, each at a multiple of 100 µs alone. (R436, R437, R438, R439,
Table 15.5) -/
def Obligations.TheStandbyMirrorsTheActive : Prop :=
  (∀ (s : State) (f : List Byte) (e : PrepErr) (k : Nat) (i : Instr),
    (k, i) ∈ [(1, Instr.lineRecord f e), (2, .swapRecord f), (3, .sliceRecord f), (4, .stateRecord f), (5, .axisRecord f)] →
    ((∀ b ∈ (acceptMirror f s).twinLink.rxMirror.head?, uAt b 0 1 ≠ k) → exec i s = .next (acceptMirror f s)) ∧
    (∀ (b : List Byte) (bs : List (List Byte)), (acceptMirror f s).twinLink.rxMirror = b :: bs → uAt b 0 1 = k → mirrors (acceptMirror f s) = false →
      exec i s = .next { acceptMirror f s with twinLink := { (acceptMirror f s).twinLink with rxMirror := bs } })) ∧
  (∀ (s v : State) (f b : List Byte) (bs : List (List Byte)), (acceptMirror f s).twinLink.rxMirror = b :: bs → mirrors (acceptMirror f s) = true →
    v = { acceptMirror f s with twinLink := { (acceptMirror f s).twinLink with rxMirror := bs } } →
    (uAt b 0 1 = 5 → exec (.axisRecord f) s = .next { v with
      twin := { v.twin with peerAxes := updAt v.twin.peerAxes (uAt b 1 1 % 8) fun _ => peerAxisOf b } }) ∧
    (∀ (r : PeerState) (starts back : Prop), uAt b 0 1 = 4 → r = peerOf b → starts = (r.swathActive = true ∧ v.twin.peer.swathActive = false) →
      back = (starts ∨ r.print = false) → Gives (.stateRecord f) s fun t =>
      t.twin.peer = r ∧ t.twin.layers = r.layers ∧ (starts → t.twin.peerLines = Vector.replicate 16 none) ∧ (¬starts → t.twin.peerLines = v.twin.peerLines) ∧
      ((∀ e ∈ v.twin.samples, r.time < e.1) → t.twin.delta = v.twin.delta ∧ t.twin.deltaSeen = v.twin.deltaSeen) ∧
      (∀ e, (v.twin.samples.find? fun e => decide (e.1 ≤ r.time)) = some e → t.twin.delta = diff48 e.2 r.x ∧ t.twin.deltaSeen = true ∧
        (v.twin.deltaSeen = true → pnat v.job.params 6 0 2 + 1 < (diff48 (diff48 e.2 r.x) v.twin.delta).natAbs → t.twin.fit = false ∧ t.twin.deltaOk = false)) ∧
      (t.twin.fit = true → fitCause t = 0) ∧ (v.twin.fit = false → back → fitCause t = 0 → t.twin.fit = true) ∧
      (v.twin.fit = false → ¬back → t.twin.fit = false) ∧
      (¬starts → v.swath.active = true → r.swathActive = true ∨ r.held = true → t.swath = v.swath) ∧
      (v.swath.active = true → r.swathActive = false → r.held = false → t.swath.active = false ∧ t.twin.fit = false) ∧
      (¬starts → v.swath.active = false → t.swath = v.swath) ∧
      (∀ q, starts → v.swath.active = false → v.twin.swaps = [] → v.swath.plans.head? = some q → q.first = r.swathFirst →
        underrunHead { v with swath := { v.swath with active := true, kind := .job, first := q.first, ls := q.ls
                                                      line := v.swath.line.map fun l => { l with readLine := q.first } } } 0 = none →
        t.swath.active = true ∧ t.swath.first = r.swathFirst ∧ t.swath.ls = q.ls) ∧
      (starts → v.swath.active = false → t.twin.swaps = []) ∧ (¬starts ∨ v.twin.swaps = [] → t.wave = v.wave) ∧
      t.twin.lease = v.twin.lease ∧ t.sys.mode = .follow ∧ t.cfg = v.cfg ∧ t.job = v.job ∧ t.win = v.win ∧ t.bar = v.bar ∧ t.audit = v.audit ∧ t.axes = v.axes ∧
      t.heads = v.heads ∧ t.pace = v.pace ∧ t.eth = v.eth ∧ t.time = v.time ∧ t.faults.recs = v.faults.recs ∧ t.twinLink = v.twinLink) ∧
    (uAt b 0 1 = 3 →
      ((∃ q ∈ v.codec.posted, q.no = uAt b 4 4 ∧ q.first = uAt b 8 4 ∧ q.hdrCv = uAt b 12 4) → exec (.sliceRecord f) s = .next v) ∧
      ((∀ q ∈ v.codec.posted, ¬(q.no = uAt b 4 4 ∧ q.first = uAt b 8 4 ∧ q.hdrCv = uAt b 12 4)) → Reaches (.sliceRecord f) s { v with twin := { v.twin with
        sliceMatch := false, fit := false, unfitCause := if v.twin.fit then 4 else v.twin.unfitCause } })) ∧
    (∀ (p : Fin 16) (err : PrepErr), uAt b 0 1 = 1 → uAt b 1 1 % 16 = p.val →
      (v.swath.active = false → Reaches (.lineRecord f err) s { v with twin := { v.twin with
        peerLines := v.twin.peerLines.set p (some (uAt b 4 4, uAt b 8 4)), lineMatch := false, fit := false
        unfitCause := if v.twin.fit then 5 else v.twin.unfitCause } }) ∧
      (v.swath.active = true → Gives (.lineRecord f err) s fun t =>
        t.twin.peerLines[p] = some (uAt b 4 4, uAt b 8 4) ∧ t.cfg = v.cfg ∧ t.win = v.win ∧ t.bar = v.bar ∧ t.audit = v.audit ∧ t.eth = v.eth ∧
        t.job = { v.job with pacLine := t.job.pacLine } ∧
        ((∀ h, (p.val, uAt b 8 4, h) ∉ v.twin.shadow) → t.twin.fit = false ∧ t.twin.lineMatch = false ∧ t.swath.line[p].fired = uAt b 4 4 + 1) ∧
        (∀ h, (v.twin.shadow.find? fun e => e.1 == p.val && e.2.1 == uAt b 8 4) = some (p.val, uAt b 8 4, h) →
          (v.sys.profile ≠ .markhor ∨ v.sys.legacy = true ∨ h = uAt b 12 4 → t.swath.line[p].fired = uAt b 4 4 + 1 ∧
            (∀ q : Fin 16, q ≠ p → t.swath.line[q].fired = v.swath.line[q].fired) ∧ t.sys.mode = .follow ∧ t.twin.xcheck = v.twin.xcheck ∧
            t.twin.lineMatch = v.twin.lineMatch ∧ t.faults.recs = v.faults.recs ∧ t.axes = v.axes ∧ (v.twin.swaps = [] → t.wave = v.wave) ∧ t.heads = v.heads ∧ t.pace = v.pace ∧
            t.codec = v.codec ∧ t.twinLink = v.twinLink) ∧
          (v.sys.profile = .markhor → v.sys.legacy = false → h ≠ uAt b 12 4 → t.twin.fit = false ∧ t.twin.lineMatch = false ∧
            t.twin.xcheck = wrapAdd 32 v.twin.xcheck 1 ∧ (latchedAt v (regionInst 0x61) = none → latchedAt t (regionInst 0x61) = some .xcheckMismatch ∧
              t.faults.discard.isSome = true ∧ t.sys.mode = .follow))))) ∧
    (∀ (p : Fin 16) (fl cv first : Nat) (gOk wOk mOk later : Prop), uAt b 0 1 = 2 → fl = uAt b 1 1 → cv = uAt b 8 4 → fl % 16 = p.val →
      first = uAt b 4 4 → later = (v.swath.active = true ∧ v.swath.line[p].prep < first) →
      gOk = (v.swath.grey[p].shadow = .ready ∧ v.swath.grey[p].built.map (·.cv) = some cv) →
      wOk = (v.wave[p].shadow = .ready ∧ (shadowBank v.wave[p]).map (·.cv) = some cv) →
      mOk = (v.swath.subst.shadow = .ready ∧ v.swath.subst.built.map (·.cv) = some cv) → Gives (.swapRecord f) s fun t =>
      (∀ g, bitOf fl 5 = true → gOk → ¬later → v.swath.grey[p].built = some g →
        t.swath.grey[p] = { v.swath.grey[p] with active := some g, shadow := .empty, built := none, pending := none, side := 1 - v.swath.grey[p].side }) ∧
      (bitOf fl 5 = true → gOk → later → (false, p.val, first, bitOf fl 7) ∈ t.twin.swaps ∧
        t.swath.grey[p] = { v.swath.grey[p] with pending := some { required := false, link := bitOf fl 7 } }) ∧
      (bitOf fl 5 = false ∨ ¬gOk → t.swath.grey[p] = v.swath.grey[p]) ∧ (∀ q : Fin 16, q ≠ p → t.swath.grey[q] = v.swath.grey[q] ∧ t.wave[q] = v.wave[q]) ∧
      (bitOf fl 6 = true → wOk → later → (true, p.val, first, bitOf fl 7) ∈ t.twin.swaps ∧ t.wave[p] = { v.wave[p] with pending := some false }) ∧
      (∀ e ∈ t.twin.swaps, e ∈ v.twin.swaps ∨ (later ∧ e.2 = (p.val, first, bitOf fl 7))) ∧ (∀ e ∈ v.twin.swaps, e ∈ t.twin.swaps) ∧
      (∀ k, bitOf fl 6 = true → wOk → ¬later → shadowBank v.wave[p] = some k → ∃ up,
        t.wave[p] = restMoveTo k up { v.wave[p] with active := 1 - v.wave[p].active, shadow := .empty, pending := none }) ∧
      (bitOf fl 6 = false ∨ ¬wOk → t.wave[p] = v.wave[p]) ∧
      (∀ m, bitOf fl 4 = true → mOk → v.swath.subst.built = some m → t.swath.subst.active = m ∧ t.swath.subst.shadow = .empty ∧ t.swath.subst.built = none ∧
        t.swath.subst.pending = none) ∧
      (bitOf fl 4 = false ∨ ¬mOk → t.swath.subst = v.swath.subst) ∧
      ((bitOf fl 5 = true → gOk) → (bitOf fl 6 = true → wOk) → (bitOf fl 4 = true → mOk) → t.twin = { v.twin with swaps := t.twin.swaps }) ∧
      ((bitOf fl 5 = true ∧ ¬gOk) ∨ (bitOf fl 6 = true ∧ ¬wOk) ∨ (bitOf fl 4 = true ∧ ¬mOk) → t.twin = { v.twin with
        swaps := t.twin.swaps, swapMatch := false, fit := false, unfitCause := if v.twin.fit then 7 else v.twin.unfitCause }) ∧
      EventsOnly { v with swath := { v.swath with grey := t.swath.grey, subst := t.swath.subst }, wave := t.wave, twin := t.twin, free := t.free } t)) ∧
  (∀ s : State, (2 ≤ s.time.tb.toNat % 100000 → exec .mirrorStateTimer s = .next s) ∧
    (s.time.tb.toNat % 100000 < 2 →
      (s.sys.mode = .follow → Gives .mirrorStateTimer s fun t =>
        EventsOnly { s with twin := { s.twin with
          samples := ((s.time.tb.toNat, pacingX s) :: s.twin.samples).take 16, fit := t.twin.fit, unfitCause := t.twin.unfitCause } } t ∧
        (t.twin.fit = true ↔ s.twin.fit = true ∧ fitCause s = 0)) ∧
      (s.sys.mode ≠ .follow → isActive s = true → exec .mirrorStateTimer s = .next (sendMirror (stateRecord s) s)) ∧
      (s.sys.mode ≠ .follow → isActive s = false → exec .mirrorStateTimer s = .next s)))

/-- O51. time.config merges a good list, and with SOURCE FREE idles the PTP slave, of which the
count of messages ignored, the sequence of its requests and the time before the next stay. time.set and time.adjust STEP need a host discipline and a mode that
allows a step, and put TB to the value; with no slot armed or due nothing else changes but events. time.adjust SLEW and RATE, within ±1000 ppm or ±1 s,
replace the offset to remove or r. time.sched arms the slot named, or the lowest free one, for a time at or after TB; runs an occurrence late within
LATE_WIN at once; and is EXPIRED beyond it. time.cancel frees an armed slot and answers its run count; time.read answers the records and changes
nothing. Every refusal leaves the state alone. (R456, R457, R458, R466, R468, R470, R471, R521) -/
def Obligations.TheTimebaseAndSchedulerCommands : Prop :=
  (∀ (s : State) (c : Command), Doing s 0x1301 c → (listTarget c.payload 0 ≠ 0 → Answers .timeConfig s c { status := .badArg } s) ∧
    (listTarget c.payload 0 = 0 →
      (∀ d, judgeList timeSpecs timeRelation s.time.params (listItems c.payload 0) = .error d → Answers .timeConfig s c { status := .badArg, detail := d } s) ∧
      (∀ m, judgeList timeSpecs timeRelation s.time.params (listItems c.payload 0) = .ok m →
        (pon m 1 0 false = true → Answers .timeConfig s c { status := .ok } { s with time := { s.time with params := m } }) ∧
        (pon m 1 0 false = false → Answers .timeConfig s c { status := .ok }
          { s with time := { s.time with params := m, ptp := { ignored := s.time.ptp.ignored, dreqSeq := s.time.ptp.dreqSeq, dreqNext := s.time.ptp.dreqNext } } })))) ∧
  (∀ (s : State) (c : Command), Doing s 0x1302 c →
    (hostSteers s = false ∨ stepAllowed s = false → Answers .timeSet s c { status := .badState } s) ∧
    (hostSteers s = true → stepAllowed s = true → Answers .timeSet s c { status := .ok } (stepTb 2 (uAt c.payload 0 8) s))) ∧
  (∀ (s : State) (cause new : Nat), (∀ i < 64, (nthOr s.time.slots i {}).armed = false ∧ (nthOr s.time.slots i {}).due = none) →
    EventsOnly { s with time := { s.time with tb := BitVec.ofNat 64 new } } (stepTb cause new s)) ∧
  (∀ (s : State) (c : Command) (v : Int), Doing s 0x1303 c → v = iAt c.payload 8 8 →
    (3 ≤ uAt c.payload 0 1 → Answers .timeAdjust s c { status := .badArg } s) ∧
    (uAt c.payload 0 1 = 0 → (hostSteers s = false ∨ stepAllowed s = false → Answers .timeAdjust s c { status := .badState } s) ∧
      (hostSteers s = true → stepAllowed s = true →
        Answers .timeAdjust s c { status := .ok } (stepTb 3 (ofSigned 64 (s.time.tb.toNat + v)) s))) ∧
    (0 < uAt c.payload 0 1 → uAt c.payload 0 1 < 3 → 1000000000 < v.natAbs → Answers .timeAdjust s c { status := .badArg, detail := 8 } s) ∧
    (v.natAbs ≤ 1000000000 → 0 < uAt c.payload 0 1 → uAt c.payload 0 1 < 3 → hostSteers s = false → Answers .timeAdjust s c { status := .badState } s) ∧
    (v.natAbs ≤ 1000000000 → hostSteers s = true → (uAt c.payload 0 1 = 1 →
        Answers .timeAdjust s c { status := .ok } { s with time := { s.time with slew := v * 65536 * 65536, slewing := true } }) ∧
      (uAt c.payload 0 1 = 2 → Answers .timeAdjust s c { status := .ok } { s with time := { s.time with r := v } }))) ∧
  (∀ (s : State) (c : Command) (x : Slot) (d : Int), Doing s 0x1304 c → x = slotOf c.payload → d = tbDiff x.t s.time.tb.toNat →
    (∀ k, schedRange c.payload s = some k → Answers .timeSched s c { status := .badArg, detail := k } s) ∧
    (schedRange c.payload s = none → s.sys.mode = .follow → firesOrJob x.kind = true → Answers .timeSched s c { status := .badState } s) ∧
    (schedRange c.payload s = none → (s.sys.mode = .follow → firesOrJob x.kind = false) →
      (uAt c.payload 0 1 ≠ 255 → (nthOr s.time.slots (uAt c.payload 0 1) {}).armed = true → Answers .timeSched s c { status := .busy } s) ∧
      (uAt c.payload 0 1 = 255 → (∀ i < 64, (nthOr s.time.slots i {}).armed = true) → Answers .timeSched s c { status := .noSpace } s) ∧
      (∀ i < 64, (nthOr s.time.slots i {}).armed = false →
        (uAt c.payload 0 1 = i ∨ uAt c.payload 0 1 = 255 ∧ ∀ j < i, (nthOr s.time.slots j {}).armed = true) →
        (0 ≤ d → Answers .timeSched s c { status := .ok, payload := leBytes 1 i ++ zeros 7 }
          (setSlot i (fun _ => if d = 0 then { x with due := some s.clock } else x) s)) ∧
        (d < 0 → -d ≤ x.lateWin → Answers .timeSched s c { status := .late, payload := leBytes 1 i ++ zeros 3 ++ leBytes 4 d.natAbs }
          (runOccurrence i (some d.natAbs) (setSlot i (fun _ => x) s))) ∧
        (x.lateWin < -d → Answers .timeSched s c { status := .expired } s)))) ∧
  (∀ (s : State) (c : Command) (i : Nat), Doing s 0x1305 c → i = uAt c.payload 0 1 →
    (63 < i → Answers .timeCancel s c { status := .badArg } s) ∧
    (i ≤ 63 → (nthOr s.time.slots i {}).armed = false → Answers .timeCancel s c { status := .badState } s) ∧
    (i ≤ 63 → (nthOr s.time.slots i {}).armed = true → Does .timeCancel s c { status := .ok, payload := leBytes 4 (nthOr s.time.slots i {}).run }
      fun u => EventsOnly (setSlot i (fun x => { x with armed := false }) s) u)) ∧
  (∀ (s : State) (c : Command) (i n : Nat), Doing s 0x1306 c → i = uAt c.payload 0 1 → n = uAt c.payload 1 1 →
    (63 < i → Answers .timeRead s c { status := .badArg } s) ∧
    (i ≤ 63 → n = 0 ∨ 16 < n ∨ 64 < i + n → Answers .timeRead s c { status := .badArg, detail := 1 } s) ∧
    (1 ≤ n → n ≤ 16 → i + n ≤ 64 → Answers .timeRead s c
      { status := .ok, payload := (List.range n).flatMap fun k => slotRecord (nthOr s.time.slots (i + k) {}) } s))

/-- O52. The slot SCHEDULED_OCCURRENCE takes is due, and among due slots that need no wait it fell due in the earliest clock and then has the lowest
number; an action that a discard cancels runs in a later clock than it falls due in; a job action waits while a command executes. With no such slot
nothing happens. An EVENT counts a run; an OUTPUT also sets its ball as OP says, while the outputs are driven; a LINE outside MAINTAIN with the SCHED
source is counted dropped; a job action is judged by its command's rules; each slot then goes on by PERIOD and COUNT. OUTPUT_PULSE_END and
PPS_PULSE_END end a pulse no sooner than its width; PPS_PULSE raises TM_PPS at a whole second while it is enabled, the outputs are driven and the
timebase is not stopped. TIME_SLEW_END leaves r alone to steer. Under TWIN the standby sends one ping, reporting a lost one, the active answers one
with an echo, and the standby slews by the offset, or steps beyond 1 µs and becomes unfit; a row with no message of its kind first takes the frame
alone. (R457, R459, R466, R467, R468, R469, R471, R475, R476) -/
def Obligations.OccurrencesRunAndPulsesEnd : Prop :=
  (∀ (s : State) (i : Nat), dueSlot s = some i → i < 64 ∧ slotDue s (nthOr s.time.slots i {}) = true ∧
    ∀ j < 64, slotDue s (nthOr s.time.slots j {}) = true → (nthOr s.time.slots j {}).kind < 4 →
      (nthOr s.time.slots i {}).due.getD 0 ≤ (nthOr s.time.slots j {}).due.getD 0 ∧
      ((nthOr s.time.slots i {}).due.getD 0 = (nthOr s.time.slots j {}).due.getD 0 → i ≤ j)) ∧
  (∀ (s : State) (x : Slot), slotDue s x = true ↔ x.armed = true ∧ isStopped s 0x63 = false ∧ ∃ t, x.due = some t ∧ (firesOrJob x.kind = true → t < s.clock)) ∧
  (∀ (s : State) (i : Nat), dueSlot s = some i → 4 ≤ (nthOr s.time.slots i {}).kind → s.mbx.current = none ∧ s.sys.phase = .running) ∧
  (∀ s : State, dueSlot s = none → exec .scheduledOccurrence s = .next s) ∧
  (∀ (s : State) (i k op : Nat) (f : Nat → State → Reply × State), (k, op, f) ∈ [(4, 0x0302, jobStartWith), (5, 0x0303, jobHoldWith), (6, 0x0304, jobResumeWith)] →
    (∀ st, turnedAway op s = some st → jobAction k i s = (st, s)) ∧ (turnedAway op s = none → jobAction k i s = ((f i s).1.status, (f i s).2))) ∧
  (∀ (s : State) (i : Nat) (x : Slot), dueSlot s = some i → x = nthOr s.time.slots i {} →
    (x.kind = 1 → Reaches .scheduledOccurrence s (nextOccurrence i (setSlot i (fun x => { x with run := satAdd 32 x.run 1 }) s))) ∧
    (x.kind = 2 → Reaches .scheduledOccurrence s
      (nextOccurrence i (setSlot i (fun x => { x with run := satAdd 32 x.run 1 }) (applyOutput x.out x.op x.width s)))) ∧
    (x.kind = 3 → s.sys.mode = .maintain → s.pace.source = .sched → Reaches .scheduledOccurrence s
      (nextOccurrence i (setSlot i (fun x => { x with run := satAdd 32 x.run 1 }) (maintLineDue s)))) ∧
    (x.kind = 3 → (s.sys.mode ≠ .maintain ∨ s.pace.source ≠ .sched) → Reaches .scheduledOccurrence s
      (nextOccurrence i (setSlot i (fun x => { x with dropped := satAdd 32 x.dropped 1 }) s))) ∧
    (4 ≤ x.kind → Reaches .scheduledOccurrence s
      (nextOccurrence i (setSlot i (fun x => { x with run := satAdd 32 x.run 1 }) (jobAction x.kind i s).2)))) ∧
  (∀ (s : State) (i : Nat) (x y : Slot), i < 64 → x = nthOr s.time.slots i {} → y = nthOr (nextOccurrence i s).time.slots i {} →
    (x.period = 0 ∨ x.left = some 1 → x.armed = true → y.armed = false) ∧
    (x.period ≠ 0 → x.left = none → y = { x with t := (x.t + x.period) % 2 ^ 64, due := none }) ∧
    (∀ n, x.period ≠ 0 → x.left = some (n + 2) → y = { x with t := (x.t + x.period) % 2 ^ 64, due := none, left := some (n + 1) })) ∧
  (∀ (s : State) (n op w : Nat), outputsDriven s = false → applyOutput n op w s = s) ∧
  (∀ (s : State) (n : Fin 4) (w : Nat), outputsDriven s = true → (applyOutput n.val 0 w s).time.outs[n] = true ∧ (applyOutput n.val 1 w s).time.outs[n] = false ∧
    (applyOutput n.val 2 w s).time.outs[n] = !s.time.outs[n] ∧ (applyOutput n.val 3 w s).time.outs[n] = true ∧
    (applyOutput n.val 3 w s).time.pulseEnd[n] = some (s.clock + ceilDiv (4 * w) 5)) ∧
  (∀ (s : State) (n : Fin 4), (∀ t, s.time.pulseEnd[n] = some t → t ≤ s.clock → exec (.outputPulseEnd n) s =
      .next { s with time := { s.time with outs := s.time.outs.set n false, pulseEnd := s.time.pulseEnd.set n none } }) ∧
    ((∀ t, s.time.pulseEnd[n] = some t → s.clock < t) → exec (.outputPulseEnd n) s = .next s)) ∧
  (∀ s : State, (pon s.time.params 12 0 false = true → outputsDriven s = true → isStopped s 0x63 = false → s.time.tb.toNat % 1000000000 < 2 →
      exec .ppsPulse s = .next { s with time := { s.time with pps := true, ppsAt := s.clock } }) ∧
    (pon s.time.params 12 0 false = false ∨ outputsDriven s = false ∨ isStopped s 0x63 = true ∨ 2 ≤ s.time.tb.toNat % 1000000000 →
      exec .ppsPulse s = .next s) ∧
    (s.time.pps = true → s.time.ppsAt + 80000000 ≤ s.clock → exec .ppsPulseEnd s = .next { s with time := { s.time with pps := false } }) ∧
    (s.time.pps = false ∨ s.clock < s.time.ppsAt + 80000000 → exec .ppsPulseEnd s = .next s) ∧
    (s.time.slewing = true → s.time.slew = 0 → exec .timeSlewEnd s = .next { s with time := { s.time with slewing := false } }) ∧
    (s.time.slewing = false ∨ s.time.slew ≠ 0 → exec .timeSlewEnd s = .next s)) ∧
  (∀ (s : State) (n : Nat), n = (s.time.pingSeq + 1) % 2 ^ 32 →
    (discipline s ≠ .twin ∨ s.twinLink.linkUp = false → exec .timePingTimer s = .next s) ∧
    (discipline s = .twin → s.twinLink.linkUp = true → Reaches .timePingTimer s (sendTmb (tmbMessage 0xF010 n (leBytes 4 n ++ zeros 8)) { s with
      time := { s.time with pingSeq := n, pingOut := true, exchange := s.time.exchange && !s.time.pingOut } }))) ∧
  (∀ (s : State) (f : List Byte), TmbIdle f s → exec (.timePingReceived f) s = .next (acceptTmb f s) ∧ exec (.timeEchoReceived f) s = .next (acceptTmb f s)) ∧
  (∀ (s v : State) (f m : List Byte) (t2 : Nat), TmbTaken f t2 m s v →
    (tmbOp m ≠ 0xF010 → exec (.timePingReceived f) s = .next (acceptTmb f s)) ∧
    (tmbOp m = 0xF010 → isActive v = false ∨ m.length ≠ 28 → exec (.timePingReceived f) s = .next v) ∧
    (tmbOp m = 0xF010 → isActive v = true → m.length = 28 → exec (.timePingReceived f) s = .next (sendTmb (tmbMessage 0xF011 (uAt m 4 4)
      (leBytes 4 (uAt m 16 4) ++ leBytes 8 (uAt m 20 8) ++ leBytes 8 t2 ++ zeros 8 ++ leBytes 4 (bitAt (ptpLocked v) 0))) v))) ∧
  (∀ (s v : State) (f m : List Byte) (t4 : Nat), TmbTaken f t4 m s v →
    (tmbOp m ≠ 0xF011 → exec (.timeEchoReceived f) s = .next (acceptTmb f s)) ∧
    (tmbOp m = 0xF011 → discipline v ≠ .twin ∨ m.length ≠ 48 ∨ v.time.pingOut = false ∨ uAt m 16 4 ≠ v.time.pingSeq →
      exec (.timeEchoReceived f) s = .next v) ∧
    (∀ d : Int, tmbOp m = 0xF011 → discipline v = .twin → m.length = 48 → v.time.pingOut = true → uAt m 16 4 = v.time.pingSeq → d = echoTheta m t4 →
      (d.natAbs ≤ 1000 → Reaches (.timeEchoReceived f) s { v with time := { v.time with
        twinTheta := d, activeLocked := bitOf (uAt m 44 4) 0, exchange := true, pingOut := false, slew := d * 65536 * 65536, slewing := true } }) ∧
      (1000 < d.natAbs → Gives (.timeEchoReceived f) s fun t =>
        t.time.tb = BitVec.ofNat 64 (ofSigned 64 (v.time.tb.toNat + d)) ∧ t.time.twinTheta = d ∧ t.twin.fit = false ∧ t.twin.deltaOk = false ∧ t.cfg = v.cfg ∧
        ((∀ i < 64, (nthOr v.time.slots i {}).armed = false ∧ (nthOr v.time.slots i {}).due = none) → EventsOnly { v with
          time := { v.time with tb := BitVec.ofNat 64 (ofSigned 64 (v.time.tb.toNat + d)), twinTheta := d, activeLocked := bitOf (uAt m 44 4) 0
                                exchange := true, pingOut := false }
          twin := { v.twin with deltaOk := false, deltaSeen := false, samples := [], fit := false
                                unfitCause := if v.twin.fit then 8 else v.twin.unfitCause } } t))))

/-- O53. Each message row takes the oldest message given to the slave, of its type, while PTP runs, and without one changes nothing. An Announce of
its own clock, or of 255 steps or more, changes nothing else; another is kept, and the best qualified master is selected where there is none, kept
where it is the one selected, and HOLDOVER entered where it is another. A two-step Sync of the master waits for its Follow_Up; with the origin time
known the offset is half of what remains of the master's delay. It moves r within ±1000 ppm, and in acquisition beyond STEP_T is removed by a step
where the mode allows one and the unit has not left TWIN since it was last LOCKED, else by slewing; nothing moves but under PTP. 16 offsets in a row
within LOCK_T lock; 4 in a row beyond four times LOCK_T unlock. A Delay_Resp to the last Delay_Req gives the way back. A Sync, Follow_Up or Delay_Resp
that does not belong is dropped. ANNOUNCE_TIMEOUT enters HOLDOVER, which selects no master, keeps the integral term as r where PTP steers and stops a
slew. PTP_DELAY_REQ_TIMER, once its wait is over, queues one Delay_Req of the slave's own. (R457, R463, R464, R465, R473, R477, Table 16.3) -/
def Obligations.ThePtpSlaveFollowsItsMaster : Prop :=
  (∀ (type a : Nat) (m : List Byte) (s u : State), takeMessage type s = some ((a, m), u) ↔ ethRuns s = true ∧ timeSourcePtp s = true ∧
    ptpType m = type ∧ ∃ rest, s.time.ptp.inbox = (a, m) :: rest ∧ u = { s with time := { s.time with ptp := { s.time.ptp with inbox := rest } } }) ∧
  (∀ s : State, (takeMessage 0xB s = none → exec .ptpAnnounceReceived s = .next s) ∧ (takeMessage 8 s = none → exec .ptpFollowUpReceived s = .next s) ∧
    (takeMessage 9 s = none → exec .ptpDelayRespReceived s = .next s) ∧
    ∀ j : Int, (takeMessage 0 s = none ∨ 60 < j.natAbs → exec (.ptpSyncReceived j) s = .next s)) ∧
  (∀ (s u v : State) (a : Nat) (m : List Byte) (f : Foreign), takeMessage 0xB s = some ((a, m), u) → f = announcedBy u m →
    (ptpPort m / 65536 = clockId u ∨ 255 ≤ beAt m 61 2 → exec .ptpAnnounceReceived s = .next u) ∧
    (ptpPort m / 65536 ≠ clockId u → beAt m 61 2 < 255 → v = setPtp (fun q => { q with
        foreign := f :: q.foreign.filter fun x => x.port ≠ f.port, announceAt := if q.master = some f.port then u.clock else q.announceAt }) u →
      (bestMaster v = none → exec .ptpAnnounceReceived s = .next v) ∧
      (∀ b, bestMaster v = some b → (v.time.ptp.master = some b.port → exec .ptpAnnounceReceived s = .next v) ∧
        (v.time.ptp.master = none → Reaches .ptpAnnounceReceived s (setPtp (fun q => { q with
          state := .acquiring, slewSaid := false, master := some b.port, announceAt := v.clock, awaiting := none, t3 := none, back := none, syncs := 0, good := 0, bad := 0 }) v)) ∧
        (∀ k, v.time.ptp.master = some k → b.port ≠ k → exec .ptpAnnounceReceived s = .next (enterHoldover v))))) ∧
  (∀ s : State, s.time.ptp.master = none → exec .announceTimeout s = .next s) ∧
  (∀ (s : State) (k : Nat) (iv : Int), s.time.ptp.master = some k → iv = ((s.time.ptp.foreign.find? (fun f => f.port = k)).map (·.interval)).getD 1 →
    (s.time.ptp.announceAt + pnat s.time.params 7 0 3 * secondsTicks iv ≤ s.clock → exec .announceTimeout s = .next (enterHoldover s)) ∧
    (s.clock < s.time.ptp.announceAt + pnat s.time.params 7 0 3 * secondsTicks iv → exec .announceTimeout s = .next s)) ∧
  (∀ (s : State) (k : Nat), s.time.ptp.master = some k → (enterHoldover s).time.ptp.master = none ∧ (enterHoldover s).time.ptp.state = .none_ ∧
    (enterHoldover s).time.tb = s.time.tb ∧ EventsOnly { s with time := (enterHoldover s).time } (enterHoldover s) ∧
    (discipline s = .ptp → (enterHoldover s).time.r = clampRate s.time.ptp.integral ∧
      (enterHoldover s).time.slew = 0 ∧ (enterHoldover s).time.slewing = false) ∧
    (discipline s ≠ .ptp → (enterHoldover s).time.r = s.time.r ∧ (enterHoldover s).time.slew = s.time.slew)) ∧
  (∀ (s u : State) (a : Nat) (j : Int) (m : List Byte), takeMessage 0 s = some ((a, m), u) → j.natAbs ≤ 60 →
    (u.time.ptp.master ≠ some (ptpPort m) ∨ ptpLog m < -7 ∨ 1 < ptpLog m → exec (.ptpSyncReceived j) s = .next u) ∧
    (u.time.ptp.master = some (ptpPort m) → -7 ≤ ptpLog m → ptpLog m ≤ 1 →
      (bitOf (uAt m 6 1) 1 = true → exec (.ptpSyncReceived j) s = .next (setPtp (fun q => { q with awaiting := some (TwoStep.mk (ptpSeq m)
        (((a : Int) - pnat u.time.params 10 0 0 + j) * 65536 - ptpCorrection m)) }) u)) ∧
      (bitOf (uAt m 6 1) 1 = false → exec (.ptpSyncReceived j) s =
        .next (syncOffset (((a : Int) - pnat u.time.params 10 0 0 + j) * 65536 - ptpCorrection m - ptpStamp m 34) u)))) ∧
  (∀ (s u : State) (a : Nat) (m : List Byte), takeMessage 8 s = some ((a, m), u) →
    (u.time.ptp.awaiting = none → exec .ptpFollowUpReceived s = .next u) ∧
    (∀ w, u.time.ptp.awaiting = some w →
      (u.time.ptp.master ≠ some (ptpPort m) ∨ w.seq ≠ ptpSeq m → exec .ptpFollowUpReceived s = .next u) ∧
      (u.time.ptp.master = some (ptpPort m) → w.seq = ptpSeq m → exec .ptpFollowUpReceived s =
        .next (syncOffset (w.t2 - ptpStamp m 34 - ptpCorrection m) (setPtp (fun q => { q with awaiting := none }) u))))) ∧
  (∀ (s : State) (d : Int), (s.time.ptp.back = none → syncOffset d s = setPtp (fun q => { q with syncs := q.syncs + 1 }) s) ∧
    (∀ (b θ : Int) (far : Prop), s.time.ptp.back = some b → θ = (d - b) / 2 →
      far = (s.time.ptp.state = .acquiring ∧ 3 ≤ s.time.ptp.syncs ∧ stepT s * 65536 < θ.natAbs) → (syncOffset d s).time.ptp.theta = θ ∧
      (discipline s ≠ .ptp → (syncOffset d s).time.r = s.time.r ∧ (syncOffset d s).time.tb = s.time.tb) ∧
      (discipline s = .ptp → -1000000000 ≤ (syncOffset d s).time.r ∧ (syncOffset d s).time.r ≤ 1000000000 ∧
        (¬far → (syncOffset d s).time.tb = s.time.tb ∧ (syncOffset d s).time.slew = s.time.slew) ∧
        (far → stepAllowed s = true → s.time.slewOnly = false → (syncOffset d s).time.tb = BitVec.ofNat 64 (ofSigned 64 (s.time.tb.toNat - θ / 65536))) ∧
        (far → stepAllowed s = false ∨ s.time.slewOnly = true → (syncOffset d s).time.tb = s.time.tb ∧ (syncOffset d s).time.slew = -θ * 65536 ∧
          (syncOffset d s).time.slewing = true)) ∧
      (discipline s ≠ .ptp ∨ ¬far ∨ stepAllowed s = false ∨ s.time.slewOnly = true ∨
          (∀ i < 64, (nthOr s.time.slots i {}).armed = false ∧ (nthOr s.time.slots i {}).due = none) →
        (syncOffset d s).time.slots = s.time.slots ∧
        EventsOnly { s with time := (syncOffset d s).time, free := (syncOffset d s).free } (syncOffset d s)))) ∧
  (∀ (s : State) (d : Int) (k : Nat), s.time.ptp.master = some k →
    (s.time.ptp.state = .acquiring → d.natAbs ≤ lockT s * 65536 → 15 ≤ s.time.ptp.good → (judgeLock d s).time.ptp.state = .locked) ∧
    (s.time.ptp.state = .acquiring → s.time.ptp.good < 15 → (judgeLock d s).time.ptp.state = .acquiring) ∧
    (s.time.ptp.state = .acquiring → lockT s * 65536 < d.natAbs → (judgeLock d s).time.ptp.state = .acquiring ∧ (judgeLock d s).time.ptp.good = 0) ∧
    (s.time.ptp.state = .locked → 4 * (lockT s * 65536) < d.natAbs → 3 ≤ s.time.ptp.bad → (judgeLock d s).time.ptp.state = .acquiring) ∧
    (s.time.ptp.state = .locked → d.natAbs ≤ 4 * (lockT s * 65536) ∨ s.time.ptp.bad < 3 → (judgeLock d s).time.ptp.state = .locked)) ∧
  (∀ (s u : State) (a : Nat) (m : List Byte), takeMessage 9 s = some ((a, m), u) →
    (u.time.ptp.t3 = none → exec .ptpDelayRespReceived s = .next u) ∧
    (∀ t3, u.time.ptp.t3 = some t3 →
      (u.time.ptp.master ≠ some (ptpPort m) ∨ beAt m 44 10 ≠ clockId u * 65536 + 1 ∨ ptpSeq m ≠ u.time.ptp.dreqSeq →
        exec .ptpDelayRespReceived s = .next u) ∧
      (u.time.ptp.master = some (ptpPort m) → beAt m 44 10 = clockId u * 65536 + 1 → ptpSeq m = u.time.ptp.dreqSeq → exec .ptpDelayRespReceived s =
        .next (setPtp (fun q => { q with t3 := none, back := some (ptpStamp m 34 - ptpCorrection m - t3), dreqLog := max (-7) (ptpLog m) }) u)))) ∧
  (∀ s : State, ethRuns s = false ∨ timeSourcePtp s = false ∨ s.time.ptp.master = none ∨ s.eth.link = false ∨ s.clock < s.time.ptp.dreqNext ∨
    2 ≤ (s.eth.queue.filter (·.own)).length → exec .ptpDelayReqTimer s = .next s) ∧
  (∀ (s : State) (k n : Nat), ethRuns s = true → timeSourcePtp s = true → s.time.ptp.master = some k → s.eth.link = true → s.time.ptp.dreqNext ≤ s.clock →
    (s.eth.queue.filter (·.own)).length < 2 → n = (s.time.ptp.dreqSeq + 1) % 65536 → Gives .ptpDelayReqTimer s fun t =>
      t = { s with
        eth := { s.eth with queue := s.eth.queue ++ [{
          frame := (ptpFrame (delayReq n s) { s with free := s.free + 1 }).1, t := (latestT s).getD s.time.tb.toNat, asap := true, lateWin := 2 ^ 32 - 1
          ts := false, tsId := 0, notify := false, own := true }] }
        time := { s.time with ptp := { s.time.ptp with dreqSeq := n, t3 := none, dreqNext := s.clock + dreqWait s } }, free := t.free })

/-- O54. eth.config merges a good list, and empties a ring set anew; eth.mdio makes one access; eth.rxack frees ring slots that hold frames;
eth.tsread takes the oldest timestamps. eth.send refuses by the list of R472, in its order, and else queues one entry. A received frame with a bad
FCS, too short, too long, PAUSE or filtered is counted and dropped; of another, a PTP message for the slave waits for it, one to be ignored is
counted, and all else, and a PTP message of another domain, goes into the ring's next slot, or is counted where the ring is full. ETH_LAUNCH drops the
head of the queue with the link down, waits before its time and while the MAC is busy, sends it with its frame check sequence, or drops it where it is
later than LATE_WIN. Under AUTO the link follows the in-band status and is down at half duplex; at a fixed speed it follows bit 2 of the PHY's
register 1. A port that does not work changes nothing. (R460, R461, R462, R472, R473, R474, Table 16.3) -/
def Obligations.TheEthernetPortSendsAndReceives : Prop :=
  (∀ (s : State) (c : Command), Doing s 0x1401 c → (listTarget c.payload 0 ≠ 0 → Answers .ethConfig s c { status := .badArg } s) ∧
    (listTarget c.payload 0 = 0 →
      (∀ d, judgeList ethSpecs (ethRelation s) s.eth.params (listItems c.payload 0) = .error d → Answers .ethConfig s c { status := .badArg, detail := d } s) ∧
      (∀ m, judgeList ethSpecs (ethRelation s) s.eth.params (listItems c.payload 0) = .ok m →
        (pfind m 7 0 = pfind s.eth.params 7 0 → rxSlots m = rxSlots s.eth.params →
          Answers .ethConfig s c { status := .ok } { s with eth := { s.eth with params := m } }) ∧
        (pfind m 7 0 ≠ pfind s.eth.params 7 0 ∨ rxSlots m ≠ rxSlots s.eth.params →
          Answers .ethConfig s c { status := .ok } { s with eth := { s.eth with params := m, rxWrite := 0, rxRead := 0 } })))) ∧
  (∀ (s : State) (c : Command) (w : BitVec 16) (op phy reg : Nat), Doing s 0x1402 c → op = uAt c.payload 0 1 → phy = uAt c.payload 1 1 →
    reg = uAt c.payload 2 1 → (1 < op → Answers (.ethMdio w) s c { status := .badArg } s) ∧
    (op ≤ 1 → 31 < phy → Answers (.ethMdio w) s c { status := .badArg, detail := 1 } s) ∧
    (op ≤ 1 → phy ≤ 31 → 31 < reg → Answers (.ethMdio w) s c { status := .badArg, detail := 2 } s) ∧
    (phy ≤ 31 → reg ≤ 31 → op = 0 → Answers (.ethMdio w) s c { status := .ok, payload := leBytes 2 w.toNat ++ [0, 0] }
      { s with sent := ⟨.mdio, mdioAccess 0 phy reg (uAt c.payload 4 2)⟩ :: s.sent }) ∧
    (phy ≤ 31 → reg ≤ 31 → op = 1 → ∃ b, b.length = 2 ∧ Answers (.ethMdio w) s c { status := .ok, payload := b ++ [0, 0] }
      { s with sent := ⟨.mdio, mdioAccess 1 phy reg (uAt c.payload 4 2)⟩ :: s.sent, free := s.free + 2 })) ∧
  (∀ (s : State) (c : Command) (n : Nat), Doing s 0x1404 c → n = uAt c.payload 0 2 →
    (s.eth.rxWrite - s.eth.rxRead < n → Answers .ethRxack s c { status := .badArg } s) ∧
    (n ≤ s.eth.rxWrite - s.eth.rxRead → Answers .ethRxack s c { status := .ok } { s with eth := { s.eth with rxRead := s.eth.rxRead + n } })) ∧
  (∀ (s : State) (c : Command) (n : Nat), Doing s 0x1405 c → n = uAt c.payload 0 1 →
    (n = 0 ∨ 16 < n → Answers .ethTsread s c { status := .badArg } s) ∧
    (1 ≤ n → n ≤ 16 → Answers .ethTsread s c
      { status := .ok, payload := leBytes 1 (s.eth.stamps.take n).length ++ zeros 3 ++
          (s.eth.stamps.take n).flatMap fun e => leBytes 2 e.1 ++ leBytes 2 e.2.1 ++ leBytes 8 e.2.2 }
      { s with eth := { s.eth with stamps := s.eth.stamps.drop n } })) ∧
  (∀ (s : State) (c : Command) (a n fl t late : Nat), Doing s 0x1403 c → a = uAt c.payload 0 8 → n = uAt c.payload 8 2 → fl = uAt c.payload 12 1 →
    t = (if bitOf fl 0 then (latestT s).getD s.time.tb.toNat else uAt c.payload 16 8) → late = uAt c.payload 24 4 →
    (a % 64 ≠ 0 ∨ beyondFitted s a n = true → Answers .ethSend s c { status := .badArg } s) ∧
    (a % 64 = 0 → beyondFitted s a n = false → (n < 60 ∨ 1522 < n → Answers .ethSend s c { status := .badArg, detail := 8 } s) ∧
      (60 ≤ n → n ≤ 1522 → (7 < fl → Answers .ethSend s c { status := .badArg, detail := 12 } s) ∧
        (fl ≤ 7 → (30 ≤ (s.eth.queue.filter fun e => !e.own).length → Answers .ethSend s c { status := .noSpace } s) ∧
        ((s.eth.queue.filter fun e => !e.own).length < 30 → (uninitRange s a n = true → Answers .ethSend s c { status := .uninit } s) ∧
          (uninitRange s a n = false → (∀ u, dramRead 6 a n s = (none, u) → Answers .ethSend s c { status := .poison } u) ∧
            (∀ f u, dramRead 6 a n s = (some f, u) →
              (1518 < n → isTagged f = false → Answers .ethSend s c { status := .badArg, detail := 8 } u) ∧
              (n ≤ 1518 ∨ isTagged f = true → (u.eth.link = false → Answers .ethSend s c { status := .noLink } u) ∧
                (u.eth.link = true → bitOf fl 0 = false →
                  (∃ l, latestT u = some l ∧ tbDiff t l < 0) ∨ 2 ^ 39 ≤ tbDiff t u.time.tb.toNat →
                  Answers .ethSend s c { status := .badArg, detail := 16 } u) ∧
                (u.eth.link = true → bitOf fl 0 = false → (∀ l, latestT u = some l → 0 ≤ tbDiff t l) → tbDiff t u.time.tb.toNat < -(late : Int) →
                  Answers .ethSend s c { status := .expired } u) ∧
                (u.eth.link = true → bitOf fl 0 = true ∨ ((∀ l, latestT u = some l → 0 ≤ tbDiff t l) ∧ tbDiff t u.time.tb.toNat < 2 ^ 39 ∧
                    -(late : Int) ≤ tbDiff t u.time.tb.toNat) → Answers .ethSend s c { status := .ok } { u with eth := { u.eth with queue := u.eth.queue ++
                  [{ frame := f, t := t, asap := bitOf fl 0, lateWin := late, ts := bitOf fl 1, tsId := uAt c.payload 10 2, notify := bitOf fl 2 }] } }))))))))) ∧
  (∀ (s : State) (f : List Byte) (ok : Bool), ethRuns s = false ∨ s.eth.link = false → exec (.ethFrameReceived f ok) s = .next s) ∧
  (∀ (s : State) (f : List Byte), ethRuns s = true → s.eth.link = true →
    exec (.ethFrameReceived f false) s = .next (countEth (fun e => { e with rxFcs := wrapAdd 32 e.rxFcs 1 }) s) ∧
    (f.length < 60 → exec (.ethFrameReceived f true) s = .next (countEth (fun e => { e with rxShort := wrapAdd 32 e.rxShort 1 }) s)) ∧
    (1518 < f.length → exec (.ethFrameReceived f true) s = .next (countEth (fun e => { e with rxLong := wrapAdd 32 e.rxLong 1 }) s)) ∧
    (60 ≤ f.length → f.length ≤ 1518 → (etherType f = 0x8808 → beAt (etherPayload f) 0 2 = 1 →
        exec (.ethFrameReceived f true) s = .next (countEth (fun e => { e with rxPause := wrapAdd 32 e.rxPause 1 }) s)) ∧
      (etherType f ≠ 0x8808 ∨ beAt (etherPayload f) 0 2 ≠ 1 → destinationOk s (beAt f 0 6) = false →
        exec (.ethFrameReceived f true) s = .next (countEth (fun e => { e with rxFiltered := wrapAdd 32 e.rxFiltered 1 }) s)) ∧
      (∀ v w : State, etherType f ≠ 0x8808 ∨ beAt (etherPayload f) 0 2 ≠ 1 → destinationOk s (beAt f 0 6) = true →
        v = countEth (fun e => { e with rxFrames := wrapAdd 32 e.rxFrames 1 }) s →
        w = touchGroup 3 (setPtp (fun q => { q with ignored := wrapAdd 32 q.ignored 1 }) v) →
        (ptpMessage s f = none → exec (.ethFrameReceived f true) s = .next (ringFrame f v)) ∧
        (∀ m, ptpMessage s f = some m → ptpIgnored s m = true →
          (ptpDomain m ≠ pnat s.time.params 6 0 0 → exec (.ethFrameReceived f true) s = .next (ringFrame f w)) ∧
          (ptpDomain m = pnat s.time.params 6 0 0 → exec (.ethFrameReceived f true) s = .next w)) ∧
        (∀ m, ptpMessage s f = some m → ptpIgnored s m = false → ((∃ e ∈ ptpUsed, e.1 = ptpType m ∧ e.2 ≤ m.length) →
            exec (.ethFrameReceived f true) s = .next (setPtp (fun q => { q with inbox := q.inbox ++ [(s.time.tb.toNat, m)] }) v)) ∧
          ((∀ e ∈ ptpUsed, e.1 = ptpType m → m.length < e.2) → exec (.ethFrameReceived f true) s = .next v))))) ∧
  (∀ (v : State) (f : List Byte),
    (pfind v.eth.params 7 0 = none ∨ rxSlots v.eth.params ≤ v.eth.rxWrite - v.eth.rxRead →
      ringFrame f v = countEth (fun e => { e with rxRingFull := wrapAdd 32 e.rxRingFull 1 }) v) ∧
    (∀ b : Int, pfind v.eth.params 7 0 = some b → v.eth.rxWrite - v.eth.rxRead < rxSlots v.eth.params → EventsOnly
      (dramWrite 6 (b.toNat + 2048 * (v.eth.rxWrite % rxSlots v.eth.params))
        (leBytes 2 f.length ++ leBytes 2 (bitAt (isTagged f) 0) ++ leBytes 4 v.eth.rxSeq ++ leBytes 8 v.time.tb.toNat ++ f)
        { v with eth := { v.eth with rxWrite := v.eth.rxWrite + 1, rxSeq := (v.eth.rxSeq + 1) % 2 ^ 32 } }) (ringFrame f v))) ∧
  (∀ s : State, s.eth.queue = [] ∨ ethRuns s = false → exec .ethLaunch s = .next s) ∧
  (∀ (s v : State) (x : TxEntry) (rest : List TxEntry) (past late : Nat), ethRuns s = true → s.eth.queue = x :: rest →
    past = (tbDiff s.time.tb.toNat x.t).toNat → v = { s with eth := { s.eth with queue := rest } } →
    late = (if past * 4 ≤ (s.clock - s.eth.macFree) * 5 ∧ past ≤ txcNs s.eth.speed then 0 else past) →
    (s.eth.link = false → Reaches .ethLaunch s (countEth (fun e => { e with txNoLink := wrapAdd 32 e.txNoLink 1 }) v)) ∧
    (s.eth.link = true → (tbDiff s.time.tb.toNat x.t < 0 ∨ s.clock < s.eth.macFree) → exec .ethLaunch s = .next s) ∧
    (s.eth.link = true → 0 ≤ tbDiff s.time.tb.toNat x.t → s.eth.macFree ≤ s.clock →
      (x.lateWin < late → Reaches .ethLaunch s (countEth (fun e => { e with txExpired := wrapAdd 32 e.txExpired 1 }) v)) ∧
      (late ≤ x.lateWin → Gives .ethLaunch s fun t =>
        t.eth = { s.eth with
          queue := rest, txFrames := wrapAdd 32 s.eth.txFrames 1, txLate := if late = 0 then s.eth.txLate else wrapAdd 32 s.eth.txLate 1
          macFree := s.clock + ceilDiv (4 * (8 * ((wireBytes x.frame).length + 20) * bitNs s.eth.speed)) 5
          stamps := if x.ts = true ∧ s.eth.stamps.length < 16 then
              s.eth.stamps ++ [(x.tsId, if late = 0 then Status.ok.code else Status.late.code, s.time.tb.toNat)] else s.eth.stamps
          tsLost := if x.ts = true ∧ 16 ≤ s.eth.stamps.length then satAdd 32 s.eth.tsLost 1 else s.eth.tsLost } ∧
        EventsOnly { s with
          eth := t.eth, sent := ⟨.eth, wireBytes x.frame⟩ :: s.sent
          time := if x.own = true then { s.time with ptp := { s.time.ptp with
              t3 := some (((s.time.tb.toNat : Int) + pnat s.time.params 11 0 0) * 65536) } } else s.time } t))) ∧
  (∀ (s : State) (up full : Bool) (k : Fin 3) (w : BitVec 16),
    (ethRuns s = false ∨ ethSpeed s ≠ 0 → exec (.ethLinkChange up full k) s = .next s) ∧
    (ethRuns s = false ∨ ethSpeed s = 0 → exec (.phyLinkPoll w) s = .next s) ∧
    (ethRuns s = true → ethSpeed s = 0 → Reaches (.ethLinkChange up full k) s { s with eth := { s.eth with link := up && full, speed := k.val } }) ∧
    (ethRuns s = true → ethSpeed s ≠ 0 → ∃ phy, phy < 32 ∧ Reaches (.phyLinkPoll w) s { s with
      eth := { s.eth with link := w.getLsbD 2, speed := ethSpeed s - 1 }, sent := ⟨.mdio, mdioAccess 0 phy 1 0⟩ :: s.sent, free := s.free + 1 }))

/-- O55. Each stage row moves the link from its own stage to the next and leaves a link in another stage alone; DETECT sends TRAIN1, LOCK ends once
lanes hold block lock and have taken the TRAIN exchange, and sends TRAIN2 and ALIGN, ALIGN ends once the lanes that both ends report as passed are
deskewed. LOCK with no lane, ALIGN with no such lane or common rate, EQUALISE with no lower common rate and a timeout in ALIGN or ACTIVE are
link-start failures: counted, and the link waits for LINK_START_RETRY. The width is the widest of 8, 4, 2 and 1 the usable lanes allow. A change of
rate proposes it in TRAIN2, sends EIDLE and begins verification anew. The eighth TRAIN1 in LOCK draws a TRAIN2, and the first TRAIN2 after it 16.
EQUALISE ends in ACTIVE with sequence counts of 0 and the credits of Table 4.12 sent; with the partner's CREDIT for every channel the link is up. A
retrain goes on with the lanes that pass, or is a link reset where the width falls below what both ends allow or the stage times out; an EIDLE but in
EQUALISE is a link reset, and the loss of the host link is LINK_DOWN. A bad block of any of the three links is counted on its lane. A good TRAIN block
in training counts, gives the partner's report, and a TRAIN2 its rates and width; in EQUALISE a legal request sets the lane's coefficients, where they
are not fixed and the rate has trials, and an illegal one is answered with REJECT. A good SKIP changes nothing. (R90, R95, R96, R98, R99, R100, R101,
R103, R104, R105, Table 4.6, Table 4.12) -/
def Obligations.LinksComeUpAndRetrain : Prop :=
  (∀ (s : State) (l : Fin 2) (a : BitVec 9), ((linkOf l s).stage ≠ .detect → exec (.linkDetect l) s = .next s) ∧
    ((linkOf l s).stage ≠ .lock → (linkOf l s).stage ≠ .retrain → exec (.linkLockDone l a) s = .next s) ∧ ((linkOf l s).stage ≠ .align → exec (.linkAlignDone l) s = .next s) ∧
    ((linkOf l s).stage ≠ .equalise → exec (.linkEqualiseDone l) s = .next s) ∧ ((linkOf l s).stage ≠ .active → exec (.linkActiveDone l) s = .next s) ∧
    ((linkOf l s).stage ≠ .retrain → exec (.recoveryRetrainDone l a) s = .next s) ∧ ((linkOf l s).stage ≠ .wait → exec (.linkStartRetry l) s = .next s) ∧
    ((linkOf l s).stage ∉ [.lock, .align, .equalise, .active, .retrain] → exec (.linkStageTimeout l a) s = .next s)) ∧
  (∀ (s : State) (l : Fin 2) (two : Bool), sendTraining l two s = { s with sent := (((List.range (laneCount l)).filter fun i =>
    decide ((laneOf (linkOf l s) i).use ≠ .test)).map fun i => Sent.mk (.linkBlock l) (withCheck (trainBlock l two i s))).reverse ++ s.sent }) ∧
  (∀ (s : State) (l : Fin 2), (linkOf l s).stage = .detect →
    exec (.linkDetect l) s = .next (sendTraining l false (setLink l (fun k => { k with stage := .lock }) s))) ∧
  (∀ (s : State) (l : Fin 2) (a : BitVec 9), (maskLanes l a.toNat = [] ∨ (∃ i ∈ maskLanes l a.toNat, trained (laneOf (linkOf l s) i) = false) →
      exec (.linkLockDone l a) s = .next s) ∧
    ((linkOf l s).stage = .retrain → maskLanes l a.toNat ≠ [] → (∀ i ∈ maskLanes l a.toNat, trained (laneOf (linkOf l s) i) = true) →
      exec (.linkLockDone l a) s = .next (sendDeskew l (setLink l (takeLock a.toNat) s)))) ∧
  (∀ (s : State) (l : Fin 2) (a : BitVec 9) (k : Link), (linkOf l s).stage = .lock → k = takeLock a.toNat (linkOf l s) →
    (∀ r : Instr, (r = .linkLockDone l a ∧ maskLanes l a.toNat ≠ [] ∧ ∀ i ∈ maskLanes l a.toNat, trained (laneOf (linkOf l s) i) = true) ∨ r = .linkStageTimeout l a →
      (lockMask l k = 0 → exec r s = .next (startFailure l 2 s)) ∧
      (lockMask l k ≠ 0 → exec r s = .next (sendDeskew l (setLink l (fun _ => { k with stage := .align }) s)) ∧ Gives r s fun t =>
        (linkOf l t).stage = .align ∧ LinkOnly l s t ∧ ∀ n : Fin 9, (linkOf l t).lanes[n].lock =
          if (linkOf l s).lanes[n].use = .test then (linkOf l s).lanes[n].lock else (a.getLsbD n && trained (linkOf l s).lanes[n])))) ∧
  (∀ (s : State) (l : Fin 2) (mask w : Nat), (linkOf l s).stage = .align → mask = usableMask l false s.clock (linkOf l s) → w = widthFor l mask →
    (deskewed l mask (linkOf l s) = false → exec (.linkAlignDone l) s = .next s) ∧
    (deskewed l mask (linkOf l s) = true →
      (w = 0 ∨ commonBelow (linkOf l s).peerRates 6 = none → exec (.linkAlignDone l) s = .next (startFailure l 3 s)) ∧
      (∀ r, w ≠ 0 → commonBelow (linkOf l s).peerRates 6 = some r →
        exec (.linkAlignDone l) s = .next (changeRate l r (setLink l (mapLanes l false mask w) s))))) ∧
  (∀ (l : Fin 2) (mask : Nat), widthFor l mask ∈ [0, 1, 2, 4, 8] ∧ widthFor l mask ≤ (maskLanes l mask).length ∧ widthFor l mask ≤ fullWidth l ∧
    ∀ w ∈ [1, 2, 4, 8], w ≤ (maskLanes l mask).length → w ≤ fullWidth l → w ≤ widthFor l mask) ∧
  (∀ (l : Fin 2) (again : Bool) (mask : Nat) (k : Link) (n : Fin 9), (mapLanes l again mask (widthFor l mask) k).width = widthFor l mask ∧
    (laneStays again k.lanes[n].use = true → (mapLanes l again mask (widthFor l mask) k).lanes[n] = k.lanes[n]) ∧
    ((mapLanes l again mask (widthFor l mask) k).lanes[n].use = .active →
      bitOf mask n = true ∧ (mapLanes l again mask (widthFor l mask) k).lanes[n].logical < widthFor l mask)) ∧
  (∀ (peer n r : Nat), commonBelow peer n = some r → r < n ∧ bitOf peer r = true ∧ ∀ q, r < q → q < n → bitOf peer q = false) ∧
  (∀ (s : State) (l : Fin 2) (r : Nat) (t : State), t = changeRate l r s → LinkOnly l s t ∧ (linkOf l t).stage = .equalise ∧ (linkOf l t).target = r ∧
    ∀ n : Fin 9, (linkOf l t).lanes[n] = { (linkOf l s).lanes[n] with
      txA := (startCoeff (linkOf l s).inForce).1, txB := (startCoeff (linkOf l s).inForce).2, asked := startAsk (linkOf l s).inForce r, dirty := false
      peerPassed := false, alignSeen := false, trials := 0, reject := false, verifyAt := s.clock }) ∧
  (∀ (s : State) (l : Fin 2) (mask w need : Nat), (linkOf l s).stage = .equalise → mask = usableMask l false s.clock (linkOf l s) → w = widthFor l mask →
    need = (if lowestCommon (linkOf l s).peerRates (linkOf l s).target then 1 else max (minWidth l (linkOf l s)) (linkOf l s).peerMinW) →
    (w = 0 ∨ w < need → ∀ i ∈ [Instr.linkEqualiseDone l, .linkStageTimeout l 0],
      (commonBelow (linkOf l s).peerRates (linkOf l s).target = none → exec i s = .next (startFailure l 4 s)) ∧
      (∀ r, commonBelow (linkOf l s).peerRates (linkOf l s).target = some r → exec i s = .next (changeRate l r s))) ∧
    (w ≠ 0 → need ≤ w → Gives (.linkEqualiseDone l) s fun t => (linkOf l t).stage = .active ∧ (linkOf l t).width = w ∧ (linkOf l t).rate = (linkOf l s).target ∧
      (linkOf l t).txSeq = 0 ∧ (linkOf l t).expect = 0 ∧ t.sent.length = s.sent.length + 3 ∧
      (∀ v : Fin 3, (linkOf l t).vc[v].rxHdrLimit = BitVec.ofNat 8 (vcHdr l v) ∧ (linkOf l t).vc[v].rxDataLimit = BitVec.ofNat 16 (vcData l v) ∧
        (linkOf l t).vc[v].gotCredit = false) ∧ t = setLink l (fun _ => linkOf l t) { s with sent := t.sent, free := s.free + 9 })) ∧
  (∀ (s : State) (l : Fin 2) (a : BitVec 9), (linkOf l s).stage = .equalise →
    (commonBelow (linkOf l s).peerRates (linkOf l s).target = none → exec (.linkStageTimeout l a) s = .next (startFailure l 4 s)) ∧
    (∀ r, commonBelow (linkOf l s).peerRates (linkOf l s).target = some r → exec (.linkStageTimeout l a) s = .next (changeRate l r s))) ∧
  (∀ (s : State) (l : Fin 2) (a : BitVec 9), ((linkOf l s).stage = .align → exec (.linkStageTimeout l a) s = .next (startFailure l 3 s)) ∧
    ((linkOf l s).stage = .active → exec (.linkStageTimeout l a) s = .next (startFailure l 5 s)) ∧
    ((linkOf l s).stage = .retrain → exec (.linkStageTimeout l a) s = .next (linkReset l 1 (bgEnd (.retrain l.val) s)))) ∧
  (∀ (s : State) (l : Fin 2), (linkOf l s).stage = .active →
    ((∃ v : Fin 3, (linkOf l s).vc[v].gotCredit = false) → exec (.linkActiveDone l) s = .next s) ∧
    ((∀ v : Fin 3, (linkOf l s).vc[v].gotCredit = true) → Gives (.linkActiveDone l) s fun t =>
      linkOf l t = { linkOf l s with
        stage := .up, linkUp := true, failures := 0, attempts := 0, held := (linkOf l t).held, alignAt := s.clock, txSwitchAt := none
        lanes := (linkOf l s).lanes.map fun n => { n with alignSeen := false } } ∧ t.cfg = s.cfg ∧ t.job = s.job ∧
      t.mem = s.mem ∧ t.sent = s.sent ∧ t.sys.mode = s.sys.mode)) ∧
  (∀ (s : State) (l : Fin 2) (no : Nat) (t : State), t = startFailure l no s →
    (linkOf l t).stage = .wait ∧ (linkOf l t).linkUp = false ∧ (linkOf l t).failures = (linkOf l s).failures + 1 ∧
    (linkOf l t).resets = wrapAdd 32 (linkOf l s).resets 1 ∧ t.cfg = s.cfg ∧ t.job = s.job ∧ t.mem.dram = s.mem.dram ∧ t.win = s.win ∧
    ((linkOf l s).linkUp = false ∨ l = 1 → EventsOnly (setLink l (fun _ => linkOf l t) { s with twin := t.twin }) t)) ∧
  (∀ (s : State) (l : Fin 2), (linkOf l s).stage = .wait → exec (.linkStartRetry l) s =
    .next (sendTraining l false (setLink l (fun k => { clearedLink k with attempts := k.attempts + 1 }) s))) ∧
  (∀ (s : State) (l : Fin 2) (a : BitVec 9) (k : Link) (mask w : Nat), (linkOf l s).stage = .retrain → k = takeLock a.toNat (linkOf l s) →
    mask = usableMask l true s.clock k → w = widthFor l mask →
    (w ≠ 0 → max (minWidth l k) k.peerMinW ≤ w → deskewed l mask k = true → Gives (.recoveryRetrainDone l a) s fun t => (linkOf l t).stage = .up ∧
      (linkOf l t).width = w ∧ (linkOf l t).retrains = wrapAdd 32 k.retrains 1 ∧ (linkOf l t).txSeq = k.txSeq ∧ (linkOf l t).expect = k.expect ∧
      (linkOf l t).unacked = k.unacked ∧ (linkOf l t).vc = k.vc ∧ t.cfg = s.cfg ∧ t.job = s.job ∧ t.mem = s.mem ∧ t.sent = s.sent ∧ t.sys.mode = s.sys.mode) ∧
    (w = 0 ∨ w < max (minWidth l k) k.peerMinW ∨ deskewed l mask k = false →
      exec (.recoveryRetrainDone l a) s = .next (linkReset l 1 (bgEnd (.retrain l.val) s)))) ∧
  (∀ (s : State) (l : Fin 2), ((linkOf l s).stage ∈ [.detect, .lock, .align, .active, .up] → exec (.eidleReceived l) s = .next (linkReset l 4 s)) ∧
    ((linkOf l s).stage = .retrain → exec (.eidleReceived l) s = .next (linkReset l 4 (bgEnd (.retrain l.val) s))) ∧
    ((linkOf l s).stage ∈ [.equalise, .down, .wait] → exec (.eidleReceived l) s = .next s)) ∧
  (∀ (s : State) (l : Fin 2) (cause : Nat) (t : State), t = linkReset l cause s → (linkOf l t).stage = .detect ∧ (linkOf l t).linkUp = false ∧
    (linkOf l t).unacked = [] ∧ (linkOf l t).corrupt = 0 ∧ (linkOf l t).resets = wrapAdd 32 (linkOf l s).resets 1 ∧ (linkOf l t).params = (linkOf l s).params ∧
    (linkOf l t).attempts = (linkOf l s).attempts + 1 ∧ (linkOf l t).rxTmb = (linkOf l s).rxTmb ∧
    (l = 1 → t.twin.tmbOut = s.twin.tmbOut.filter fun e => s.twinLink.rxTmb.any fun m => decide (uAt m.2 0 2 < 0xF000) && uAt m.2 4 4 == e.1) ∧ t.cfg = s.cfg ∧ t.job = s.job ∧ t.win = s.win ∧
    t.mem.dram = s.mem.dram) ∧
  (∀ (s : State) (cause : Nat), s.host.linkUp = true → s.sys.mode ≠ .boot → s.sys.mode ≠ .keepalive →
    latchedAt s (blockInst 0x10) = none → latchedAt (linkReset 0 cause s) (blockInst 0x10) = some .linkDown) ∧
  (∀ (s : State) (l : Fin 3) (n : Fin 9) (b d : List Byte) (y : BitVec 2),
    (deaf l n.val s = true → exec (.train1Received l n b) s = .next s ∧ exec (.train2Received l n b) s = .next s ∧ exec (.alignReceived l n b d) s = .next s ∧
      exec (.skipReceived l n b) s = .next s ∧ exec (.invalidBlockReceived l n y b) s = .next s) ∧
    (deaf l n.val s = false →
      (blockGood b 0xE1 = false → blockGood (b.map (~~~ ·)) 0xE1 = false → exec (.train1Received l n b) s = .next (countInvalid l n s)) ∧
      (blockGood b 0xE2 = false → exec (.train2Received l n b) s = .next (countInvalid l n s)) ∧
      (blockGood b 0xA5 = false → exec (.alignReceived l n b d) s = .next (countInvalid l n s)) ∧
      (blockGood b 0x99 = false → exec (.skipReceived l n b) s = .next (countInvalid l n s)) ∧
      (blockGood b 0x99 = true → exec (.skipReceived l n b) s = .next s) ∧
      (blockValid y b = true → exec (.invalidBlockReceived l n y b) s = .next s) ∧
      (blockValid y b = false → exec (.invalidBlockReceived l n y b) s = .next (countInvalid l n s)))) ∧
  (∀ (s : State) (l : Fin 2) (n : Fin 9) (t : State), t = countInvalid (l.castLE (by decide)) n s →
    (laneOf (linkOf l t) n).invalid = (laneOf (linkOf l s) n).invalid + 1 ∧ (laneOf (linkOf l t) n).dirty = true ∧
    (∀ m : Fin 9, m ≠ n → laneOf (linkOf l t) m = laneOf (linkOf l s) m) ∧
    t = setLink l (fun _ => { linkOf l s with lanes := (linkOf l t).lanes }) { s with life := t.life }) ∧
  (∀ (s : State) (n : Fin 2) (t : State), t = countInvalid 2 n.val s → t.audit.lanes[n].invalid = s.audit.lanes[n].invalid + 1 ∧ t.audit.lanes[n].dirty = true ∧
    t = { s with audit := { s.audit with lanes := t.audit.lanes }, life := t.life }) ∧
  (∀ (s : State) (l : Fin 2) (n : Fin 9) (b : List Byte),
    (inTraining (linkOf l s) = false → (blockGood b 0xE1 = true ∨ blockGood (b.map (~~~ ·)) 0xE1 = true →
        exec (.train1Received (l.castLE (by decide)) n b) s = .next s) ∧
      (blockGood b 0xE2 = true → exec (.train2Received (l.castLE (by decide)) n b) s = .next s)) ∧
    (inTraining (linkOf l s) = true →
      (∀ (flip : Bool) (m : List Byte), flip = blockGood (b.map (~~~ ·)) 0xE1 → m = (if flip then b.map (~~~ ·) else b) → blockGood m 0xE1 = true →
        Gives (.train1Received (l.castLE (by decide)) n b) s fun t => laneOf (linkOf l t) n = { laneOf (linkOf l s) n with
          train1 := (laneOf (linkOf l s) n).train1 + 1, train2 := if (laneOf (linkOf l s) n).train2 < 8 then 0 else (laneOf (linkOf l s) n).train2
          wrongId := decide (uAt m 9 1 ≠ l.val), peerPassed := bitOf (uAt m 2 1) 4, inverted := flip } ∧
          (∀ i : Fin 9, i ≠ n → laneOf (linkOf l t) i = laneOf (linkOf l s) i) ∧
          (inLock (linkOf l s) = true → 7 ≤ (laneOf (linkOf l s) n).train1 → t.sent.length = s.sent.length + 1) ∧
          (inLock (linkOf l s) = false ∨ (laneOf (linkOf l s) n).train1 < 7 → t.sent = s.sent) ∧
          t = setLink l (fun _ => { linkOf l s with lanes := (linkOf l t).lanes }) { s with sent := t.sent }) ∧
      (blockGood b 0xE2 = true → Gives (.train2Received (l.castLE (by decide)) n b) s fun t => (linkOf l t).peerRates = uAt b 3 1 ∧
        (linkOf l t).peerMinW = uAt b 10 1 ∧ (laneOf (linkOf l t) n).wrongId = decide (uAt b 9 1 ≠ l.val) ∧
        (laneOf (linkOf l t) n).peerPassed = bitOf (uAt b 2 1) 4 ∧ (∀ i : Fin 9, i ≠ n → laneOf (linkOf l t) i = laneOf (linkOf l s) i) ∧
        t = setLink l (fun _ => { linkOf l s with lanes := (linkOf l t).lanes, peerRates := uAt b 3 1, peerMinW := uAt b 10 1 })
          { s with sent := t.sent, free := t.free } ∧
        (inLock (linkOf l s) = true → 8 ≤ (laneOf (linkOf l s) n).train1 → (laneOf (linkOf l s) n).answered = false →
          t.sent.length = s.sent.length + 16 ∧ (laneOf (linkOf l t) n).answered = true) ∧
        ((linkOf l s).stage ≠ .equalise → inLock (linkOf l s) = false ∨ (laneOf (linkOf l s) n).train1 < 8 ∨ (laneOf (linkOf l s) n).answered = true →
          t.sent = s.sent) ∧
        ((linkOf l s).stage = .equalise → t.sent.length = s.sent.length + 1 ∧
          ∀ a c : Nat, bitOf (uAt b 5 1) 4 = true → a = uAt b 6 1 → c = uAt b 7 1 →
            (legalCoeff a c = true → pon (linkOf l s).inForce 5 0 false = false → 2 ≤ (linkOf l s).target →
              (laneOf (linkOf l t) n).txA = a ∧ (laneOf (linkOf l t) n).txB = c) ∧
            (legalCoeff a c = false ∨ pon (linkOf l s).inForce 5 0 false = true ∨ (linkOf l s).target < 2 →
              (laneOf (linkOf l t) n).txA = (laneOf (linkOf l s) n).txA ∧ (laneOf (linkOf l t) n).txB = (laneOf (linkOf l s) n).txB) ∧
            (laneOf (linkOf l t) n).reject = !legalCoeff a c)))) ∧
  (∀ (s : State) (n : Fin 9) (b : List Byte), deaf 2 n s = false →
    (blockGood b 0xE1 = true ∨ blockGood (b.map (~~~ ·)) 0xE1 = true → exec (.train1Received 2 n b) s = .next s) ∧
    (blockGood b 0xE2 = true → exec (.train2Received 2 n b) s = .next (cameraTrain2 n b s)))

/-- O56. A good ALIGN reloads the lane's scrambler and counts; a LANE_CHECK that differs, but on the first ALIGN after bring-up or a retrain, is an
interval error. An active lane whose interval errors reach SPARE_THRESH, or that loses lock, is LANE_FAIL and asks for the spare where it stands by
and no switch runs, else starts a recovery retrain; the standby spare becomes unusable after more than 16 errors in a second or on loss of lock. A
retrain keeps frames and counts. A request is granted with ACK and SWITCH, or refused; of two requests the lower lane's goes on; ACK makes the
requester send SWITCH; a REFUSE starts a retrain; the spare takes the failed lane's logical lane once SWITCH went and came. ALIGN_SKIP_INTERVAL sends
ALIGN and SKIP and moves the frame stream on. link.config keeps good settings; link.retrain of a link that is up starts a retrain; link.spare asks or
is BAD_STATE; link.status answers; link.test does its operation where R124 allows it and is BAD_STATE elsewhere, and BAD_ARG names a byte out of
range. (R92, R96, R97, R107, R117, R118, R119, R121, R122, R124, R522, R523) -/
def Obligations.LanesAreSparedAndTested : Prop :=
  (∀ (s u v : State) (l : Fin 2) (n : Fin 9) (b d : List Byte) (k : Link) (q : Lane) (bad : Bool) (x : Bool × Nat), blockGood b 0xA5 = true →
    k = linkOf l s → q = laneOf k n → bad = (q.alignSeen && (crc16 d).toNat != uAt b 6 2) →
    x = (if k.rxDiscard && q.use = .active then endDiscard (laneMask l k fun n => n.use == .active) n k.rxAligned else (k.rxDiscard, k.rxAligned)) →
    u = setLink l (fun k => { setLane n (fun q => { q with
      scram := scramSeed n, alignSeen := true, aligns := q.aligns + 1, dirty := q.dirty || bad, verifyAt := if bad then s.clock else q.verifyAt }) k with
        rxDiscard := x.1, rxAligned := x.2 }) s →
    v = (if bad then noteLane l n (fun h => { h with intervalErr := satAdd 64 h.intervalErr 1 }) u else u) →
    (k.stage ≠ .up ∨ (q.use = .active ∧ bad = false) ∨ (q.use ≠ .active ∧ q.use ≠ .standby) → exec (.alignReceived (l.castLE (by decide)) n b d) s = .next v) ∧
    (k.stage = .up → q.use = .active → bad = true → exec (.alignReceived (l.castLE (by decide)) n b d) s = .next (intervalError l n v)) ∧
    (k.stage = .up → q.use = .standby → exec (.alignReceived (l.castLE (by decide)) n b d) s = .next (spareAligned l n q.scram d v))) ∧
  (∀ (s : State) (l : Fin 2) (n : Fin 9) (e : Nat), (linkOf l s).stage = .up →
    e = (if s.clock < (laneOf (linkOf l s) n).windowAt + 800000 ∧ (laneOf (linkOf l s) n).intervalErr ≠ 0 then (laneOf (linkOf l s) n).intervalErr + 1 else 1) →
    (e < spareThresh (linkOf l s) → intervalError l n s = setLink l (setLane n (addError s.clock)) s ∧
      (laneOf (linkOf l (intervalError l n s)) n).intervalErr = e) ∧
    (spareThresh (linkOf l s) ≤ e → ∃ t, intervalError l n s = t ∧ (spareFree l (linkOf l s) = true → (linkOf l t).spare = some { lane := n, byWhom := 0 } ∧
        (linkOf l t).stage = .up) ∧ (spareFree l (linkOf l s) = false → (linkOf l t).stage = .retrain ∧ (linkOf l t).spare = none) ∧
      (s.sys.mode ≠ .boot → s.sys.mode ≠ .keepalive → latchedAt s (cellInst (linkSource l) n) = none →
        latchedAt t (cellInst (linkSource l) n) = some .laneFail) ∧ t.cfg = s.cfg ∧ t.job = s.job ∧ t.win = s.win ∧ t.mem.dram = s.mem.dram)) ∧
  (∀ (s : State) (l : Fin 2) (n : Nat) (r : BitVec 23) (d : List Byte) (c : Checker) (u : State), n = spareLane l →
    c = Checker.run_ 3 (laneOf (linkOf l s) n).chk (bitsOfBytes (scramble r d)) →
    u = setLink l (setLane n fun q => addSpareErrors s.clock c.errors { q with chk := { c with bits := 0, errors := 0 } }) s →
    (((laneOf (linkOf l u) n).spareErrs.map (·.2)).sum ≤ 16 → spareAligned l n r d s = u) ∧
    (16 < ((laneOf (linkOf l u) n).spareErrs.map (·.2)).sum → EventsOnly
      { setLink l (setLane n fun q => { q with use := .spareBad, unusable := true }) u with life := (spareAligned l n r d s).life } (spareAligned l n r d s))) ∧
  (∀ (s : State) (n : Fin 2) (b d : List Byte) (q : Lane) (bad : Bool), deaf 2 n.val s = false → blockGood b 0xA5 = true → q = s.audit.lanes[n] →
    bad = (q.alignSeen && (crc16 d).toNat != uAt b 6 2) → Gives (.alignReceived 2 (n.castLE (by decide)) b d) s fun t =>
      t.audit.lanes[n].scram = scramSeed n ∧ t.audit.lanes[n].alignSeen = true ∧ t.audit.lanes[n].aligns = (if q.lock = true then q.aligns + 1 else 0) ∧
      (bad = true → t.audit.lanes[n].dirty = true ∧ t.audit.lanes[n].intervalErr = if s.clock < q.windowAt + 800000 ∧ q.intervalErr ≠ 0 then q.intervalErr + 1 else 1) ∧
      (bad = false → t.audit.lanes[n].dirty = q.dirty ∧ t.audit.lanes[n].intervalErr = q.intervalErr ∧ t.life = s.life) ∧
      t = { s with audit := { s.audit with lanes := t.audit.lanes, rxDiscard := t.audit.rxDiscard, rxAligned := t.audit.rxAligned }, life := t.life }) ∧
  (∀ (s : State) (l : Fin 2) (n : Fin 9) (k : Link), k = linkOf l s →
    (k.stage ≠ .up → exec (.laneLockLost l n) s = .next (setLink l (setLane n fun q => { q with lock := false }) s)) ∧
    (k.stage = .up →
      ((laneOf k n).use = .active → Gives (.laneLockLost l n) s fun t => (laneOf (linkOf l t) n).lock = false ∧
        (spareFree l k = true → (linkOf l t).spare = some { lane := n, byWhom := 0 } ∧ (linkOf l t).stage = .up) ∧
        (spareFree l k = false → (linkOf l t).stage = .retrain ∧ (linkOf l t).spare = none) ∧
        (s.sys.mode ≠ .boot → s.sys.mode ≠ .keepalive → latchedAt s (cellInst (linkSource l) n) = none →
          latchedAt t (cellInst (linkSource l) n) = some .laneFail) ∧ t.cfg = s.cfg ∧ t.job = s.job ∧ t.win = s.win ∧ t.mem.dram = s.mem.dram) ∧
      (n.val = spareLane l → (laneOf k n).use = .standby → Gives (.laneLockLost l n) s fun t => EventsOnly
        { setLink l (setLane n fun q => { q with lock := false, use := .spareBad, unusable := true }) s with life := t.life } t) ∧
      ((laneOf k n).use ≠ .active → (laneOf k n).use ≠ .standby → Gives (.laneLockLost l n) s fun t =>
        t = { setLink l (setLane n fun q => { q with lock := false }) s with life := t.life }))) ∧
  (∀ (s : State) (l : Fin 2) (cause : Nat) (t : State), t = startRetrain l cause s →
    ((linkOf l s).stage ≠ .up → t = s) ∧
    ((linkOf l s).stage = .up → (linkOf l t).stage = .retrain ∧ (linkOf l t).retrainCause = cause ∧ (linkOf l t).spare = none ∧
      (linkOf l t).inForce = (linkOf l s).params ∧ (linkOf l t).unacked = (linkOf l s).unacked ∧ (linkOf l t).held = (linkOf l s).held ∧
      (linkOf l t).txSeq = (linkOf l s).txSeq ∧ (linkOf l t).expect = (linkOf l s).expect ∧ (linkOf l t).vc = (linkOf l s).vc ∧
      (linkOf l t).width = (linkOf l s).width ∧ (linkOf l t).rate = (linkOf l s).rate ∧ (linkOf l t).linkUp = (linkOf l s).linkUp ∧
      (∀ i : Fin 9, (linkOf l t).lanes[i].use = (linkOf l s).lanes[i].use ∧ (linkOf l t).lanes[i].train1 = 0 ∧ (linkOf l t).lanes[i].train2 = 0 ∧
        (linkOf l t).lanes[i].answered = false ∧ (linkOf l t).lanes[i].aligns = 0 ∧ (linkOf l t).lanes[i].dirty = false ∧
        ((linkOf l s).lanes[i].use ≠ .test → (linkOf l t).lanes[i].lock = false)) ∧
      (∃ e ∈ t.mbx.bg, e.2 = .retrain l.val) ∧
      t = { setLink l (fun _ => linkOf l t) s with mbx := { s.mbx with bg := t.mbx.bg, bgNext := t.mbx.bgNext }, sent := t.sent })) ∧
  (∀ (s : State) (l : Fin 2) (n : Fin 9) (t : State), t = grantSpare l n s → (linkOf l t).spare = some { lane := n, byWhom := 1, sentSwitch := true } ∧
    t.sent.length = s.sent.length + 2 ∧ LinkOnly l s t ∧ (laneOf (linkOf l t) (spareLane l)).test.margin = false ∧ (linkOf l t).stage = (linkOf l s).stage) ∧
  (∀ (s : State) (l : Fin 2) (n : Fin 9), ((linkOf l s).stage ≠ .up → exec (.spareReq l n) s = .next s) ∧
    ((linkOf l s).stage = .up →
      ((linkOf l s).spare = none → spareFree l (linkOf l s) = true → (laneOf (linkOf l s) n).use = .active → exec (.spareReq l n) s = .next (grantSpare l n s)) ∧
      ((linkOf l s).spare = none → spareFree l (linkOf l s) = false ∨ (laneOf (linkOf l s) n).use ≠ .active → Gives (.spareReq l n) s fun t =>
        t.sent.length = s.sent.length + 1 ∧ t = { s with sent := t.sent }) ∧
      (∀ w, (linkOf l s).spare = some w →
        (w.byWhom = 1 ∨ w.sentSwitch = true ∨ w.lane < n.val → exec (.spareReq l n) s = .next s) ∧
        (w.byWhom ≠ 1 → w.sentSwitch = false → n.val < w.lane → exec (.spareReq l n) s = .next (grantSpare l n s)) ∧
        (w.byWhom ≠ 1 → w.sentSwitch = false → n.val = w.lane → exec (.spareReq l n) s = .next (sendSwitch l n s))))) ∧
  (∀ (s : State) (l : Fin 2), (linkOf l s).spare = none → exec (.spareAck l) s = .next s ∧ exec (.spareRefuse l) s = .next s ∧
    exec (.spareSwitch l) s = .next s) ∧
  (∀ (s : State) (l : Fin 2) (w : SpareSwitch), (linkOf l s).spare = some w →
    (w.byWhom = 1 ∨ w.sentSwitch = true → exec (.spareAck l) s = .next s) ∧ (w.byWhom = 1 → exec (.spareRefuse l) s = .next s) ∧
    (w.byWhom ≠ 1 → w.sentSwitch = false → exec (.spareAck l) s = .next (sendSwitch l w.lane s)) ∧
    (w.byWhom ≠ 1 → exec (.spareRefuse l) s = .next (startRetrain l 3 (setLink l (fun k => { k with spare := none }) s))) ∧
    (w.sentSwitch = false → exec (.spareSwitch l) s = .next (setLink l (fun k => { k with spare := some { w with gotSwitch := true } }) s)) ∧
    (w.sentSwitch = true → exec (.spareSwitch l) s = .next (endSwitch l (setLink l (fun k => { k with spare := some { w with gotSwitch := true } }) s))) ∧
    (∀ n, w.gotSwitch = false → (linkOf l (sendSwitch l n s)).spare = some { w with sentSwitch := true } ∧
      (sendSwitch l n s).sent.length = s.sent.length + 1 ∧ sendSwitch l n s =
        { setLink l (fun k => { k with spare := some { w with sentSwitch := true }, txSwitchAt := some s.clock }) s with sent := (sendSwitch l n s).sent }) ∧
    (∀ n, w.gotSwitch = true → ∃ u, sendSwitch l n s = endSwitch l u ∧ u.sent.length = s.sent.length + 1 ∧
      u = { setLink l (fun k => { k with spare := some { w with sentSwitch := true }, txSwitchAt := some s.clock }) s with sent := u.sent })) ∧
  (∀ (s : State) (l : Fin 2) (w : SpareSwitch) (a : Fin 9) (t : State), (linkOf l s).spare = some w → w.sentSwitch = true → w.gotSwitch = true → w.lane = a.val →
    a.val ≠ spareLane l → t = endSwitch l s → (linkOf l t).spare = none ∧ (linkOf l t).spareFor = a ∧ (laneOf (linkOf l t) (spareLane l)).use = .active ∧
      (laneOf (linkOf l t) (spareLane l)).logical = (laneOf (linkOf l s) a).logical ∧ (laneOf (linkOf l t) a).use = .failed ∧
      ((linkOf l s).replayDue = false ∨ (linkOf l s).replaysInRow < 4 → (linkOf l t).stage = (linkOf l s).stage) ∧ t.faults = s.faults ∧ t.cfg = s.cfg ∧
      t.job = s.job ∧ t.mem = s.mem) ∧
  (∀ (s : State) (l : Fin 2) (gaps : List Nat), ((linkOf l s).linkUp = false ∨ (linkOf l s).stage ≠ .up → exec (.alignSkipInterval l gaps) s = .next s) ∧
    (∀ p, (linkOf l s).linkUp = true → (linkOf l s).stage = .up → p = placeFrames (16384 * (linkOf l s).width) ((0, (linkOf l s).txRest) ::
        (linkOf l s).txFrames.zipIdx.map fun e => (gaps.getD e.2 0, e.1)) → Gives (.alignSkipInterval l gaps) s fun t => LinkOnly l s t ∧
      s.sent.length < t.sent.length ∧ (linkOf l t).alignCount = (linkOf l s).alignCount + 1 ∧ (linkOf l t).txRest = p.2.1 ∧ (linkOf l t).txFrames = p.2.2 ∧
      ∀ i : Fin 9, (linkOf l t).lanes[i] = { (linkOf l s).lanes[i] with gen := (linkOf l t).lanes[i].gen } ∧
        ((linkOf l s).lanes[i].use ≠ .standby → (linkOf l t).lanes[i] = (linkOf l s).lanes[i]))) ∧
  (∀ (s : State) (c : Command), Doing s 0x1501 c → (2 ≤ listTarget c.payload 0 → Answers .linkConfig s c { status := .badArg } s) ∧
    (∀ l : Fin 2, listTarget c.payload 0 = l.val → (∀ d, judgeList (linkSpecs l) linkRelation (linkOf l s).params (listItems c.payload 0) = .error d →
        Answers .linkConfig s c { status := .badArg, detail := d } s) ∧
      (∀ m, judgeList (linkSpecs l) linkRelation (linkOf l s).params (listItems c.payload 0) = .ok m →
        Answers .linkConfig s c { status := .ok } (setLink l (fun k => { k with params := m }) s)))) ∧
  (∀ (s : State) (c : Command), Doing s 0x1502 c → (2 ≤ uAt c.payload 0 1 → Answers .linkRetrain s c { status := .badArg } s) ∧
    (∀ l : Fin 2, uAt c.payload 0 1 = l.val → ((linkOf l s).stage ≠ .up → Answers .linkRetrain s c { status := .badState } s) ∧
      ((linkOf l s).stage = .up → Answers .linkRetrain s c { status := .ok } (startRetrain l 4 s)))) ∧
  (∀ (s : State) (c : Command), Doing s 0x1503 c → (2 ≤ uAt c.payload 0 1 → Answers .linkSpare s c { status := .badArg } s) ∧
    (∀ (l : Fin 2) (n : Nat), uAt c.payload 0 1 = l.val → n = uAt c.payload 1 1 →
      (laneCount l ≤ n → Answers .linkSpare s c { status := .badArg, detail := 1 } s) ∧
      (n < laneCount l → spareFree l (linkOf l s) = false ∨ (laneOf (linkOf l s) n).use ≠ .active → Answers .linkSpare s c { status := .badState } s) ∧
      (n < laneCount l → spareFree l (linkOf l s) = true → (laneOf (linkOf l s) n).use = .active → Does .linkSpare s c { status := .ok } fun u =>
        (linkOf l u).spare = some { lane := n, byWhom := 2 } ∧ u.sent.length = s.sent.length + 1 ∧ LinkOnly l s u))) ∧
  (∀ (s : State) (c : Command), Doing s 0x1505 c → (2 ≤ uAt c.payload 0 1 → Answers .linkStatus s c { status := .badArg } s) ∧
    (∀ (l : Fin 2) (k : Link), uAt c.payload 0 1 = l.val → k = linkOf l s → Answers .linkStatus s c (Reply.mk .ok 0
      (leBytes 1 (bitAt k.linkUp 0) ++ leBytes 1 k.rate ++ leBytes 1 k.width ++ leBytes 1 k.spareFor ++ leBytes 2 (laneUp k) ++
        leBytes 2 (statusUsable l k) ++ leBytes 4 k.retrains ++ leBytes 4 k.resets ++ leBytes 8 k.replays)) s)) ∧
  (∀ (s : State) (c : Command) (rx : List Bool), Doing s 0x1504 c → 2 ≤ uAt c.payload 0 1 → Answers (.linkTest rx) s c { status := .badArg } s) ∧
  (∀ (s : State) (c : Command) (l : Fin 2) (n op : Nat) (rx : List Bool) (k : Checker), Doing s 0x1504 c → uAt c.payload 0 1 = l.val →
    n = uAt c.payload 1 1 → op = uAt c.payload 2 1 → k = (laneOf (linkOf l s) n).test.chk →
    (laneCount l ≤ n → Answers (.linkTest rx) s c { status := .badArg, detail := 1 } s) ∧
    (n < laneCount l → (∀ d, testBad c.payload = some d → Answers (.linkTest rx) s c { status := .badArg, detail := d } s) ∧
      (testBad c.payload = none →
        (testAllowed l n op (uAt c.payload 3 1) s = false ∨ (op = 7 ∧ l ≠ 0) → Answers (.linkTest rx) s c { status := .badState } s) ∧
        (testAllowed l n op (uAt c.payload 3 1) s = true → ¬(op = 7 ∧ l ≠ 0) →
          (op = 0 → Answers (.linkTest rx) s c { status := .ok, payload := testCounts k } (leaveTest l n s)) ∧
          (op = 1 → Answers (.linkTest rx) s c { status := .ok, payload := testCounts {} }
            (enterTest l n (·.begin (uAt c.payload 3 1) (uAt c.payload 4 1 = 1)) s)) ∧
          (op = 2 → Answers (.linkTest rx) s c { status := .ok, payload := testCounts (laneOf (linkOf l (runTest l n rx s)) n).test.chk }
            (setTest l n (fun t => { t with chk := { t.chk with bits := 0, errors := 0 } }) (runTest l n rx s))) ∧
          (op = 3 → Answers (.linkTest rx) s c { status := .ok, payload := testCounts k } (enterTest l n (fun t => { t with loopNear := true }) s)) ∧
          (op = 4 → Answers (.linkTest rx) s c { status := .ok, payload := testCounts k } (enterTest l n (fun t => { t with loopFar := true }) s)) ∧
          (op = 5 → Answers (.linkTest rx) s c { status := .ok, payload := testCounts k } (setTest l n (fun t => { t with injectOne := true }) s)) ∧
          (op = 6 → Answers (.linkTest rx) s c { status := .ok, payload := testCounts k }
            (setTest l n (fun t => { t with injectRate := some (uAt c.payload 5 1) }) s)) ∧
          (op = 7 → Answers (.linkTest rx) s c { status := .ok, payload := testCounts {} } (setLink l (fun k => { k with corrupt := uAt c.payload 5 1 }) s)) ∧
          (op = 8 → ∃ (e : Checker) (u : State), e.bits = min (uAt c.payload 8 8) (2 ^ 48 - 1) ∧
            Answers (.linkTest rx) s c { status := .ok, payload := testCounts e } u ∧ (laneOf (linkOf l u) n).test.margin = true ∧
            (laneOf (linkOf l u) n).test.phase = iAt c.payload 6 1 ∧ (laneOf (linkOf l u) n).test.thresh = iAt c.payload 7 1 ∧
            ((laneOf (linkOf l s) n).use = .standby → (laneOf (linkOf l u) n).use = .standby) ∧
            ((laneOf (linkOf l s) n).use ≠ .standby → (laneOf (linkOf l u) n).use = .test) ∧ u.cfg = s.cfg ∧ u.job = s.job ∧ u.mem = s.mem ∧
            u.faults = s.faults ∧ u.evr = s.evr))))) ∧
  (∀ (s : State) (l : Fin 2) (n : Fin 9) (f : LaneTest → LaneTest) (t : State), t = enterTest l n f s →
    (laneOf (linkOf l t) n).use = .test ∧ (laneOf (linkOf l t) n).test = f (laneOf (linkOf l s) n).test ∧
    ((laneOf (linkOf l s) n).use = .active → (linkOf l s).stage = .up → (linkOf l t).stage = .retrain) ∧
    ((laneOf (linkOf l s) n).use ≠ .active ∨ (linkOf l s).stage ≠ .up → t = setLink l (setLane n fun q => { q with use := .test, test := f q.test }) s)) ∧
  (∀ (s : State) (l : Fin 2) (n : Fin 9) (t : State), t = leaveTest l n s → ((laneOf (linkOf l s) n).use = .test →
      (laneOf (linkOf l t) n).use = (if (laneOf (linkOf l s) n).unusable = true then .spareBad else if n.val = spareLane l ∧ (linkOf l s).width = fullWidth l ∧ (linkOf l s).spareFor = 0xF ∧
        (laneOf (linkOf l s) n).lock = true then .standby else .unused)) ∧ ((laneOf (linkOf l s) n).use ≠ .test → (laneOf (linkOf l t) n).use = (laneOf (linkOf l s) n).use) ∧
    (laneOf (linkOf l t) n).test = { (laneOf (linkOf l s) n).test with
      running := false, loopNear := false, loopFar := false, injectOne := false, injectRate := none, margin := false, phase := 0, thresh := 0 } ∧
    t = setLink l (setLane n fun _ => laneOf (linkOf l t) n) s) ∧
  (∀ (s : State) (l : Fin 2) (n : Fin 9) (rx : List Bool) (p : Lane) (q : LaneTest) (x : List Bool × LaneTest) (y : LaneTest × Nat × Nat) (t : State),
    p = laneOf (linkOf l s) n → q = p.test → x = q.line n p.logical (linkOf l s).alignCount.toNat rx.length →
    y = x.2.hears n (if q.loopNear then x.1 else rx) → t = runTest l n rx s →
    (laneOf (linkOf l t) n).test = y.1 ∧ (laneOf (linkOf l t) n).invalid = p.invalid + y.2.1 ∧
    (q.framed = false → y.1 = { (q.sends rx.length).2 with
      chk := Checker.run_ q.pattern q.chk (if q.loopNear then (q.sends rx.length).1 else rx) } ∧ y.2 = (0, 0)) ∧
    t.sent.length = s.sent.length + 1 ∧ t = setLink l (setLane n fun _ => laneOf (linkOf l t) n) { s with sent := t.sent, life := t.life }) ∧
  (∀ (lane logical count n : Nat) (t : LaneTest), t.framed = true → (t.line lane logical count n).1.length = n ∧
    (t.block lane logical count).1.length = 130 ∧
    (t.txPos = 0 → (t.block lane logical count).1 = blockBits true (withCheck (alignBlock logical lane count 0 t.txCheck))) ∧
    (t.txPos = 1 → (t.block lane logical count).1 = blockBits true (withCheck skipBlock)) ∧
    (2 ≤ t.txPos → (t.block lane logical count).1.take 2 = [false, true] ∧
      (t.block lane logical count).2.txPos = if 4097 ≤ t.txPos then 0 else t.txPos + 1))

/-- O57. A host frame is met in the order of Table 4.9: nothing while the link is not up or data is discarded; an unknown type is a framing error,
which discards data, and a bad CRC draws one NAK until the next good frame; a wrong field is a protocol error with a link reset; a later frame draws a
NAK, an earlier one is acknowledged again, and neither acts; credit overrun is a protocol error. An accepted frame advances the expected count, uses
its credit and is acknowledged. MWR stores its enabled bytes, or is discarded and counted for a length or boundary, its enables, BOOT, or an address
beyond the DRAM. MRD is answered by one completion: its bytes, UNINIT, poison or a refusal. RWR writes command-area bytes it enables, or one register;
RRD answers area bytes or one register, or is refused. COMPLETION_SEND sends the first message credit admits and keeps it; an ACK frees the frames up
to its own; a NAK also sends the rest again; a fourth fruitless replay starts a retrain, and during a spare switch a replay waits; CREDIT takes the
partner's limits, and the credit timer advertises what has been used plus the buffers. (R107, R108, R109, R110, R111, R112, R113, R114, R115, R119,
Table 4.9, Table 4.11) -/
def Obligations.FramesAreCheckedAcknowledgedAndServed : Prop :=
  (∀ (s : State) (f : List Byte) (alert : Bool) (i : Instr) (h : FrameHeader) (ty vc : Nat) (fits : Prop), h = frameHeader f →
    (i, ty, vc, fits) ∈ [(Instr.mwrReceived f alert, 1, 1, h.len ≤ 4096 ∧ h.tag = 0 ∧ h.addr < 2 ^ 40),
      (.mrdReceived f, 2, 2, h.be = 0 ∧ h.len = 0 ∧ h.addr < 2 ^ 53 ∧ 4 ≤ mrdLen h ∧ mrdLen h ≤ 4096 ∧ mrdLen h % 4 = 0),
      (.rwrReceived f, 4, 0, h.len ≤ 1024 ∧ h.tag = 0 ∧ h.addr < 2 ^ 16),
      (.rrdReceived f, 5, 0, h.be = 0 ∧ h.len = 0 ∧ h.addr < 2 ^ 27 ∧ 4 ≤ rrdLen h ∧ rrdLen h ≤ 1024 ∧ rrdLen h % 4 = 0)] →
    (s.host.linkUp = false ∨ s.host.stage ≠ .up ∨ s.host.rxDiscard = true → exec i s = .next s) ∧
    (s.host.linkUp = true → s.host.stage = .up → s.host.rxDiscard = false →
      (h.ftype ∉ typesIn 0 → h.ftype ∉ typesWrong 0 → h.ftype ∉ typesLink → exec i s = .next (framingError 0 s)) ∧
      ((h.ftype ∈ typesIn 0 ∨ h.ftype ∈ typesLink) → h.ftype ≠ ty → exec i s = .next s) ∧
      (h.ftype = ty ∨ h.ftype ∈ typesWrong 0 →
        (frameCrcOk s.host.expect f = none → exec i s = .next (nakFrame 0 s)) ∧
        (∀ q, frameCrcOk s.host.expect f = some q →
          (h.ftype ≠ ty ∨ 4096 ≤ h.seqField ∨ h.len % 4 ≠ 0 ∨ ¬fits → exec i s = .next (linkProtocol 0 3 h.ftype h.seqField h.len s)) ∧
          (h.ftype = ty → h.seqField < 4096 → h.len % 4 = 0 → fits →
            (q ≠ s.host.expect → (q + 2 ^ 32 - s.host.expect) % 2 ^ 32 < 2 ^ 31 → exec i s = .next (nakFrame 0 s)) ∧
            (q ≠ s.host.expect → 2 ^ 31 ≤ (q + 2 ^ 32 - s.host.expect) % 2 ^ 32 → exec i s = .next (sendAckNak 0 false (before s.host.expect) s)) ∧
            (q = s.host.expect → withinCredit (nthOr s.host.vc vc {}) (ceilDiv h.len 16) = false →
              exec i s = .next (linkProtocol 0 4 h.ftype h.seqField h.len s))))))) ∧
  (∀ (s t : State) (l : Fin 2), t = nakFrame l s → ((linkOf l s).nakOut = true → t = s) ∧
    ((linkOf l s).nakOut = false → (linkOf l t).nakOut = true ∧ (linkOf l t).nakSent = wrapAdd 32 (linkOf l s).nakSent 1 ∧
      ((linkOf l s).spare = none → t.sent.length = s.sent.length + 1 ∧ (linkOf l t).nakDue = (linkOf l s).nakDue) ∧
      (∀ w, (linkOf l s).spare = some w → t.sent = s.sent ∧ (linkOf l t).nakDue = true) ∧
      (linkOf l t).expect = (linkOf l s).expect ∧ t = { setLink l (fun _ => linkOf l t) s with sent := t.sent, evr := t.evr })) ∧
  (∀ (s : State) (l : Fin 2), framingError l s = nakFrame l (setLink l (fun k => { k with rxDiscard := true, rxAligned := 0 }) s)) ∧
  (∀ (s t : State) (l : Fin 2) (nak : Bool) (q : Nat), t = sendAckNak l nak q s →
    ((linkOf l s).spare = none → t.sent.length = s.sent.length + 1 ∧ LinkOnly l s t) ∧
    (∀ w, (linkOf l s).spare = some w → t = setLink l (fun k => if nak then { k with nakDue := true } else { k with ackDue := true }) s)) ∧
  (∀ (s t : State) (l : Fin 2) (row a b n : Nat), t = linkProtocol l row a b n s → (linkOf l t).stage = .detect ∧ (linkOf l t).linkUp = false ∧
    (linkOf l t).resets = wrapAdd 32 (linkOf l s).resets 1 ∧ t.cfg = s.cfg ∧ t.job = s.job ∧ t.win = s.win ∧ t.mem.dram = s.mem.dram) ∧
  (∀ (s v : State) (f : List Byte) (h : FrameHeader), Accepted s 0x01 1 f h v → h.len ≤ 4096 → h.tag = 0 → h.addr < 2 ^ 40 → ∀ alert,
    ((h.len = 0 ∨ 4096 < h.addr % 4096 + h.len) → exec (.mwrReceived f alert) s = .next (discardAccess 1 h v)) ∧
    (0 < h.len → h.addr % 4096 + h.len ≤ 4096 → (enablesOk h = false → exec (.mwrReceived f alert) s = .next (discardAccess 2 h v)) ∧
      (enablesOk h = true → (dramAway s = true → exec (.mwrReceived f alert) s = .next (discardAccess 3 h v)) ∧
        (dramAway s = false → (beyondFitted s h.addr h.len = true → exec (.mwrReceived f alert) s = .next (discardAccess 4 h v)) ∧
          (beyondFitted s h.addr h.len = false → (channelStopped s h.addr = true → exec (.mwrReceived f alert) s = .next v) ∧
            (channelStopped s h.addr = false →
              (alert = true → Gives (.mwrReceived f alert) s fun t => t.mem.dram = s.mem.dram ∧ t.cfg = s.cfg ∧ t.job = s.job ∧ t.win = s.win ∧
                (latchedAt s (blockInst (0x13 + channelOf h.addr)) = none → latchedAt t (blockInst (0x13 + channelOf h.addr)) = some .drcCrc)) ∧
              (∀ w : State, alert = false → w = dramWriteEn 3 h.addr (enabledBytes h (framePayload f)) v → Gives (.mwrReceived f alert) s fun t =>
                t = { w with mem := { w.mem with cvu := t.mem.cvu } } ∧ ((∀ u ∈ s.mem.cvu, u.point ≠ 1) → t = w)))))))) ∧
  (∀ (s v : State) (f : List Byte) (h : FrameHeader) (a n : Nat), Accepted s 0x02 2 f h v → h.be = 0 → h.len = 0 → h.addr < 2 ^ 53 → n = mrdLen h →
    a = h.addr % 2 ^ 40 → 4 ≤ n → n ≤ 4096 → n % 4 = 0 →
    (s.sys.mode = .boot → exec (.mrdReceived f) s = .next (complete false h 0x5 [] (evLinkAccess 3 a n h v))) ∧
    (s.sys.mode = .keepalive → exec (.mrdReceived f) s = .next (complete false h 0x5 [] v)) ∧
    (dramAway s = false →
      (beyondFitted s a n = true → exec (.mrdReceived f) s = .next (complete false h 0x3 [] (evLinkAccess 4 a n h v))) ∧
      (beyondFitted s a n = false → (uninitRange s a n = true → exec (.mrdReceived f) s = .next (complete false h 0x1 [] v)) ∧
        (uninitRange s a n = false → ((linesOf a n).any (channelStopped s) = true → exec (.mrdReceived f) s = .next (complete false h 0x5 [] v)) ∧
          ((linesOf a n).any (channelStopped s) = false → (∀ d u, dramRead 3 a n v = (some d, u) → exec (.mrdReceived f) s = .next (complete false h 0x0 d u)) ∧
            (∀ u, dramRead 3 a n v = (none, u) → exec (.mrdReceived f) s = .next (complete false h 0x2 [] u))))))) ∧
  (∀ (s v : State) (f : List Byte) (h : FrameHeader), Accepted s 0x04 0 f h v → h.len ≤ 1024 → h.tag = 0 → h.addr < 2 ^ 16 →
    (windowReady s = false → exec (.rwrReceived f) s = .next v) ∧
    (windowReady s = true →
      (inAreas h.addr h.len = false → (h.len = 4 → h.be = 0x0F → h.addr % 4 = 0 →
          exec (.rwrReceived f) s = .next (writeWord .host h.addr (leNat (framePayload f)) v)) ∧
        ((h.len ≠ 4 ∨ h.be ≠ 0x0F ∨ h.addr % 4 ≠ 0) → exec (.rwrReceived f) s = .next (discardAccess 5 h v))) ∧
      (inAreas h.addr h.len = true → (enablesOk h = false → exec (.rwrReceived f) s = .next (discardAccess 2 h v)) ∧
        (enablesOk h = true → (fullEnables h = false → inCommandAreas h.addr h.len = false → exec (.rwrReceived f) s = .next (discardAccess 2 h v)) ∧
          ((fullEnables h = true ∨ inCommandAreas h.addr h.len = true) →
            exec (.rwrReceived f) s = .next (writeAreaBytes h.addr (enabledBytes h (framePayload f)) v)))))) ∧
  (∀ (s v : State) (f : List Byte) (h : FrameHeader) (o n : Nat), Accepted s 0x05 0 f h v → h.be = 0 → h.len = 0 → h.addr < 2 ^ 27 → n = rrdLen h →
    o = rrdOffset h → 4 ≤ n → n ≤ 1024 → n % 4 = 0 →
    (inAreas o n = true → exec (.rrdReceived f) s = .next (complete true h 0x0 (areaBytes v o n) v)) ∧
    (inAreas o n = false → n = 4 → o % 4 = 0 → exec (.rrdReceived f) s =
      .next (complete true h 0x0 (leBytes 4 (readWord .host o v).1.toNat) (readWord .host o v).2)) ∧
    (inAreas o n = false → n ≠ 4 ∨ o % 4 ≠ 0 → exec (.rrdReceived f) s = .next (complete true h 0x4 [] (evLinkAccess 5 o n h v)))) ∧
  (∀ (s : State) (reason a n : Nat) (h : FrameHeader) (t : State), (t = evLinkAccess reason a n h s → EventsOnly s t) ∧
    (t = discardAccess reason h s → EventsOnly { s with host := { s.host with accessDiscard := wrapAdd 32 s.host.accessDiscard 1 } } t)) ∧
  (∀ (s : State) (l : Fin 2) (m : TxMsg), (sendsFrames (linkOf l s) = false → exec (.completionSend l) s = .next s) ∧
    (sendsFrames (linkOf l s) = true →
      (firstAdmitted (linkOf l s) ((linkOf l s).unacked.any fun e => e.2.isMirror) [] (linkOf l s).held = none → exec (.completionSend l) s = .next s) ∧
      (firstAdmitted (linkOf l s) ((linkOf l s).unacked.any fun e => e.2.isMirror) [] (linkOf l s).held = some m →
        m ∈ (linkOf l s).held ∧ creditAdmits (nthOr (linkOf l s).vc m.vc {}) m = true ∧ replayRoom (linkOf l s) m = true ∧
        Gives (.completionSend l) s fun t => (linkOf l t).held = (linkOf l s).held.erase m ∧
          (linkOf l t).unacked = (linkOf l s).unacked ++ [((linkOf l s).txSeq, stampSent s.time.tb.toNat m)] ∧
          (linkOf l t).txSeq = ((linkOf l s).txSeq + 1) % 2 ^ 32 ∧ LinkOnly l s t ∧
          t.sent = ⟨.linkFrame l, frameBytes (linkOf l s).txSeq (stampSent s.time.tb.toNat m) (decide (0 < (linkOf l s).corrupt))⟩ :: s.sent))) ∧
  (∀ (s : State) (l : Fin 2) (f : List Byte) (k : Link) (deafNow : Prop), k = linkOf l s →
    deafNow = ((k.linkUp = false ∧ k.stage ≠ .active) ∨ k.rxDiscard = true ∨ k.stage = .retrain) →
    (∀ (i : Instr) (ty : Nat), (i, ty) ∈ [(Instr.ackReceived l f, 0x80), (.nakReceived l f, 0x81), (.creditReceived l f, 0x82)] →
      (deafNow → exec i s = .next s) ∧
      (¬deafNow → (linkFrameGood f ty = false → exec i s = .next (badLinkFrame l s)) ∧
        (linkFrameGood f ty = true → linkFrameClear f = false →
          exec i s = .next (linkProtocol l 3 ty (if ty = 0x82 then 0 else uAt f 2 2) 0 s)))) ∧
    (¬deafNow → linkFrameClear f = true →
      (linkFrameGood f 0x80 = true → exec (.ackReceived l f) s = .next (setLink l (freeAcked (uAt f 2 2 % 4096)) s)) ∧
      (linkFrameGood f 0x81 = true → ∀ u : State,
        u = setLink l (fun k => freeAcked (uAt f 2 2 % 4096) { k with nakReceived := wrapAdd 32 k.nakReceived 1 }) s →
        exec (.nakReceived l f) s = .next (replay l (if l = 0 then touchGroup 5 u else u))) ∧
      (linkFrameGood f 0x82 = true → (3 ≤ uAt f 1 1 → exec (.creditReceived l f) s = .next s) ∧
        (∀ v : Fin 3, uAt f 1 1 = v.val → Gives (.creditReceived l f) s fun t =>
          t = setLink l (fun k => { k with vc := k.vc.set v { k.vc[v] with
            txHdrLimit := BitVec.ofNat 8 (uAt f 2 1), txDataLimit := BitVec.ofNat 16 (uAt f 4 2), gotCredit := true } }) s)))) ∧
  (∀ (k : Link) (pre post : List (Nat × TxMsg)) (x : Nat × TxMsg) (low : Nat),
    (k.unacked = pre ++ x :: post → (∀ y ∈ pre, y.1 % 4096 ≠ low) → x.1 % 4096 = low → freeAcked low k = { k with unacked := post, replaysInRow := 0 }) ∧
    ((∀ y ∈ k.unacked, y.1 % 4096 ≠ low) → freeAcked low k = k)) ∧
  (∀ (s t : State) (l : Fin 2), t = replay l s → ((linkOf l s).unacked = [] → t = s) ∧
    ((linkOf l s).unacked ≠ [] →
      (∀ w, (linkOf l s).spare = some w → t = setLink l (fun k => { k with replayDue := true }) s) ∧
      ((linkOf l s).spare = none → 4 ≤ (linkOf l s).replaysInRow → t = startRetrain l 1 s) ∧
      ((linkOf l s).spare = none → (linkOf l s).replaysInRow < 4 → (linkOf l t).replays = wrapAdd 64 (linkOf l s).replays 1 ∧
        (linkOf l t).replaysInRow = (linkOf l s).replaysInRow + 1 ∧ t.sent.length = s.sent.length + (linkOf l s).unacked.length ∧
        (linkOf l t).unacked = (linkOf l s).unacked ∧ (linkOf l t).txSeq = (linkOf l s).txSeq ∧ LinkOnly l s t))) ∧
  (∀ (s : State) (l : Fin 2), ((linkOf l s).linkUp = false ∨ (linkOf l s).stage ≠ .up →
      exec (.replayTimeout l) s = .next s ∧ exec (.creditUpdateTimer l) s = .next s) ∧
    ((linkOf l s).linkUp = true → (linkOf l s).stage = .up → exec (.replayTimeout l) s = .next (replay l s) ∧
      (∀ w, (linkOf l s).spare = some w → exec (.creditUpdateTimer l) s = .next (setLink l (fun k => { k with creditDue := true }) s)) ∧
      ((linkOf l s).spare = none → Gives (.creditUpdateTimer l) s fun t =>
        (∀ v : Fin 3, (linkOf l t).vc[v].rxHdrLimit = (linkOf l s).vc[v].rxHdrUsed + BitVec.ofNat 8 (vcHdr l v) ∧
          (linkOf l t).vc[v].rxDataLimit = (linkOf l s).vc[v].rxDataUsed + BitVec.ofNat 16 (vcData l v)) ∧ t.sent.length = s.sent.length + 3 ∧
        LinkOnly l s t)))

/-- O58. A flush ends not before its permit has been gone for 1 us; an export waiting for it may then begin. Ended without findings, no word being in
error and the MRAM writable, it moves every group it has not moved before: each nozzle's stored total becomes its stored and accumulated fires
together, saturated; a fire counted in a group moved before stays for the next flush; it raises the calendar's SEQ. The MRAM not being writable, it
writes nothing; whatever it finds, it ends. WRITEBACK_TIMER, once WB_PERIOD has passed, and life.flush start one, or join the one running. life.read
answers the bytes of a legal range; life.counters the live totals; life.write writes the host area alone, and is BUSY after PWR_FAIL_N has fallen; all
three read the words first. What is written reads back, and a block that fails its compare is to be remapped: to the lowest free spare, the one it had
being retired, and with none free LIF_FAIL is raised. A lost counter group counts as zero. life.clear takes a port's counters and head history to zero
and no other port's counters, or frees a repaired or failed DRAM entry; life.format wants its key, zeroes the counters and keeps the repair map.
life.export is checked in its order and starts its flush, a compressed one taking a free compressor; LIFE_EXPORT_DONE puts the image, or what the
compressor has made of it, into the buffer. life.config sets the write-back period. (R480, R482, R485, R488, R489, R490, R492, R493, R495, R496, R497,
R498) -/
def Obligations.TheLifeMemoryKeepsItsRecords : Prop :=
  (∀ (s : State) (fs : List LifeFinding) (u : State), (s.life.flush = none → exec (.flushEnd fs) s = .next (startExport s)) ∧
    (∀ f, s.life.flush = some f → (3 ≤ f.trigger → s.clock < f.startAt + 800 → exec (.flushEnd fs) s = .next s) ∧
      (f.trigger < 3 ∨ f.startAt + 800 ≤ s.clock → u = fs.foldl damage (countTime s) → Gives (.flushEnd fs) s fun t => t.life.flush = none ∧
        t.cfg = s.cfg ∧ t.job = s.job ∧ t.win = s.win ∧ t.audit = s.audit ∧
        (lifeWritable u = false → t.life.nv = u.life.nv ∧ t.life.acc = u.life.acc ∧ t.life.cal = u.life.cal)))) ∧
  (∀ (s : State) (f : Flush), s.life.flush = some f → f.trigger < 3 ∨ f.startAt + 800 ≤ s.clock → lifeWritable s = true → SMap.wf 0 s.life.acc = true →
    (∀ e ∈ s.life.acc, e.1 < 131072) → Memory.wf s.life.nv.mram = true → s.life.nv.synd = [] → (∀ w < 65536, SMap.get 0 s.mem.ondie (accWord w) = 0) →
    Gives (.flushEnd []) s fun t => t.life.flush = none ∧ (∀ e, e ∈ t.life.acc ↔ e ∈ s.life.acc ∧ e.1 / 4 < f.next) ∧
      (∀ p < 16, ∀ n < 8192, liveTotal t p n = liveTotal s p n ∧ (f.next ≤ accKey p n / 4 → storedTotal t p n = liveTotal s p n)) ∧ t.life.cal.seq = (s.life.cal.seq + 1) % 2 ^ 32 ∧ t.life.cal.clean = f.clean ∧
      t.life.pendingLog = [] ∧ t.life.pendingModes = [] ∧ (∀ a, 0xD5000 ≤ a → Mem.read t.life.nv.mram a = Mem.read s.life.nv.mram a) ∧
      t.cfg = s.cfg ∧ t.job = s.job ∧ t.mem = s.mem ∧ t.sys.mode = s.sys.mode) ∧
  (∀ (s : State) (k : Nat), (lifeWritable s = false → startFlush k s = s) ∧ (lifeWritable s = true →
    (s.life.flush = none → startFlush k s =
      bgStart .flush { s with life := { s.life with flush := some { trigger := k, clean := k == 3 || k == 5, startAt := s.clock } } }) ∧
    (∀ f, s.life.flush = some f → startFlush k s = { s with life := { s.life with flush := some { f with clean := f.clean || k == 5 } } }))) ∧
  (∀ s : State, (verupRuns s = false ∨ s.clock < s.life.wbAt + 800000000 * pnat s.life.params 1 0 60 → exec .writebackTimer s = .next s) ∧
    (verupRuns s = true → s.life.wbAt + 800000000 * pnat s.life.params 1 0 60 ≤ s.clock →
      exec .writebackTimer s = .next (startFlush 1 { s with life := { s.life with wbAt := s.clock } }))) ∧
  (∀ (s : State) (c : Command), Doing s 0x1605 c → Answers .lifeFlush s c { status := .ok } (startFlush 2 s)) ∧
  (∀ (s : State) (c : Command), Doing s 0x1601 c → listTarget c.payload 0 ≠ 0 → Answers .lifeConfig s c { status := .badArg } s) ∧
  (∀ (s : State) (c : Command), Doing s 0x1601 c → listTarget c.payload 0 = 0 →
    (∀ d, judgeList [⟨1, 1, 1, 3600, some 60⟩] noRelation s.life.params (listItems c.payload 0) = .error d →
      Answers .lifeConfig s c { status := .badArg, detail := d } s) ∧
    (∀ m, judgeList [⟨1, 1, 1, 3600, some 60⟩] noRelation s.life.params (listItems c.payload 0) = .ok m →
      Answers .lifeConfig s c { status := .ok } { s with life := { s.life with params := m } })) ∧
  (∀ (s : State) (c : Command) (off n : Nat), Doing s 0x1602 c → off = uAt c.payload 0 4 → n = uAt c.payload 4 2 →
    (1048576 ≤ off → Answers .lifeRead s c { status := .badArg } s) ∧
    (off < 1048576 → (n = 0 ∨ 1008 < n ∨ 1048576 < off + n) → Answers .lifeRead s c { status := .badArg, detail := 4 } s) ∧
    (∀ (bs : List Byte) (u : State), 1 ≤ n → n ≤ 1008 → off + n ≤ 1048576 → storedBytes off n (meetWords off n s) = (bs, u) →
      Answers .lifeRead s c { status := .ok, payload := bs } u ∧ bs.length = n ∧ (s.life.nv.synd = [] → bs = mramBytes s off n ∧ u = s))) ∧
  (∀ (s : State) (c : Command) (port first n : Nat), Doing s 0x1603 c → port = uAt c.payload 0 1 → first = uAt c.payload 2 2 → n = uAt c.payload 4 2 →
    (16 ≤ port → Answers .lifeCounters s c { status := .badArg } s) ∧
    (port < 16 → 8192 ≤ first → Answers .lifeCounters s c { status := .badArg, detail := 2 } s) ∧
    (port < 16 → first < 8192 → (n = 0 ∨ 168 < n ∨ 8192 < first + n) → Answers .lifeCounters s c { status := .badArg, detail := 4 } s) ∧
    (∀ u : State, port < 16 → 1 ≤ n → n ≤ 168 → first + n ≤ 8192 →
      u = meetAccs (fun w => decide (accKey port first / 2 ≤ w) && decide (w ≤ accKey port (first + n - 1) / 2))
        (meetWords (groupOffset port first) (groupOffset port (first + n - 1) + 24 - groupOffset port first) s) →
      Answers .lifeCounters s c { status := .ok, payload := (List.range n).flatMap fun i => leBytes 6 (liveTotal u port (first + i)) } u ∧
      (s.life.nv.synd = [] → (∀ w < 65536, SMap.get 0 s.mem.ondie (accWord w) = 0) → u = s))) ∧
  (∀ (s : State) (c : Command) (off n : Nat), Doing s 0x1604 c → off = uAt c.payload 0 4 → n = uAt c.payload 4 2 →
    ((off < 0xD5000 ∨ 0xF5000 < off + n) → Answers .lifeWrite s c { status := .badArg } s) ∧
    (0xD5000 ≤ off → off + n ≤ 0xF5000 → (s.sys.pwrFailN = false → Answers .lifeWrite s c { status := .busy } s) ∧
      (s.sys.pwrFailN = true → lifeWritable s = false → Answers .lifeWrite s c { status := .badState } s) ∧
      (∀ u : State, s.sys.pwrFailN = true → lifeWritable s = true → u = meetWords off n s →
        (lifeWritable u = true → Answers .lifeWrite s c { status := .ok } (mramPut off ((c.payload.drop 8).take n) u)) ∧
        (lifeWritable u = false → Answers .lifeWrite s c { status := .badState } u) ∧ (s.life.nv.synd = [] → u = s)))) ∧
  (∀ (s t : State) (off : Nat) (bs : List Byte), t = mramPut off bs s → (Memory.wf s.life.nv.mram = true → mramBytes t off bs.length = bs) ∧
    (∀ w, off ≤ 8 * w + 7 → 8 * w < off + bs.length → SMap.get 0 t.life.nv.synd w = 0) ∧
    (∀ b ∈ s.life.nv.weak, b ≠ 0 → off < 4096 * (b + 1) → 4096 * b < off + bs.length → b ∈ t.life.due)) ∧
  (∀ (s t : State) (b i : Nat), t = remapBlock b 1 s → b ≠ 0 → b < 256 → lifeWritable s = true →
    (List.range 16).find? (fun j => nthOr s.life.hdr.remap j 0 == 0xFFFF) = some i → nthOr t.life.hdr.remap i 0 = b ∧
      (∀ j < 16, nthOr s.life.hdr.remap j 0 = b → (∀ k < j, nthOr s.life.hdr.remap k 0 ≠ b) → nthOr t.life.hdr.remap j 0 = 0xFFFE) ∧ b ∉ t.life.nv.weak ∧
      t.faults = s.faults ∧ t.cfg = s.cfg ∧ t.job = s.job) ∧
  (∀ (s t : State) (b : Nat), t = remapBlock b 1 s → b ≠ 0 → lifeWritable s = true → (∀ j < 16, nthOr s.life.hdr.remap j 0 ≠ 0xFFFF) →
    t.life.hdr.sparesExhausted = true ∧ (s.sys.mode = .boot → t.life.noSpare = true) ∧
    (s.sys.mode ≠ .boot → s.sys.mode ≠ .keepalive → latchedAt s (blockInst lifeSource) = none → latchedAt t (blockInst lifeSource) = some .lifFail)) ∧
  (∀ (s t : State) (p n : Nat), p < 16 → n < 8192 → t = loseGroup (groupOffset p n) s → Memory.wf s.life.nv.mram = true → lifeWritable s = true →
    storedTotal t p n = 0 ∧ t.life.hdr.countsLost = true ∧ (∀ q < 16, ∀ m < 8192, (q, m / 4) ≠ (p, n / 4) → storedTotal t q m = storedTotal s q m)) ∧
  (∀ (s : State) (c : Command) (p : Nat), Doing s 0x1606 c → p = uAt c.payload 1 1 → uAt c.payload 0 1 = 0 →
    (16 ≤ p → Answers .lifeClear s c { status := .badArg, detail := 1 } s) ∧
    (p < 16 → (s.sys.pwrFailN = false → Answers .lifeClear s c { status := .busy } s) ∧
      (s.sys.pwrFailN = true → lifeWritable s = false → Answers .lifeClear s c { status := .badState } s) ∧
      (s.sys.pwrFailN = true → lifeWritable s = true → Answers .lifeClear s c { status := .ok } (clearPort p s)))) ∧
  (∀ (s u : State) (p : Fin 16), u = clearPort p.val s → lifeWritable s = true → Memory.wf s.life.nv.mram = true →
    (∀ n < 8192, liveTotal u p.val n = 0) ∧ (∀ q < 16, q ≠ p.val → ∀ n < 8192, liveTotal u q n = liveTotal s q n) ∧ u.life.heads[p] = {} ∧
    mramBytes u (0x3000 + 256 * p.val) 256 = withCv (headHistBody {}) ∧ u.cfg = s.cfg ∧ u.job = s.job ∧ u.mem = s.mem) ∧
  (∀ (s : State) (c : Command) (i : Nat) (e : RepairEntry), Doing s 0x1606 c → uAt c.payload 0 1 = 1 → i = uAt c.payload 2 2 → e = s.life.repairs.getD i [] →
    (s.life.repairs.length ≤ i ∨ uAt e 0 1 ≠ 3 ∨ (uAt e 1 1 ≠ 1 ∧ uAt e 1 1 ≠ 2) → Answers .lifeClear s c { status := .badArg, detail := 2 } s) ∧
    (i < s.life.repairs.length → uAt e 0 1 = 3 → uAt e 1 1 = 1 ∨ uAt e 1 1 = 2 →
      (s.sys.pwrFailN = false → Answers .lifeClear s c { status := .busy } s) ∧
      (s.sys.pwrFailN = true → lifeWritable s = false → Answers .lifeClear s c { status := .badState } s) ∧
      (s.sys.pwrFailN = true → lifeWritable s = true → Answers .lifeClear s c { status := .ok } (putRepairs (s.life.repairs.set i (zeros 8)) s)))) ∧
  (∀ (s : State) (c : Command), Doing s 0x1606 c → 1 < uAt c.payload 0 1 → Answers .lifeClear s c { status := .badArg } s) ∧
  (∀ (s : State) (c : Command), Doing s 0x1608 c → (uAt c.payload 0 2 ≠ 0x4C1F → Answers .lifeFormat s c { status := .badArg } s) ∧
    (uAt c.payload 0 2 = 0x4C1F → s.sys.pwrFailN = false → Answers .lifeFormat s c { status := .busy } s) ∧
    (uAt c.payload 0 2 = 0x4C1F → s.sys.pwrFailN = true → Memory.wf s.life.nv.mram = true → Does .lifeFormat s c { status := .ok } fun u =>
      u.life.headerOk = true ∧ headerValid (headerCopy u 0) = true ∧ headerValid (headerCopy u 1) = true ∧
      (∀ a, 0x2000 ≤ a → a < 0x3000 → Mem.read u.life.nv.mram a = Mem.read s.life.nv.mram a) ∧
      (∀ a, 0x3000 ≤ a → a < 1048576 → Mem.read u.life.nv.mram a = 0) ∧ u.cfg = s.cfg ∧ u.job = s.job ∧ u.mem = s.mem)) ∧
  (∀ (s : State) (c : Command) (a cap z : Nat), Doing s 0x1607 c → a = uAt c.payload 0 8 → cap = uAt c.payload 8 8 → z = uAt c.payload 16 1 →
    (1 < z → Answers .lifeExport s c { status := .badArg, detail := 16 } s) ∧
    (z ≤ 1 → (uninitRange s a cap = true → Answers .lifeExport s c { status := .uninit } s) ∧
      (uninitRange s a cap = false → (z = 0 → cap < 1048576 → Answers .lifeExport s c { status := .noSpace } s) ∧
        ((z = 1 ∨ 1048576 ≤ cap) → (s.life.export_.isSome = true → Answers .lifeExport s c { status := .busy } s) ∧
          (s.life.export_ = none → Answers .lifeExport s c { status := .ok } (startExport (startFlush 2 (bgStart .lifeExport
            { s with life := { s.life with export_ := some { addr := a, cap := cap, compress := z == 1 } } })))))))) ∧
  (∀ s : State, (s.life.export_ = none ∨ deflateUnit s = none → startExport s = s) ∧ (∀ x u, s.life.export_ = some x → deflateUnit s = some u →
    (x.compress = false ∨ s.life.flush.isSome = true ∨ (∃ r ∈ s.codec.requests, r.owner = .lifeExport) → startExport s = s) ∧
    (x.compress = true → s.life.flush = none → (∀ r ∈ s.codec.requests, r.owner ≠ .lifeExport) → startExport s = bgStart (.codec u) { s with
      codec := { s.codec with requests := s.codec.requests ++ [{ owner := .lifeExport, unit := u, deflate := true, ctx := 0, inAddr := 0, inLen := 1048576
                                                                 outAddr := x.addr, outCap := x.cap, limit := 0, entry := 0, start := true, final := true
                                                                 tag := 0 }] } }))) ∧
  (∀ (s : State) (st : Status) (z : Bool) (x : LifeExport) (bs : List Byte),
    EventsOnly (bgEnd .lifeExport (dramWrite 6 x.addr bs { s with life := { s.life with export_ := none } })) (finishExport st z x bs s)) ∧
  (∀ (s : State) (used : Nat) (made : List Byte) (pend next : List Bool),
    (s.life.export_ = none ∨ s.life.flush.isSome = true → exec (.lifeExportDone used made pend next) s = .next s) ∧
    (∀ x (bs : List Byte) (u : State), s.life.export_ = some x → s.life.flush = none → storedBytes 0 1048576 (meetWords 0 1048576 s) = (bs, u) →
      (s.life.nv.synd = [] → bs = mramBytes s 0 1048576 ∧ u = s) ∧
      (x.compress = false → exec (.lifeExportDone used made pend next) s = .next (finishExport .ok false x bs u)) ∧
      (x.compress = true → (s.codec.requests.find? (fun r => r.owner = .lifeExport) = none → exec (.lifeExportDone used made pend next) s = .next s) ∧
        (∀ r ins, s.codec.requests.find? (fun r => r.owner = .lifeExport) = some r → ins = (if next = [] then bs else bs.take used) →
          (compressorMay r next ins made pend made.length = false → exec (.lifeExportDone used made pend next) s = .next s) ∧
          (compressorMay r next ins made pend made.length = true → exec (.lifeExportDone used made pend next) s =
            .next (startWaiting (finishExport (if next = [] then .ok else .resumable) true x made (dropRequest r u))))))))

/-- O59. rtc.set, where host software steers the time, sets the RTC to the tick of the time given and makes it valid; rtc.trim sets OFFSET, K and T0;
rtc.alarm sets or disables the alarm and is EXPIRED for a second the RTC has reached. RTC_COMPENSATION adds OFFSET less the parabola, which counts for
nothing below 10 degrees, and rounds within one tick. RTC_SYNC sets the RTC from TB under TWIN or a locked PTP where they differ by more than 1 ms.
The alarm's second, or WAKE_REQ_N, latches the first cause of the wake; VBAT_LOW and XTAL_STOP clear VALID. Nothing else changes. (R499, R500, R501,
R502) -/
def Obligations.TheFawnDomainKeepsTimeAndWakes : Prop :=
  (∀ (s : State) (c : Command), Doing s 0x1701 c → (hostSteers s = false → Answers .rtcSet s c { status := .badState } s) ∧
    (hostSteers s = true → Answers .rtcSet s c { status := .ok }
      { s with fawn := { s.fawn with rtc := BitVec.ofNat 48 (uAt c.payload 0 8 * 32768 / 1000000000), phase := 0, valid := true } })) ∧
  (∀ (s : State) (c : Command), Doing s 0x1702 c → (iAt c.payload 0 1 = -128 → Answers .rtcTrim s c { status := .badArg } s) ∧
    (iAt c.payload 0 1 ≠ -128 → Answers .rtcTrim s c { status := .ok }
      { s with fawn := { s.fawn with offset := iAt c.payload 0 1, k := uAt c.payload 2 2, t0 := iAt c.payload 4 2 } })) ∧
  (∀ (s : State) (c : Command) (n : Nat), Doing s 0x1703 c → n = uAt c.payload 0 8 → (2 ^ 33 ≤ n → Answers .rtcAlarm s c { status := .badArg } s) ∧
    (n < 2 ^ 33 → n ≠ 0 → n ≤ rtcSeconds s → Answers .rtcAlarm s c { status := .expired } s) ∧
    (n < 2 ^ 33 → (n = 0 ∨ rtcSeconds s < n) → Answers .rtcAlarm s c { status := .ok } { s with fawn := { s.fawn with alarm := n } })) ∧
  (∀ s : State, ∃ up ≤ 1, exec .rtcCompensation s = .next { s with free := s.free + 1, fawn := { s.fawn with
      rtc := BitVec.ofInt 48 ((s.fawn.rtc.toNat : Int) + s.fawn.offset - (parabola s.fawn / 64000000000 + up : Nat)) } } ∧
    (parabola s.fawn % 64000000000 = 0 → up = 0)) ∧
  (∀ s : State, s.fawn.temp < 80 → exec .rtcCompensation s = .next { s with free := s.free + 1, fawn := { s.fawn with
      rtc := BitVec.ofInt 48 ((s.fawn.rtc.toNat : Int) + s.fawn.offset) } }) ∧
  (∀ (s : State) (x : BitVec 16), exec (.fawnTempSample x) s = .next { s with fawn := { s.fawn with temp := x.toInt } }) ∧
  (∀ s : State, verupRuns s = true → (discipline s = .twin ∨ discipline s = .ptp ∧ s.time.ptp.state = .locked) →
    (1000000 < ((rtcNs s : Int) - s.time.tb.toNat).natAbs → exec .rtcSync s =
      .next { s with fawn := { s.fawn with rtc := BitVec.ofNat 48 (s.time.tb.toNat * 32768 / 1000000000), phase := 0 } }) ∧
    (((rtcNs s : Int) - s.time.tb.toNat).natAbs ≤ 1000000 → exec .rtcSync s = .next s)) ∧
  (∀ s : State, verupRuns s = false ∨ discipline s = .free ∨ discipline s = .holdover ∨ discipline s = .ptp ∧ s.time.ptp.state ≠ .locked →
    exec .rtcSync s = .next s) ∧
  (∀ s : State, (s.fawn.alarm = 0 ∨ rtcSeconds s ≠ s.fawn.alarm → exec .rtcAlarmMatch s = .next s) ∧ (s.fawn.wake = true → exec .wakeRequest s = .next s ∧ exec .rtcAlarmMatch s = .next s) ∧
    (s.fawn.wake = false → exec .wakeRequest s = .next { s with fawn := { s.fawn with wake := true, cause := .request } } ∧
      (s.fawn.alarm ≠ 0 → rtcSeconds s = s.fawn.alarm → exec .rtcAlarmMatch s = .next { s with fawn := { s.fawn with wake := true, cause := .alarm } })) ∧
    exec .vbatLow s = .next { s with fawn := { s.fawn with valid := false } } ∧ exec .xtalStop s = .next { s with fawn := { s.fawn with valid := false } })

/-- O60. In the state after reset the mode is BOOT and no command waits; SYS_MODE reads 1, SYS_IRQ_EN_HOST and SYS_IRQ_EN_MGT read 0x1C00, HLNK_STATUS
reads SPARE_FOR 0xF alone, MOT_STATUS reads all axes at standstill, MBX_SEQn reads all ones, MBX_PORT 0x80, MBX_WDOG 10, MBX_FMT 2 and MBX_EVR_CTRL 1;
the other registers of Tables 3.10 to 3.16 that the tables give a zero read zero. The timebase is 0, the DRAM, the mailbox areas and the MRAM are in
canonical form (that the DRAM and MRAM list nothing at first is the model's choice, assumption log 4), and every mailbox is IDLE. LGCY_SEL is taken as
low (assumption log 4). (R83, Table 3.10, Table 3.11, Table 3.12, Table 3.13, Table 3.14, Table 3.15, Table 3.16, R455, assumption log 4) -/
def Obligations.ResetLeavesTheTablesValues : Prop :=
  State.reset.sys.mode = .boot ∧ State.reset.pending = [] ∧ State.reset.time.tb = 0 ∧ State.reset.mbx.current = none ∧
  windowWord State.reset 0x08 = 1 ∧ windowWord State.reset 0x2C = 0x1C00 ∧ windowWord State.reset 0x30 = 0x1C00 ∧
  windowWord State.reset 0x200 = 0x1E00 ∧ windowWord State.reset 0x230 = 0xFF ∧ (∀ n < 8, windowWord State.reset (0x1008 + 16 * n) = 0xFFFFFFFF) ∧
  (∀ n < 8, windowWord State.reset (0x1004 + 16 * n) = 0) ∧
  windowWord State.reset 0x1080 = 0x80 ∧ windowWord State.reset 0x1084 = 10 ∧ windowWord State.reset 0x1088 = 2 ∧ windowWord State.reset 0x10C8 = 1 ∧
  (∀ o ∈ [0x0C, 0x10, 0x14, 0x20, 0x24, 0x28, 0x40, 0x44, 0x100, 0x104, 0x108, 0x10C, 0x110, 0x114, 0x204, 0x208, 0x20C, 0x210, 0x214, 0x218, 0x21C,
      0x220, 0x224, 0x228, 0x22C, 0x234, 0x238, 0x23C, 0x10C0, 0x10C4, 0x10CC], windowWord State.reset o = 0) ∧
  Memory.wf State.reset.mem.dram = true ∧ Memory.wf State.reset.mbx.area = true ∧ Memory.wf State.reset.life.nv.mram = true ∧
  MailboxesInOrder State.reset
end

