-- ==== Sys2Proof/Laws/Memory.lean ====
section
/-! SUPPORT. Laws of the sparse tables and byte stores: what a read gives after a write, and that every operation keeps the canonical form. -/
namespace Sys2Proof.Machine

variable {α : Type}

theorem SMap.above_mono {b c : Nat} (h : c ≤ b) {m : SMap α} (hm : SMap.above b m = true) : SMap.above c m = true := by
  simp only [SMap.above, List.all_eq_true, decide_eq_true_eq] at *
  exact fun e he => Nat.lt_of_le_of_lt h (hm e he)

/-- An unlisted key reads as the default. -/
theorem SMap.get_of_above {d : α} {m : SMap α} {b a : Nat} (hm : SMap.above b m = true) (h : a ≤ b) : SMap.get d m a = d := by
  induction m with
  | nil => rfl
  | cons e m ih =>
    obtain ⟨k, v⟩ := e
    simp only [SMap.above, List.all_cons, Bool.and_eq_true, decide_eq_true_eq] at hm
    have hk : a ≠ k := by omega
    simp [SMap.get, hk, ih hm.2]

variable [DecidableEq α]

/-- A put key reads as the value put. -/
@[simp] theorem SMap.get_put_same (d : α) (m : SMap α) (a : Nat) (v : α) (hm : SMap.wf d m = true) : SMap.get d (SMap.put d m a v) a = v := by
  induction m with
  | nil => by_cases h : v = d <;> simp [SMap.put, SMap.get, h]
  | cons e m ih =>
    obtain ⟨k, x⟩ := e
    simp only [SMap.wf, Bool.and_eq_true, decide_eq_true_eq] at hm
    have hd : a ≤ k → v = d → SMap.get d m a = d := fun hk _ => SMap.get_of_above hm.1.2 hk
    unfold SMap.put
    by_cases h1 : a < k
    · by_cases h2 : v = d
      · simp [h1, h2, SMap.get, Nat.ne_of_lt h1, hd (Nat.le_of_lt h1) h2]
      · simp [h1, h2, SMap.get]
    · by_cases h3 : a = k
      · by_cases h2 : v = d
        · simp [h3, h2]; exact h3 ▸ hd (Nat.le_of_eq h3) h2
        · simp [h3, h2, SMap.get]
      · simp [h1, h3, SMap.get, ih hm.2]

/-- Every other key reads as before. -/
theorem SMap.get_put_ne (d : α) (m : SMap α) {a b : Nat} (v : α) (hm : SMap.wf d m = true) (h : b ≠ a) :
    SMap.get d (SMap.put d m a v) b = SMap.get d m b := by
  induction m with
  | nil => by_cases h2 : v = d <;> simp [SMap.put, SMap.get, h, h2]
  | cons e m ih =>
    obtain ⟨k, x⟩ := e
    simp only [SMap.wf, Bool.and_eq_true, decide_eq_true_eq] at hm
    unfold SMap.put
    by_cases h1 : a < k
    · by_cases h2 : v = d <;> simp [h1, h2, SMap.get, h]
    · by_cases h3 : a = k
      · subst h3
        by_cases h2 : v = d <;> simp [h2, SMap.get, h]
      · by_cases h4 : b = k <;> simp [h1, h3, SMap.get, h4, ih hm.2]

theorem SMap.above_put {d : α} {m : SMap α} {a b : Nat} {v : α} (hm : SMap.above b m = true) (h : b < a) : SMap.above b (SMap.put d m a v) = true := by
  induction m with
  | nil => by_cases h2 : v = d <;> simp [SMap.put, SMap.above, h2, h]
  | cons e m ih =>
    obtain ⟨k, x⟩ := e
    simp only [SMap.above, List.all_cons, Bool.and_eq_true, decide_eq_true_eq] at hm ih
    unfold SMap.put
    by_cases h1 : a < k
    · by_cases h2 : v = d <;> simp [h1, h2, SMap.above, hm, h] <;> simpa using hm.2
    · by_cases h3 : a = k
      · by_cases h2 : v = d <;> simp [h3, h2, SMap.above] <;> first | simpa using hm.2 | exact ⟨h3 ▸ h, by simpa using hm.2⟩
      · simp [h1, h3, SMap.above, hm.1] ; simpa [SMap.above] using ih hm.2

/-- A put keeps the canonical form. -/
theorem SMap.wf_put (d : α) (m : SMap α) (a : Nat) (v : α) (hm : SMap.wf d m = true) : SMap.wf d (SMap.put d m a v) = true := by
  induction m with
  | nil => by_cases h2 : v = d <;> simp [SMap.put, SMap.wf, SMap.above, h2]
  | cons e m ih =>
    obtain ⟨k, x⟩ := e
    have hm' := hm
    simp only [SMap.wf, Bool.and_eq_true, decide_eq_true_eq] at hm
    unfold SMap.put
    by_cases h1 : a < k
    · by_cases h2 : v = d
      · simpa [h1, h2] using hm'
      · have h5 : SMap.above a m = true := SMap.above_mono (Nat.le_of_lt h1) hm.1.2
        simp only [h1, h2, if_true, if_false, SMap.wf, hm, Bool.and_eq_true, decide_eq_true_eq]
        exact ⟨⟨h2, by simp [SMap.above] at h5 ⊢; exact ⟨h1, h5⟩⟩, ⟨hm.1.1, by simp⟩, trivial⟩
    · by_cases h3 : a = k
      · by_cases h2 : v = d
        · simpa [h1, h3, h2] using hm.2
        · subst h3; simp [h2, SMap.wf, hm]
      · simp [h1, h3, SMap.wf, hm.1.1, ih hm.2, SMap.above_put hm.1.2 (show k < a by omega)]

theorem SMap.wf_filter (d : α) (m : SMap α) (f : Nat × α → Bool) (hm : SMap.wf d m = true) : SMap.wf d (m.filter f) = true := by
  induction m with
  | nil => rfl
  | cons e m ih =>
    obtain ⟨k, x⟩ := e
    simp only [SMap.wf, Bool.and_eq_true, decide_eq_true_eq] at hm
    have h : SMap.above k (m.filter f) = true := by
      simp only [SMap.above, List.all_eq_true, decide_eq_true_eq] at *
      exact fun e he => hm.1.2 e (List.mem_filter.mp he).1
    by_cases hf : f (k, x) <;> simp [List.filter, hf, SMap.wf, hm.1.1, h, ih hm.2]

/-- A clear keeps the canonical form. -/
theorem SMap.wf_clear (d : α) (m : SMap α) (lo hi : Nat) (hm : SMap.wf d m = true) : SMap.wf d (SMap.clear m lo hi) = true :=
  SMap.wf_filter d m _ hm

/-- A byte written reads back. -/
@[simp] theorem Mem.read_write_same (m : Mem) (a : Nat) (v : Byte) (hm : Memory.wf m = true) : Mem.read (Mem.write m a v) a = v :=
  SMap.get_put_same 0 m a v hm

/-- Every other byte reads as before. -/
theorem Mem.read_write_ne (m : Mem) {a b : Nat} (v : Byte) (hm : Memory.wf m = true) (h : b ≠ a) :
    Mem.read (Mem.write m a v) b = Mem.read m b := SMap.get_put_ne 0 m v hm h

theorem Mem.wf_write (m : Mem) (a : Nat) (v : Byte) (hm : Memory.wf m = true) : Memory.wf (Mem.write m a v) = true :=
  SMap.wf_put 0 m a v hm

/-- Writing a run of bytes keeps the canonical form. -/
theorem Mem.wf_writeN (m : Mem) (a : Nat) (bs : List Byte) (hm : Memory.wf m = true) : Memory.wf (Mem.writeN m a bs) = true := by
  induction bs generalizing m a with
  | nil => exact hm
  | cons b bs ih => exact ih _ _ (Mem.wf_write m a b hm)

theorem Mem.wf_writeEn (m : Mem) (a : Nat) (bs : List (Byte × Bool)) (hm : Memory.wf m = true) : Memory.wf (Mem.writeEn m a bs) = true := by
  induction bs generalizing m a with
  | nil => exact hm
  | cons b bs ih =>
    obtain ⟨v, e⟩ := b
    cases e
    · exact ih _ _ hm
    · exact ih _ _ (Mem.wf_write m a v hm)

/-- A byte outside a written run reads as before. -/
theorem Mem.read_writeN_out (m : Mem) (a : Nat) (bs : List Byte) (hm : Memory.wf m = true) (b : Nat) (h : b < a ∨ a + bs.length ≤ b) :
    Mem.read (Mem.writeN m a bs) b = Mem.read m b := by
  induction bs generalizing m a with
  | nil => rfl
  | cons v bs ih =>
    simp only [List.length_cons] at h
    rw [Mem.writeN, ih _ _ (Mem.wf_write m a v hm) (by omega), Mem.read_write_ne m v hm (by omega)]

/-- A written run reads back. -/
theorem Mem.readN_writeN (m : Mem) (a : Nat) (bs : List Byte) (hm : Memory.wf m = true) : Mem.readN (Mem.writeN m a bs) a bs.length = bs := by
  induction bs generalizing m a with
  | nil => rfl
  | cons v bs ih =>
    rw [List.length_cons, Mem.readN, Mem.writeN, ih _ _ (Mem.wf_write m a v hm),
      Mem.read_writeN_out _ _ _ (Mem.wf_write m a v hm) a (by omega), Mem.read_write_same m a v hm]

end Sys2Proof.Machine
end

