-- ==== Sys2Proof/Laws/Commands.lean ====
section
/-! SUPPORT. What the end of a command does (R68 to R72), said once: `finishCommand` answers the command and changes nothing else. -/
namespace Sys2Proof.Machine

/-- Setting the interrupt registers touches them and the queued interrupt messages only (R82, R112). -/
theorem setIrq_frame (st en : BitVec 15) (s : State) :
    setIrq st en s = { s with
      sys := { s.sys with irqStatus := st, irqEnHost := en }, host := { s.host with held := (setIrq st en s).host.held } } := by
  unfold setIrq
  dsimp only
  split <;> rfl

/-- Raising bits sets them, notes them as set in this CTRL clock, and touches the queued interrupt messages besides (R12, R82). -/
theorem raiseIrq_frame (b : BitVec 15) (s : State) :
    raiseIrq b s = { s with
      sys := { s.sys with irqStatus := s.sys.irqStatus ||| b, irqFresh := (ctrlClock s, freshIrq s ||| b) }
      host := { s.host with held := (raiseIrq b s).host.held } } := by
  rw [raiseIrq]; exact setIrq_frame _ _ _

@[simp] theorem raiseIrq_status (b : BitVec 15) (s : State) : (raiseIrq b s).sys.irqStatus = s.sys.irqStatus ||| b := by
  rw [raiseIrq_frame]

@[simp] theorem raiseIrq_mbx (b : BitVec 15) (s : State) : (raiseIrq b s).mbx = s.mbx := by rw [raiseIrq_frame]
@[simp] theorem raiseIrq_evr (b : BitVec 15) (s : State) : (raiseIrq b s).evr = s.evr := by rw [raiseIrq_frame]

/-- The end of a command answers it, and does nothing else. -/
theorem finishCommand_answered (c : Command) (r : Reply) (u : State) (hw : Memory.wf u.mbx.area = true) :
    Answered c r u (finishCommand c r u) := by
  have hb : (u.mbx.order.filter (· ≠ c.mb)) = u.mbx.order.filter (· ≠ c.mb) := rfl
  constructor
  · cases h : c.noIrq <;> simp [finishCommand, markDone, putResponse, h]
  · cases h : c.noIrq <;> simp [finishCommand, markDone, putResponse, h]
  · cases h : c.noIrq <;> simp [finishCommand, markDone, putResponse, h]
  · cases h : c.noIrq <;> simp [finishCommand, markDone, putResponse, h]
  · cases h : c.noIrq <;> simp [finishCommand, markDone, putResponse, h, Mem.readN_writeN _ _ _ hw]
  · intro a ha
    cases h : c.noIrq <;> simp [finishCommand, markDone, putResponse, h, Mem.read_writeN_out _ _ _ hw a ha]
  · intro n hn
    have h2 : c.mb.val ≠ n.val := fun e => hn (Fin.ext e.symm)
    cases h : c.noIrq <;> simp [finishCommand, markDone, putResponse, h, Vector.getElem_set_ne, h2]
  · cases h : c.noIrq <;> simp [finishCommand, markDone, putResponse, h]
  · cases h : c.noIrq <;> simp [finishCommand, markDone, putResponse, h, doneBit]
  · cases h : c.noIrq
    · simp only [finishCommand, markDone, putResponse, h, Bool.false_eq_true, if_false]
      rw [raiseIrq_frame]
    · simp only [finishCommand, markDone, putResponse, h, if_true]

/-- The row of the command that is executing runs on it. -/
theorem withStuck_current {op : Nat} {c : Command} {s : State} (h1 : s.mbx.current = some c) (h2 : c.opcode = op) (run : State → State) :
    withStuck op run s = run s := by
  simp [withStuck, h1, h2]

/-- A command that the mode does not accept is answered the status that turns it away, and has no effect (R41, R507, R509). -/
theorem runCommand_turnedAway {op : Nat} {c : Command} {s : State} {st : Status} (h : InExec s op c) (ht : turnedAway op s = some st)
    (f : List Byte → State → Reply × State) : Answered c { status := st } s (runCommand op f s) := by
  obtain ⟨h1, h2, h3⟩ := h
  simp only [runCommand, withStuck_current h1 h2, runNow, h1, h2, ht, if_true]
  exact finishCommand_answered _ _ _ h3

/-- A command row: what its function answers is answered, and what it makes of the state stands. -/
theorem runCommand_answered {op : Nat} {c : Command} {s : State} (h : Doing s op c) (f : List Byte → State → Reply × State)
    (hw : (f c.payload s).2.mbx.area = s.mbx.area) : Answered c (f c.payload s).1 (f c.payload s).2 (runCommand op f s) := by
  obtain ⟨⟨h1, h2, h3⟩, h4⟩ := h
  simp only [runCommand, withStuck_current h1 h2, runNow, h1, h2, h4, if_true]
  exact finishCommand_answered _ _ _ (hw ▸ h3)

/-- A command row whose function, met by its payload, answers r and leaves u, which has the areas of s. -/
theorem answers_of_run {i : Instr} {s u : State} {c : Command} {r : Reply} {op : Nat} {f : List Byte → State → Reply × State} (hd : Doing s op c)
    (he : exec i s = .next (runCommand op f s)) (hf : f c.payload s = (r, u)) (ha : u.mbx.area = s.mbx.area) : Answers i s c r u := by
  have h := runCommand_answered hd f (by rw [hf]; exact ha)
  rw [hf] at h
  exact ⟨_, he, h⟩

/-- A command row whose function, met by its payload, answers r and leaves a state with property P and the areas of s. -/
theorem does_of_run {i : Instr} {s : State} {c : Command} {r : Reply} {P : State → Prop} {op : Nat} {f : List Byte → State → Reply × State}
    (hd : Doing s op c) (he : exec i s = .next (runCommand op f s)) (hf : (f c.payload s).1 = r)
    (ha : (f c.payload s).2.mbx.area = s.mbx.area) (hp : P (f c.payload s).2) : Does i s c r P := by
  have h := runCommand_answered hd f ha
  rw [hf] at h
  exact ⟨_, _, he, h, hp⟩

end Sys2Proof.Machine
end

