-- ==== Sys2Proof/Laws/Events.lean ====
section
/-! SUPPORT. Raising an event, said once: it touches the event ring, the interrupt status and the queued interrupt messages, and nothing else (R78,
R80, R82, R530). -/
namespace Sys2Proof.Machine

/-- Nothing is an event. -/
theorem eventsOnly_refl (s : State) : EventsOnly s s := rfl

/-- The event ring is what events may touch. -/
theorem eventsOnly_evr (x) (s : State) : EventsOnly s { s with evr := x } := rfl

/-- Events upon events are events only. -/
theorem eventsOnly_trans {a b c : State} (h : EventsOnly a b) (h2 : EventsOnly b c) : EventsOnly a c := by
  unfold EventsOnly at *; rw [h2]; rw [h]

/-- Raising an interrupt bit touches what events may touch (R82). -/
theorem eventsOnly_raiseIrq (x) (s : State) : EventsOnly s (raiseIrq x s) := by
  unfold EventsOnly; rw [raiseIrq_frame]

/-- Events only in either branch. -/
theorem eventsOnly_ite {p : Prop} [Decidable p] {u a b : State} (h1 : EventsOnly u a) (h2 : EventsOnly u b) : EventsOnly u (if p then a else b) := by split <;> assumption

/-- Writing an event (R78, R80). -/
theorem eventsOnly_writeEvent (e : Event) (s : State) : EventsOnly s (writeEvent e s) := by
  unfold writeEvent; dsimp only
  split
  · exact eventsOnly_trans (eventsOnly_evr _ _) (eventsOnly_raiseIrq _ _)
  · exact rfl

/-- Dropping an event (R78). -/
theorem eventsOnly_dropEvent (e : Event) (s : State) : EventsOnly s (dropEvent e s) := by
  unfold dropEvent; exact eventsOnly_trans (eventsOnly_evr _ _) (eventsOnly_raiseIrq _ _)

/-- Holding an event (R530). -/
theorem eventsOnly_holdEvent (e : Event) (s : State) : EventsOnly s (holdEvent e s) := by
  unfold holdEvent; dsimp only; (repeat' split) <;> first | exact rfl | exact eventsOnly_dropEvent _ _ | exact eventsOnly_trans (eventsOnly_evr _ _) (eventsOnly_dropEvent _ _) | exact eventsOnly_trans (eventsOnly_evr _ _) (eventsOnly_raiseIrq _ _)

/-- Writing held events (R530). -/
theorem eventsOnly_writeHeld (es : List Event) (s : State) : EventsOnly s (writeHeld es s) := by
  induction es generalizing s with
  | nil => exact rfl
  | cons e es ih => unfold writeHeld; (repeat' split) <;> first | exact rfl | exact eventsOnly_trans (eventsOnly_writeEvent _ _) (ih _) | exact eventsOnly_trans (eventsOnly_trans (eventsOnly_evr _ _) (eventsOnly_writeEvent _ _)) (ih _)

/-- Writing `ev.ring_overflow` (R530). -/
theorem eventsOnly_writeOverflow (s : State) : EventsOnly s (writeOverflow s) := by
  unfold writeOverflow; dsimp only; apply eventsOnly_ite
  · exact eventsOnly_trans (eventsOnly_writeEvent _ s) (eventsOnly_evr _ _)
  · exact rfl

/-- Ending an episode (R530). -/
theorem eventsOnly_endEpisode (s : State) : EventsOnly s (endEpisode s) := by
  unfold endEpisode; split <;> exact rfl

/-- Writing out an episode (R530). -/
theorem eventsOnly_writeOut (s : State) : EventsOnly s (writeOut s) := by
  unfold writeOut; dsimp only; split
  · split
    · exact eventsOnly_trans (eventsOnly_writeOverflow s) (eventsOnly_trans (eventsOnly_writeHeld _ _) (eventsOnly_endEpisode _))
    · exact eventsOnly_writeOverflow s
  · exact rfl

/-- Raising an event of a given time. -/
theorem eventsOnly_emitAt (e : Event) (s : State) : EventsOnly s (emitAt e s) := by
  unfold emitAt; split
  · dsimp only; repeat' split
    · exact eventsOnly_trans (eventsOnly_writeOut s) (eventsOnly_holdEvent _ _)
    · exact eventsOnly_trans (eventsOnly_writeOut s) (eventsOnly_writeEvent _ _)
    · exact eventsOnly_trans (eventsOnly_writeOut s) (eventsOnly_holdEvent _ _)
    · exact eventsOnly_trans (eventsOnly_writeOut s) (eventsOnly_dropEvent _ _)
  · exact eventsOnly_holdEvent _ _
  · exact rfl

/-- Raising an event (R528). -/
theorem eventsOnly_emit (e : Event) (s : State) : EventsOnly s (emit e s) := eventsOnly_emitAt _ s

/-- Raising a rate-limited event (R531). -/
theorem eventsOnly_emitLimited (n : Nat) (e : Event) (s : State) : EventsOnly s (emitLimited n e s) := by
  unfold emitLimited; dsimp only; split
  · exact eventsOnly_trans (eventsOnly_evr _ _) (eventsOnly_emit _ _)
  · split
    · exact eventsOnly_evr _ _
    · split
      · exact eventsOnly_trans (eventsOnly_evr _ _) (eventsOnly_emit _ _)
      · exact eventsOnly_trans (eventsOnly_evr _ _) (eventsOnly_emitAt _ _)

/-- Marking a counter group as changed (R533). -/
theorem eventsOnly_touchGroup (n : Nat) (s : State) : EventsOnly s (touchGroup n s) := by
  unfold touchGroup; split
  · exact eventsOnly_refl _
  · exact eventsOnly_evr _ _

/-- The equation that EventsOnly stands for. -/
theorem eventsOnly_eq {u t : State} (h : EventsOnly u t) :
    t = { u with evr := t.evr, sys := { u.sys with irqStatus := t.sys.irqStatus, irqFresh := t.sys.irqFresh }, host := { u.host with held := t.host.held } } := h

/-! ## What stands where only events were raised -/

theorem eventsOnly_keeps_mbx {u t : State} (h : EventsOnly u t) : t.mbx = u.mbx := by rw [eventsOnly_eq h]
theorem eventsOnly_keeps_win {u t : State} (h : EventsOnly u t) : t.win = u.win := by rw [eventsOnly_eq h]
theorem eventsOnly_keeps_faults {u t : State} (h : EventsOnly u t) : t.faults = u.faults := by rw [eventsOnly_eq h]
theorem eventsOnly_keeps_twinLink {u t : State} (h : EventsOnly u t) : t.twinLink = u.twinLink := by rw [eventsOnly_eq h]
theorem eventsOnly_keeps_cfg {u t : State} (h : EventsOnly u t) : t.cfg = u.cfg := by rw [eventsOnly_eq h]
theorem eventsOnly_keeps_codec {u t : State} (h : EventsOnly u t) : t.codec = u.codec := by rw [eventsOnly_eq h]
theorem eventsOnly_keeps_swath {u t : State} (h : EventsOnly u t) : t.swath = u.swath := by rw [eventsOnly_eq h]
theorem eventsOnly_keeps_wave {u t : State} (h : EventsOnly u t) : t.wave = u.wave := by rw [eventsOnly_eq h]
theorem eventsOnly_keeps_heads {u t : State} (h : EventsOnly u t) : t.heads = u.heads := by rw [eventsOnly_eq h]
theorem eventsOnly_keeps_bar {u t : State} (h : EventsOnly u t) : t.bar = u.bar := by rw [eventsOnly_eq h]
theorem eventsOnly_keeps_fbk {u t : State} (h : EventsOnly u t) : t.fbk = u.fbk := by rw [eventsOnly_eq h]
theorem eventsOnly_keeps_fbo {u t : State} (h : EventsOnly u t) : t.fbo = u.fbo := by rw [eventsOnly_eq h]
theorem eventsOnly_keeps_job {u t : State} (h : EventsOnly u t) : t.job = u.job := by rw [eventsOnly_eq h]
theorem eventsOnly_keeps_pace {u t : State} (h : EventsOnly u t) : t.pace = u.pace := by rw [eventsOnly_eq h]
theorem eventsOnly_keeps_parked {u t : State} (h : EventsOnly u t) : t.parked = u.parked := by rw [eventsOnly_eq h]
theorem eventsOnly_keeps_audit {u t : State} (h : EventsOnly u t) : t.audit = u.audit := by rw [eventsOnly_eq h]
theorem eventsOnly_keeps_axes {u t : State} (h : EventsOnly u t) : t.axes = u.axes := by rw [eventsOnly_eq h]
theorem eventsOnly_keeps_drive {u t : State} (h : EventsOnly u t) : t.drive = u.drive := by rw [eventsOnly_eq h]
theorem eventsOnly_keeps_mem {u t : State} (h : EventsOnly u t) : t.mem = u.mem := by rw [eventsOnly_eq h]
theorem eventsOnly_keeps_twin {u t : State} (h : EventsOnly u t) : t.twin = u.twin := by rw [eventsOnly_eq h]
theorem eventsOnly_keeps_time {u t : State} (h : EventsOnly u t) : t.time = u.time := by rw [eventsOnly_eq h]
theorem eventsOnly_keeps_eth {u t : State} (h : EventsOnly u t) : t.eth = u.eth := by rw [eventsOnly_eq h]
theorem eventsOnly_keeps_life {u t : State} (h : EventsOnly u t) : t.life = u.life := by rw [eventsOnly_eq h]
theorem eventsOnly_keeps_fawn {u t : State} (h : EventsOnly u t) : t.fawn = u.fawn := by rw [eventsOnly_eq h]
theorem eventsOnly_keeps_clock {u t : State} (h : EventsOnly u t) : t.clock = u.clock := by rw [eventsOnly_eq h]
theorem eventsOnly_keeps_free {u t : State} (h : EventsOnly u t) : t.free = u.free := by rw [eventsOnly_eq h]
theorem eventsOnly_keeps_sent {u t : State} (h : EventsOnly u t) : t.sent = u.sent := by rw [eventsOnly_eq h]
theorem eventsOnly_keeps_pending {u t : State} (h : EventsOnly u t) : t.pending = u.pending := by rw [eventsOnly_eq h]
theorem eventsOnly_keeps_sys {u t : State} (h : EventsOnly u t) : t.sys = { u.sys with irqStatus := t.sys.irqStatus, irqFresh := t.sys.irqFresh } := by rw [eventsOnly_eq h]
theorem eventsOnly_keeps_host {u t : State} (h : EventsOnly u t) : t.host = { u.host with held := t.host.held } := by rw [eventsOnly_eq h]

/-! ### emit -/

@[simp] theorem emit_mbx (e : Event) (s : State) : (emit e s).mbx = s.mbx := eventsOnly_keeps_mbx (eventsOnly_emit e s)
@[simp] theorem emit_win (e : Event) (s : State) : (emit e s).win = s.win := eventsOnly_keeps_win (eventsOnly_emit e s)
@[simp] theorem emit_faults (e : Event) (s : State) : (emit e s).faults = s.faults := eventsOnly_keeps_faults (eventsOnly_emit e s)
@[simp] theorem emit_twinLink (e : Event) (s : State) : (emit e s).twinLink = s.twinLink := eventsOnly_keeps_twinLink (eventsOnly_emit e s)
@[simp] theorem emit_cfg (e : Event) (s : State) : (emit e s).cfg = s.cfg := eventsOnly_keeps_cfg (eventsOnly_emit e s)
@[simp] theorem emit_codec (e : Event) (s : State) : (emit e s).codec = s.codec := eventsOnly_keeps_codec (eventsOnly_emit e s)
@[simp] theorem emit_swath (e : Event) (s : State) : (emit e s).swath = s.swath := eventsOnly_keeps_swath (eventsOnly_emit e s)
@[simp] theorem emit_wave (e : Event) (s : State) : (emit e s).wave = s.wave := eventsOnly_keeps_wave (eventsOnly_emit e s)
@[simp] theorem emit_heads (e : Event) (s : State) : (emit e s).heads = s.heads := eventsOnly_keeps_heads (eventsOnly_emit e s)
@[simp] theorem emit_bar (e : Event) (s : State) : (emit e s).bar = s.bar := eventsOnly_keeps_bar (eventsOnly_emit e s)
@[simp] theorem emit_fbk (e : Event) (s : State) : (emit e s).fbk = s.fbk := eventsOnly_keeps_fbk (eventsOnly_emit e s)
@[simp] theorem emit_fbo (e : Event) (s : State) : (emit e s).fbo = s.fbo := eventsOnly_keeps_fbo (eventsOnly_emit e s)
@[simp] theorem emit_job (e : Event) (s : State) : (emit e s).job = s.job := eventsOnly_keeps_job (eventsOnly_emit e s)
@[simp] theorem emit_pace (e : Event) (s : State) : (emit e s).pace = s.pace := eventsOnly_keeps_pace (eventsOnly_emit e s)
@[simp] theorem emit_parked (e : Event) (s : State) : (emit e s).parked = s.parked := eventsOnly_keeps_parked (eventsOnly_emit e s)
@[simp] theorem emit_audit (e : Event) (s : State) : (emit e s).audit = s.audit := eventsOnly_keeps_audit (eventsOnly_emit e s)
@[simp] theorem emit_axes (e : Event) (s : State) : (emit e s).axes = s.axes := eventsOnly_keeps_axes (eventsOnly_emit e s)
@[simp] theorem emit_drive (e : Event) (s : State) : (emit e s).drive = s.drive := eventsOnly_keeps_drive (eventsOnly_emit e s)
@[simp] theorem emit_mem (e : Event) (s : State) : (emit e s).mem = s.mem := eventsOnly_keeps_mem (eventsOnly_emit e s)
@[simp] theorem emit_twin (e : Event) (s : State) : (emit e s).twin = s.twin := eventsOnly_keeps_twin (eventsOnly_emit e s)
@[simp] theorem emit_time (e : Event) (s : State) : (emit e s).time = s.time := eventsOnly_keeps_time (eventsOnly_emit e s)
@[simp] theorem emit_eth (e : Event) (s : State) : (emit e s).eth = s.eth := eventsOnly_keeps_eth (eventsOnly_emit e s)
@[simp] theorem emit_life (e : Event) (s : State) : (emit e s).life = s.life := eventsOnly_keeps_life (eventsOnly_emit e s)
@[simp] theorem emit_fawn (e : Event) (s : State) : (emit e s).fawn = s.fawn := eventsOnly_keeps_fawn (eventsOnly_emit e s)
@[simp] theorem emit_clock (e : Event) (s : State) : (emit e s).clock = s.clock := eventsOnly_keeps_clock (eventsOnly_emit e s)
@[simp] theorem emit_free (e : Event) (s : State) : (emit e s).free = s.free := eventsOnly_keeps_free (eventsOnly_emit e s)
@[simp] theorem emit_sent (e : Event) (s : State) : (emit e s).sent = s.sent := eventsOnly_keeps_sent (eventsOnly_emit e s)
@[simp] theorem emit_pending (e : Event) (s : State) : (emit e s).pending = s.pending := eventsOnly_keeps_pending (eventsOnly_emit e s)
@[simp] theorem emit_sys_mode (e : Event) (s : State) : (emit e s).sys.mode = s.sys.mode := by rw [eventsOnly_keeps_sys (eventsOnly_emit e s)]
@[simp] theorem emit_sys_phase (e : Event) (s : State) : (emit e s).sys.phase = s.sys.phase := by rw [eventsOnly_keeps_sys (eventsOnly_emit e s)]
@[simp] theorem emit_sys_legacy (e : Event) (s : State) : (emit e s).sys.legacy = s.sys.legacy := by rw [eventsOnly_keeps_sys (eventsOnly_emit e s)]
@[simp] theorem emit_sys_profile (e : Event) (s : State) : (emit e s).sys.profile = s.sys.profile := by rw [eventsOnly_keeps_sys (eventsOnly_emit e s)]
@[simp] theorem emit_sys_transition (e : Event) (s : State) : (emit e s).sys.transition = s.sys.transition := by rw [eventsOnly_keeps_sys (eventsOnly_emit e s)]
@[simp] theorem emit_sys_tj (e : Event) (s : State) : (emit e s).sys.tj = s.sys.tj := by rw [eventsOnly_keeps_sys (eventsOnly_emit e s)]
@[simp] theorem emit_sys_pwrFailN (e : Event) (s : State) : (emit e s).sys.pwrFailN = s.sys.pwrFailN := by rw [eventsOnly_keeps_sys (eventsOnly_emit e s)]
@[simp] theorem emit_sys_secVer (e : Event) (s : State) : (emit e s).sys.secVer = s.sys.secVer := by rw [eventsOnly_keeps_sys (eventsOnly_emit e s)]
@[simp] theorem emit_sys_resetPending (e : Event) (s : State) : (emit e s).sys.resetPending = s.sys.resetPending := by rw [eventsOnly_keeps_sys (eventsOnly_emit e s)]

/-! ### emitLimited -/

@[simp] theorem emitLimited_mbx (n : Nat) (e : Event) (s : State) : (emitLimited n e s).mbx = s.mbx := eventsOnly_keeps_mbx (eventsOnly_emitLimited n e s)
@[simp] theorem emitLimited_win (n : Nat) (e : Event) (s : State) : (emitLimited n e s).win = s.win := eventsOnly_keeps_win (eventsOnly_emitLimited n e s)
@[simp] theorem emitLimited_faults (n : Nat) (e : Event) (s : State) : (emitLimited n e s).faults = s.faults := eventsOnly_keeps_faults (eventsOnly_emitLimited n e s)
@[simp] theorem emitLimited_twinLink (n : Nat) (e : Event) (s : State) : (emitLimited n e s).twinLink = s.twinLink := eventsOnly_keeps_twinLink (eventsOnly_emitLimited n e s)
@[simp] theorem emitLimited_cfg (n : Nat) (e : Event) (s : State) : (emitLimited n e s).cfg = s.cfg := eventsOnly_keeps_cfg (eventsOnly_emitLimited n e s)
@[simp] theorem emitLimited_codec (n : Nat) (e : Event) (s : State) : (emitLimited n e s).codec = s.codec := eventsOnly_keeps_codec (eventsOnly_emitLimited n e s)
@[simp] theorem emitLimited_swath (n : Nat) (e : Event) (s : State) : (emitLimited n e s).swath = s.swath := eventsOnly_keeps_swath (eventsOnly_emitLimited n e s)
@[simp] theorem emitLimited_wave (n : Nat) (e : Event) (s : State) : (emitLimited n e s).wave = s.wave := eventsOnly_keeps_wave (eventsOnly_emitLimited n e s)
@[simp] theorem emitLimited_heads (n : Nat) (e : Event) (s : State) : (emitLimited n e s).heads = s.heads := eventsOnly_keeps_heads (eventsOnly_emitLimited n e s)
@[simp] theorem emitLimited_bar (n : Nat) (e : Event) (s : State) : (emitLimited n e s).bar = s.bar := eventsOnly_keeps_bar (eventsOnly_emitLimited n e s)
@[simp] theorem emitLimited_fbk (n : Nat) (e : Event) (s : State) : (emitLimited n e s).fbk = s.fbk := eventsOnly_keeps_fbk (eventsOnly_emitLimited n e s)
@[simp] theorem emitLimited_fbo (n : Nat) (e : Event) (s : State) : (emitLimited n e s).fbo = s.fbo := eventsOnly_keeps_fbo (eventsOnly_emitLimited n e s)
@[simp] theorem emitLimited_job (n : Nat) (e : Event) (s : State) : (emitLimited n e s).job = s.job := eventsOnly_keeps_job (eventsOnly_emitLimited n e s)
@[simp] theorem emitLimited_pace (n : Nat) (e : Event) (s : State) : (emitLimited n e s).pace = s.pace := eventsOnly_keeps_pace (eventsOnly_emitLimited n e s)
@[simp] theorem emitLimited_parked (n : Nat) (e : Event) (s : State) : (emitLimited n e s).parked = s.parked := eventsOnly_keeps_parked (eventsOnly_emitLimited n e s)
@[simp] theorem emitLimited_audit (n : Nat) (e : Event) (s : State) : (emitLimited n e s).audit = s.audit := eventsOnly_keeps_audit (eventsOnly_emitLimited n e s)
@[simp] theorem emitLimited_axes (n : Nat) (e : Event) (s : State) : (emitLimited n e s).axes = s.axes := eventsOnly_keeps_axes (eventsOnly_emitLimited n e s)
@[simp] theorem emitLimited_drive (n : Nat) (e : Event) (s : State) : (emitLimited n e s).drive = s.drive := eventsOnly_keeps_drive (eventsOnly_emitLimited n e s)
@[simp] theorem emitLimited_mem (n : Nat) (e : Event) (s : State) : (emitLimited n e s).mem = s.mem := eventsOnly_keeps_mem (eventsOnly_emitLimited n e s)
@[simp] theorem emitLimited_twin (n : Nat) (e : Event) (s : State) : (emitLimited n e s).twin = s.twin := eventsOnly_keeps_twin (eventsOnly_emitLimited n e s)
@[simp] theorem emitLimited_time (n : Nat) (e : Event) (s : State) : (emitLimited n e s).time = s.time := eventsOnly_keeps_time (eventsOnly_emitLimited n e s)
@[simp] theorem emitLimited_eth (n : Nat) (e : Event) (s : State) : (emitLimited n e s).eth = s.eth := eventsOnly_keeps_eth (eventsOnly_emitLimited n e s)
@[simp] theorem emitLimited_life (n : Nat) (e : Event) (s : State) : (emitLimited n e s).life = s.life := eventsOnly_keeps_life (eventsOnly_emitLimited n e s)
@[simp] theorem emitLimited_fawn (n : Nat) (e : Event) (s : State) : (emitLimited n e s).fawn = s.fawn := eventsOnly_keeps_fawn (eventsOnly_emitLimited n e s)
@[simp] theorem emitLimited_clock (n : Nat) (e : Event) (s : State) : (emitLimited n e s).clock = s.clock := eventsOnly_keeps_clock (eventsOnly_emitLimited n e s)
@[simp] theorem emitLimited_free (n : Nat) (e : Event) (s : State) : (emitLimited n e s).free = s.free := eventsOnly_keeps_free (eventsOnly_emitLimited n e s)
@[simp] theorem emitLimited_sent (n : Nat) (e : Event) (s : State) : (emitLimited n e s).sent = s.sent := eventsOnly_keeps_sent (eventsOnly_emitLimited n e s)
@[simp] theorem emitLimited_pending (n : Nat) (e : Event) (s : State) : (emitLimited n e s).pending = s.pending := eventsOnly_keeps_pending (eventsOnly_emitLimited n e s)
@[simp] theorem emitLimited_sys_mode (n : Nat) (e : Event) (s : State) : (emitLimited n e s).sys.mode = s.sys.mode := by rw [eventsOnly_keeps_sys (eventsOnly_emitLimited n e s)]
@[simp] theorem emitLimited_sys_phase (n : Nat) (e : Event) (s : State) : (emitLimited n e s).sys.phase = s.sys.phase := by rw [eventsOnly_keeps_sys (eventsOnly_emitLimited n e s)]
@[simp] theorem emitLimited_sys_legacy (n : Nat) (e : Event) (s : State) : (emitLimited n e s).sys.legacy = s.sys.legacy := by rw [eventsOnly_keeps_sys (eventsOnly_emitLimited n e s)]
@[simp] theorem emitLimited_sys_profile (n : Nat) (e : Event) (s : State) : (emitLimited n e s).sys.profile = s.sys.profile := by rw [eventsOnly_keeps_sys (eventsOnly_emitLimited n e s)]
@[simp] theorem emitLimited_sys_transition (n : Nat) (e : Event) (s : State) : (emitLimited n e s).sys.transition = s.sys.transition := by rw [eventsOnly_keeps_sys (eventsOnly_emitLimited n e s)]
@[simp] theorem emitLimited_sys_tj (n : Nat) (e : Event) (s : State) : (emitLimited n e s).sys.tj = s.sys.tj := by rw [eventsOnly_keeps_sys (eventsOnly_emitLimited n e s)]
@[simp] theorem emitLimited_sys_pwrFailN (n : Nat) (e : Event) (s : State) : (emitLimited n e s).sys.pwrFailN = s.sys.pwrFailN := by rw [eventsOnly_keeps_sys (eventsOnly_emitLimited n e s)]
@[simp] theorem emitLimited_sys_secVer (n : Nat) (e : Event) (s : State) : (emitLimited n e s).sys.secVer = s.sys.secVer := by rw [eventsOnly_keeps_sys (eventsOnly_emitLimited n e s)]
@[simp] theorem emitLimited_sys_resetPending (n : Nat) (e : Event) (s : State) : (emitLimited n e s).sys.resetPending = s.sys.resetPending := by rw [eventsOnly_keeps_sys (eventsOnly_emitLimited n e s)]

/-! ### touchGroup -/

@[simp] theorem touchGroup_mbx (g : Nat) (s : State) : (touchGroup g s).mbx = s.mbx := eventsOnly_keeps_mbx (eventsOnly_touchGroup g s)
@[simp] theorem touchGroup_win (g : Nat) (s : State) : (touchGroup g s).win = s.win := eventsOnly_keeps_win (eventsOnly_touchGroup g s)
@[simp] theorem touchGroup_faults (g : Nat) (s : State) : (touchGroup g s).faults = s.faults := eventsOnly_keeps_faults (eventsOnly_touchGroup g s)
@[simp] theorem touchGroup_twinLink (g : Nat) (s : State) : (touchGroup g s).twinLink = s.twinLink := eventsOnly_keeps_twinLink (eventsOnly_touchGroup g s)
@[simp] theorem touchGroup_cfg (g : Nat) (s : State) : (touchGroup g s).cfg = s.cfg := eventsOnly_keeps_cfg (eventsOnly_touchGroup g s)
@[simp] theorem touchGroup_codec (g : Nat) (s : State) : (touchGroup g s).codec = s.codec := eventsOnly_keeps_codec (eventsOnly_touchGroup g s)
@[simp] theorem touchGroup_swath (g : Nat) (s : State) : (touchGroup g s).swath = s.swath := eventsOnly_keeps_swath (eventsOnly_touchGroup g s)
@[simp] theorem touchGroup_wave (g : Nat) (s : State) : (touchGroup g s).wave = s.wave := eventsOnly_keeps_wave (eventsOnly_touchGroup g s)
@[simp] theorem touchGroup_heads (g : Nat) (s : State) : (touchGroup g s).heads = s.heads := eventsOnly_keeps_heads (eventsOnly_touchGroup g s)
@[simp] theorem touchGroup_bar (g : Nat) (s : State) : (touchGroup g s).bar = s.bar := eventsOnly_keeps_bar (eventsOnly_touchGroup g s)
@[simp] theorem touchGroup_fbk (g : Nat) (s : State) : (touchGroup g s).fbk = s.fbk := eventsOnly_keeps_fbk (eventsOnly_touchGroup g s)
@[simp] theorem touchGroup_fbo (g : Nat) (s : State) : (touchGroup g s).fbo = s.fbo := eventsOnly_keeps_fbo (eventsOnly_touchGroup g s)
@[simp] theorem touchGroup_job (g : Nat) (s : State) : (touchGroup g s).job = s.job := eventsOnly_keeps_job (eventsOnly_touchGroup g s)
@[simp] theorem touchGroup_pace (g : Nat) (s : State) : (touchGroup g s).pace = s.pace := eventsOnly_keeps_pace (eventsOnly_touchGroup g s)
@[simp] theorem touchGroup_parked (g : Nat) (s : State) : (touchGroup g s).parked = s.parked := eventsOnly_keeps_parked (eventsOnly_touchGroup g s)
@[simp] theorem touchGroup_audit (g : Nat) (s : State) : (touchGroup g s).audit = s.audit := eventsOnly_keeps_audit (eventsOnly_touchGroup g s)
@[simp] theorem touchGroup_axes (g : Nat) (s : State) : (touchGroup g s).axes = s.axes := eventsOnly_keeps_axes (eventsOnly_touchGroup g s)
@[simp] theorem touchGroup_drive (g : Nat) (s : State) : (touchGroup g s).drive = s.drive := eventsOnly_keeps_drive (eventsOnly_touchGroup g s)
@[simp] theorem touchGroup_mem (g : Nat) (s : State) : (touchGroup g s).mem = s.mem := eventsOnly_keeps_mem (eventsOnly_touchGroup g s)
@[simp] theorem touchGroup_twin (g : Nat) (s : State) : (touchGroup g s).twin = s.twin := eventsOnly_keeps_twin (eventsOnly_touchGroup g s)
@[simp] theorem touchGroup_time (g : Nat) (s : State) : (touchGroup g s).time = s.time := eventsOnly_keeps_time (eventsOnly_touchGroup g s)
@[simp] theorem touchGroup_eth (g : Nat) (s : State) : (touchGroup g s).eth = s.eth := eventsOnly_keeps_eth (eventsOnly_touchGroup g s)
@[simp] theorem touchGroup_life (g : Nat) (s : State) : (touchGroup g s).life = s.life := eventsOnly_keeps_life (eventsOnly_touchGroup g s)
@[simp] theorem touchGroup_fawn (g : Nat) (s : State) : (touchGroup g s).fawn = s.fawn := eventsOnly_keeps_fawn (eventsOnly_touchGroup g s)
@[simp] theorem touchGroup_clock (g : Nat) (s : State) : (touchGroup g s).clock = s.clock := eventsOnly_keeps_clock (eventsOnly_touchGroup g s)
@[simp] theorem touchGroup_free (g : Nat) (s : State) : (touchGroup g s).free = s.free := eventsOnly_keeps_free (eventsOnly_touchGroup g s)
@[simp] theorem touchGroup_sent (g : Nat) (s : State) : (touchGroup g s).sent = s.sent := eventsOnly_keeps_sent (eventsOnly_touchGroup g s)
@[simp] theorem touchGroup_pending (g : Nat) (s : State) : (touchGroup g s).pending = s.pending := eventsOnly_keeps_pending (eventsOnly_touchGroup g s)
@[simp] theorem touchGroup_sys_mode (g : Nat) (s : State) : (touchGroup g s).sys.mode = s.sys.mode := by rw [eventsOnly_keeps_sys (eventsOnly_touchGroup g s)]
@[simp] theorem touchGroup_sys_phase (g : Nat) (s : State) : (touchGroup g s).sys.phase = s.sys.phase := by rw [eventsOnly_keeps_sys (eventsOnly_touchGroup g s)]
@[simp] theorem touchGroup_sys_legacy (g : Nat) (s : State) : (touchGroup g s).sys.legacy = s.sys.legacy := by rw [eventsOnly_keeps_sys (eventsOnly_touchGroup g s)]
@[simp] theorem touchGroup_sys_profile (g : Nat) (s : State) : (touchGroup g s).sys.profile = s.sys.profile := by rw [eventsOnly_keeps_sys (eventsOnly_touchGroup g s)]
@[simp] theorem touchGroup_sys_transition (g : Nat) (s : State) : (touchGroup g s).sys.transition = s.sys.transition := by rw [eventsOnly_keeps_sys (eventsOnly_touchGroup g s)]
@[simp] theorem touchGroup_sys_tj (g : Nat) (s : State) : (touchGroup g s).sys.tj = s.sys.tj := by rw [eventsOnly_keeps_sys (eventsOnly_touchGroup g s)]
@[simp] theorem touchGroup_sys_pwrFailN (g : Nat) (s : State) : (touchGroup g s).sys.pwrFailN = s.sys.pwrFailN := by rw [eventsOnly_keeps_sys (eventsOnly_touchGroup g s)]
@[simp] theorem touchGroup_sys_secVer (g : Nat) (s : State) : (touchGroup g s).sys.secVer = s.sys.secVer := by rw [eventsOnly_keeps_sys (eventsOnly_touchGroup g s)]
@[simp] theorem touchGroup_sys_resetPending (g : Nat) (s : State) : (touchGroup g s).sys.resetPending = s.sys.resetPending := by rw [eventsOnly_keeps_sys (eventsOnly_touchGroup g s)]

end Sys2Proof.Machine
end

