-- ==== Sys2Proof/Laws/State.lean ====
section
/-! SUPPORT. For every named change of State, what each field holds after it: true by unfolding, and tagged for simp, so that no later proof
unfolds a record update. -/
namespace Sys2Proof.Machine

/-! ### setPtp -/

@[simp] theorem setPtp_sys (f : Ptp → Ptp) (s : State) : (setPtp f s).sys = s.sys := rfl
@[simp] theorem setPtp_mbx (f : Ptp → Ptp) (s : State) : (setPtp f s).mbx = s.mbx := rfl
@[simp] theorem setPtp_evr (f : Ptp → Ptp) (s : State) : (setPtp f s).evr = s.evr := rfl
@[simp] theorem setPtp_win (f : Ptp → Ptp) (s : State) : (setPtp f s).win = s.win := rfl
@[simp] theorem setPtp_faults (f : Ptp → Ptp) (s : State) : (setPtp f s).faults = s.faults := rfl
@[simp] theorem setPtp_host (f : Ptp → Ptp) (s : State) : (setPtp f s).host = s.host := rfl
@[simp] theorem setPtp_twinLink (f : Ptp → Ptp) (s : State) : (setPtp f s).twinLink = s.twinLink := rfl
@[simp] theorem setPtp_cfg (f : Ptp → Ptp) (s : State) : (setPtp f s).cfg = s.cfg := rfl
@[simp] theorem setPtp_codec (f : Ptp → Ptp) (s : State) : (setPtp f s).codec = s.codec := rfl
@[simp] theorem setPtp_swath (f : Ptp → Ptp) (s : State) : (setPtp f s).swath = s.swath := rfl
@[simp] theorem setPtp_wave (f : Ptp → Ptp) (s : State) : (setPtp f s).wave = s.wave := rfl
@[simp] theorem setPtp_heads (f : Ptp → Ptp) (s : State) : (setPtp f s).heads = s.heads := rfl
@[simp] theorem setPtp_bar (f : Ptp → Ptp) (s : State) : (setPtp f s).bar = s.bar := rfl
@[simp] theorem setPtp_fbk (f : Ptp → Ptp) (s : State) : (setPtp f s).fbk = s.fbk := rfl
@[simp] theorem setPtp_fbo (f : Ptp → Ptp) (s : State) : (setPtp f s).fbo = s.fbo := rfl
@[simp] theorem setPtp_job (f : Ptp → Ptp) (s : State) : (setPtp f s).job = s.job := rfl
@[simp] theorem setPtp_pace (f : Ptp → Ptp) (s : State) : (setPtp f s).pace = s.pace := rfl
@[simp] theorem setPtp_parked (f : Ptp → Ptp) (s : State) : (setPtp f s).parked = s.parked := rfl
@[simp] theorem setPtp_audit (f : Ptp → Ptp) (s : State) : (setPtp f s).audit = s.audit := rfl
@[simp] theorem setPtp_axes (f : Ptp → Ptp) (s : State) : (setPtp f s).axes = s.axes := rfl
@[simp] theorem setPtp_drive (f : Ptp → Ptp) (s : State) : (setPtp f s).drive = s.drive := rfl
@[simp] theorem setPtp_mem (f : Ptp → Ptp) (s : State) : (setPtp f s).mem = s.mem := rfl
@[simp] theorem setPtp_twin (f : Ptp → Ptp) (s : State) : (setPtp f s).twin = s.twin := rfl
@[simp] theorem setPtp_time (f : Ptp → Ptp) (s : State) : (setPtp f s).time = { s.time with ptp := f s.time.ptp } := rfl
@[simp] theorem setPtp_eth (f : Ptp → Ptp) (s : State) : (setPtp f s).eth = s.eth := rfl
@[simp] theorem setPtp_life (f : Ptp → Ptp) (s : State) : (setPtp f s).life = s.life := rfl
@[simp] theorem setPtp_fawn (f : Ptp → Ptp) (s : State) : (setPtp f s).fawn = s.fawn := rfl
@[simp] theorem setPtp_clock (f : Ptp → Ptp) (s : State) : (setPtp f s).clock = s.clock := rfl
@[simp] theorem setPtp_free (f : Ptp → Ptp) (s : State) : (setPtp f s).free = s.free := rfl
@[simp] theorem setPtp_sent (f : Ptp → Ptp) (s : State) : (setPtp f s).sent = s.sent := rfl
@[simp] theorem setPtp_pending (f : Ptp → Ptp) (s : State) : (setPtp f s).pending = s.pending := rfl

/-! ### setSlot -/

@[simp] theorem setSlot_sys (i : Nat) (f : Slot → Slot) (s : State) : (setSlot i f s).sys = s.sys := rfl
@[simp] theorem setSlot_mbx (i : Nat) (f : Slot → Slot) (s : State) : (setSlot i f s).mbx = s.mbx := rfl
@[simp] theorem setSlot_evr (i : Nat) (f : Slot → Slot) (s : State) : (setSlot i f s).evr = s.evr := rfl
@[simp] theorem setSlot_win (i : Nat) (f : Slot → Slot) (s : State) : (setSlot i f s).win = s.win := rfl
@[simp] theorem setSlot_faults (i : Nat) (f : Slot → Slot) (s : State) : (setSlot i f s).faults = s.faults := rfl
@[simp] theorem setSlot_host (i : Nat) (f : Slot → Slot) (s : State) : (setSlot i f s).host = s.host := rfl
@[simp] theorem setSlot_twinLink (i : Nat) (f : Slot → Slot) (s : State) : (setSlot i f s).twinLink = s.twinLink := rfl
@[simp] theorem setSlot_cfg (i : Nat) (f : Slot → Slot) (s : State) : (setSlot i f s).cfg = s.cfg := rfl
@[simp] theorem setSlot_codec (i : Nat) (f : Slot → Slot) (s : State) : (setSlot i f s).codec = s.codec := rfl
@[simp] theorem setSlot_swath (i : Nat) (f : Slot → Slot) (s : State) : (setSlot i f s).swath = s.swath := rfl
@[simp] theorem setSlot_wave (i : Nat) (f : Slot → Slot) (s : State) : (setSlot i f s).wave = s.wave := rfl
@[simp] theorem setSlot_heads (i : Nat) (f : Slot → Slot) (s : State) : (setSlot i f s).heads = s.heads := rfl
@[simp] theorem setSlot_bar (i : Nat) (f : Slot → Slot) (s : State) : (setSlot i f s).bar = s.bar := rfl
@[simp] theorem setSlot_fbk (i : Nat) (f : Slot → Slot) (s : State) : (setSlot i f s).fbk = s.fbk := rfl
@[simp] theorem setSlot_fbo (i : Nat) (f : Slot → Slot) (s : State) : (setSlot i f s).fbo = s.fbo := rfl
@[simp] theorem setSlot_job (i : Nat) (f : Slot → Slot) (s : State) : (setSlot i f s).job = s.job := rfl
@[simp] theorem setSlot_pace (i : Nat) (f : Slot → Slot) (s : State) : (setSlot i f s).pace = s.pace := rfl
@[simp] theorem setSlot_parked (i : Nat) (f : Slot → Slot) (s : State) : (setSlot i f s).parked = s.parked := rfl
@[simp] theorem setSlot_audit (i : Nat) (f : Slot → Slot) (s : State) : (setSlot i f s).audit = s.audit := rfl
@[simp] theorem setSlot_axes (i : Nat) (f : Slot → Slot) (s : State) : (setSlot i f s).axes = s.axes := rfl
@[simp] theorem setSlot_drive (i : Nat) (f : Slot → Slot) (s : State) : (setSlot i f s).drive = s.drive := rfl
@[simp] theorem setSlot_mem (i : Nat) (f : Slot → Slot) (s : State) : (setSlot i f s).mem = s.mem := rfl
@[simp] theorem setSlot_twin (i : Nat) (f : Slot → Slot) (s : State) : (setSlot i f s).twin = s.twin := rfl
@[simp] theorem setSlot_time (i : Nat) (f : Slot → Slot) (s : State) : (setSlot i f s).time = { s.time with slots := updAt s.time.slots i f } := rfl
@[simp] theorem setSlot_eth (i : Nat) (f : Slot → Slot) (s : State) : (setSlot i f s).eth = s.eth := rfl
@[simp] theorem setSlot_life (i : Nat) (f : Slot → Slot) (s : State) : (setSlot i f s).life = s.life := rfl
@[simp] theorem setSlot_fawn (i : Nat) (f : Slot → Slot) (s : State) : (setSlot i f s).fawn = s.fawn := rfl
@[simp] theorem setSlot_clock (i : Nat) (f : Slot → Slot) (s : State) : (setSlot i f s).clock = s.clock := rfl
@[simp] theorem setSlot_free (i : Nat) (f : Slot → Slot) (s : State) : (setSlot i f s).free = s.free := rfl
@[simp] theorem setSlot_sent (i : Nat) (f : Slot → Slot) (s : State) : (setSlot i f s).sent = s.sent := rfl
@[simp] theorem setSlot_pending (i : Nat) (f : Slot → Slot) (s : State) : (setSlot i f s).pending = s.pending := rfl

/-! ### startSlew -/

@[simp] theorem startSlew_sys (off : Int) (s : State) : (startSlew off s).sys = s.sys := rfl
@[simp] theorem startSlew_mbx (off : Int) (s : State) : (startSlew off s).mbx = s.mbx := rfl
@[simp] theorem startSlew_evr (off : Int) (s : State) : (startSlew off s).evr = s.evr := rfl
@[simp] theorem startSlew_win (off : Int) (s : State) : (startSlew off s).win = s.win := rfl
@[simp] theorem startSlew_faults (off : Int) (s : State) : (startSlew off s).faults = s.faults := rfl
@[simp] theorem startSlew_host (off : Int) (s : State) : (startSlew off s).host = s.host := rfl
@[simp] theorem startSlew_twinLink (off : Int) (s : State) : (startSlew off s).twinLink = s.twinLink := rfl
@[simp] theorem startSlew_cfg (off : Int) (s : State) : (startSlew off s).cfg = s.cfg := rfl
@[simp] theorem startSlew_codec (off : Int) (s : State) : (startSlew off s).codec = s.codec := rfl
@[simp] theorem startSlew_swath (off : Int) (s : State) : (startSlew off s).swath = s.swath := rfl
@[simp] theorem startSlew_wave (off : Int) (s : State) : (startSlew off s).wave = s.wave := rfl
@[simp] theorem startSlew_heads (off : Int) (s : State) : (startSlew off s).heads = s.heads := rfl
@[simp] theorem startSlew_bar (off : Int) (s : State) : (startSlew off s).bar = s.bar := rfl
@[simp] theorem startSlew_fbk (off : Int) (s : State) : (startSlew off s).fbk = s.fbk := rfl
@[simp] theorem startSlew_fbo (off : Int) (s : State) : (startSlew off s).fbo = s.fbo := rfl
@[simp] theorem startSlew_job (off : Int) (s : State) : (startSlew off s).job = s.job := rfl
@[simp] theorem startSlew_pace (off : Int) (s : State) : (startSlew off s).pace = s.pace := rfl
@[simp] theorem startSlew_parked (off : Int) (s : State) : (startSlew off s).parked = s.parked := rfl
@[simp] theorem startSlew_audit (off : Int) (s : State) : (startSlew off s).audit = s.audit := rfl
@[simp] theorem startSlew_axes (off : Int) (s : State) : (startSlew off s).axes = s.axes := rfl
@[simp] theorem startSlew_drive (off : Int) (s : State) : (startSlew off s).drive = s.drive := rfl
@[simp] theorem startSlew_mem (off : Int) (s : State) : (startSlew off s).mem = s.mem := rfl
@[simp] theorem startSlew_twin (off : Int) (s : State) : (startSlew off s).twin = s.twin := rfl
@[simp] theorem startSlew_time (off : Int) (s : State) : (startSlew off s).time = { s.time with slew := off * 65536, slewing := true } := rfl
@[simp] theorem startSlew_eth (off : Int) (s : State) : (startSlew off s).eth = s.eth := rfl
@[simp] theorem startSlew_life (off : Int) (s : State) : (startSlew off s).life = s.life := rfl
@[simp] theorem startSlew_fawn (off : Int) (s : State) : (startSlew off s).fawn = s.fawn := rfl
@[simp] theorem startSlew_clock (off : Int) (s : State) : (startSlew off s).clock = s.clock := rfl
@[simp] theorem startSlew_free (off : Int) (s : State) : (startSlew off s).free = s.free := rfl
@[simp] theorem startSlew_sent (off : Int) (s : State) : (startSlew off s).sent = s.sent := rfl
@[simp] theorem startSlew_pending (off : Int) (s : State) : (startSlew off s).pending = s.pending := rfl

/-! ### setEth -/

@[simp] theorem setEth_sys (f : Eth → Eth) (s : State) : (setEth f s).sys = s.sys := rfl
@[simp] theorem setEth_mbx (f : Eth → Eth) (s : State) : (setEth f s).mbx = s.mbx := rfl
@[simp] theorem setEth_evr (f : Eth → Eth) (s : State) : (setEth f s).evr = s.evr := rfl
@[simp] theorem setEth_win (f : Eth → Eth) (s : State) : (setEth f s).win = s.win := rfl
@[simp] theorem setEth_faults (f : Eth → Eth) (s : State) : (setEth f s).faults = s.faults := rfl
@[simp] theorem setEth_host (f : Eth → Eth) (s : State) : (setEth f s).host = s.host := rfl
@[simp] theorem setEth_twinLink (f : Eth → Eth) (s : State) : (setEth f s).twinLink = s.twinLink := rfl
@[simp] theorem setEth_cfg (f : Eth → Eth) (s : State) : (setEth f s).cfg = s.cfg := rfl
@[simp] theorem setEth_codec (f : Eth → Eth) (s : State) : (setEth f s).codec = s.codec := rfl
@[simp] theorem setEth_swath (f : Eth → Eth) (s : State) : (setEth f s).swath = s.swath := rfl
@[simp] theorem setEth_wave (f : Eth → Eth) (s : State) : (setEth f s).wave = s.wave := rfl
@[simp] theorem setEth_heads (f : Eth → Eth) (s : State) : (setEth f s).heads = s.heads := rfl
@[simp] theorem setEth_bar (f : Eth → Eth) (s : State) : (setEth f s).bar = s.bar := rfl
@[simp] theorem setEth_fbk (f : Eth → Eth) (s : State) : (setEth f s).fbk = s.fbk := rfl
@[simp] theorem setEth_fbo (f : Eth → Eth) (s : State) : (setEth f s).fbo = s.fbo := rfl
@[simp] theorem setEth_job (f : Eth → Eth) (s : State) : (setEth f s).job = s.job := rfl
@[simp] theorem setEth_pace (f : Eth → Eth) (s : State) : (setEth f s).pace = s.pace := rfl
@[simp] theorem setEth_parked (f : Eth → Eth) (s : State) : (setEth f s).parked = s.parked := rfl
@[simp] theorem setEth_audit (f : Eth → Eth) (s : State) : (setEth f s).audit = s.audit := rfl
@[simp] theorem setEth_axes (f : Eth → Eth) (s : State) : (setEth f s).axes = s.axes := rfl
@[simp] theorem setEth_drive (f : Eth → Eth) (s : State) : (setEth f s).drive = s.drive := rfl
@[simp] theorem setEth_mem (f : Eth → Eth) (s : State) : (setEth f s).mem = s.mem := rfl
@[simp] theorem setEth_twin (f : Eth → Eth) (s : State) : (setEth f s).twin = s.twin := rfl
@[simp] theorem setEth_time (f : Eth → Eth) (s : State) : (setEth f s).time = s.time := rfl
@[simp] theorem setEth_eth (f : Eth → Eth) (s : State) : (setEth f s).eth = f s.eth := rfl
@[simp] theorem setEth_life (f : Eth → Eth) (s : State) : (setEth f s).life = s.life := rfl
@[simp] theorem setEth_fawn (f : Eth → Eth) (s : State) : (setEth f s).fawn = s.fawn := rfl
@[simp] theorem setEth_clock (f : Eth → Eth) (s : State) : (setEth f s).clock = s.clock := rfl
@[simp] theorem setEth_free (f : Eth → Eth) (s : State) : (setEth f s).free = s.free := rfl
@[simp] theorem setEth_sent (f : Eth → Eth) (s : State) : (setEth f s).sent = s.sent := rfl
@[simp] theorem setEth_pending (f : Eth → Eth) (s : State) : (setEth f s).pending = s.pending := rfl

/-! ### setFawn -/

@[simp] theorem setFawn_sys (f : Fawn → Fawn) (s : State) : (setFawn f s).sys = s.sys := rfl
@[simp] theorem setFawn_mbx (f : Fawn → Fawn) (s : State) : (setFawn f s).mbx = s.mbx := rfl
@[simp] theorem setFawn_evr (f : Fawn → Fawn) (s : State) : (setFawn f s).evr = s.evr := rfl
@[simp] theorem setFawn_win (f : Fawn → Fawn) (s : State) : (setFawn f s).win = s.win := rfl
@[simp] theorem setFawn_faults (f : Fawn → Fawn) (s : State) : (setFawn f s).faults = s.faults := rfl
@[simp] theorem setFawn_host (f : Fawn → Fawn) (s : State) : (setFawn f s).host = s.host := rfl
@[simp] theorem setFawn_twinLink (f : Fawn → Fawn) (s : State) : (setFawn f s).twinLink = s.twinLink := rfl
@[simp] theorem setFawn_cfg (f : Fawn → Fawn) (s : State) : (setFawn f s).cfg = s.cfg := rfl
@[simp] theorem setFawn_codec (f : Fawn → Fawn) (s : State) : (setFawn f s).codec = s.codec := rfl
@[simp] theorem setFawn_swath (f : Fawn → Fawn) (s : State) : (setFawn f s).swath = s.swath := rfl
@[simp] theorem setFawn_wave (f : Fawn → Fawn) (s : State) : (setFawn f s).wave = s.wave := rfl
@[simp] theorem setFawn_heads (f : Fawn → Fawn) (s : State) : (setFawn f s).heads = s.heads := rfl
@[simp] theorem setFawn_bar (f : Fawn → Fawn) (s : State) : (setFawn f s).bar = s.bar := rfl
@[simp] theorem setFawn_fbk (f : Fawn → Fawn) (s : State) : (setFawn f s).fbk = s.fbk := rfl
@[simp] theorem setFawn_fbo (f : Fawn → Fawn) (s : State) : (setFawn f s).fbo = s.fbo := rfl
@[simp] theorem setFawn_job (f : Fawn → Fawn) (s : State) : (setFawn f s).job = s.job := rfl
@[simp] theorem setFawn_pace (f : Fawn → Fawn) (s : State) : (setFawn f s).pace = s.pace := rfl
@[simp] theorem setFawn_parked (f : Fawn → Fawn) (s : State) : (setFawn f s).parked = s.parked := rfl
@[simp] theorem setFawn_audit (f : Fawn → Fawn) (s : State) : (setFawn f s).audit = s.audit := rfl
@[simp] theorem setFawn_axes (f : Fawn → Fawn) (s : State) : (setFawn f s).axes = s.axes := rfl
@[simp] theorem setFawn_drive (f : Fawn → Fawn) (s : State) : (setFawn f s).drive = s.drive := rfl
@[simp] theorem setFawn_mem (f : Fawn → Fawn) (s : State) : (setFawn f s).mem = s.mem := rfl
@[simp] theorem setFawn_twin (f : Fawn → Fawn) (s : State) : (setFawn f s).twin = s.twin := rfl
@[simp] theorem setFawn_time (f : Fawn → Fawn) (s : State) : (setFawn f s).time = s.time := rfl
@[simp] theorem setFawn_eth (f : Fawn → Fawn) (s : State) : (setFawn f s).eth = s.eth := rfl
@[simp] theorem setFawn_life (f : Fawn → Fawn) (s : State) : (setFawn f s).life = s.life := rfl
@[simp] theorem setFawn_fawn (f : Fawn → Fawn) (s : State) : (setFawn f s).fawn = f s.fawn := rfl
@[simp] theorem setFawn_clock (f : Fawn → Fawn) (s : State) : (setFawn f s).clock = s.clock := rfl
@[simp] theorem setFawn_free (f : Fawn → Fawn) (s : State) : (setFawn f s).free = s.free := rfl
@[simp] theorem setFawn_sent (f : Fawn → Fawn) (s : State) : (setFawn f s).sent = s.sent := rfl
@[simp] theorem setFawn_pending (f : Fawn → Fawn) (s : State) : (setFawn f s).pending = s.pending := rfl

/-! ### setFbk -/

@[simp] theorem setFbk_sys (c : Nat) (f : Fbk → Fbk) (s : State) : (setFbk c f s).sys = s.sys := rfl
@[simp] theorem setFbk_mbx (c : Nat) (f : Fbk → Fbk) (s : State) : (setFbk c f s).mbx = s.mbx := rfl
@[simp] theorem setFbk_evr (c : Nat) (f : Fbk → Fbk) (s : State) : (setFbk c f s).evr = s.evr := rfl
@[simp] theorem setFbk_win (c : Nat) (f : Fbk → Fbk) (s : State) : (setFbk c f s).win = s.win := rfl
@[simp] theorem setFbk_faults (c : Nat) (f : Fbk → Fbk) (s : State) : (setFbk c f s).faults = s.faults := rfl
@[simp] theorem setFbk_host (c : Nat) (f : Fbk → Fbk) (s : State) : (setFbk c f s).host = s.host := rfl
@[simp] theorem setFbk_twinLink (c : Nat) (f : Fbk → Fbk) (s : State) : (setFbk c f s).twinLink = s.twinLink := rfl
@[simp] theorem setFbk_cfg (c : Nat) (f : Fbk → Fbk) (s : State) : (setFbk c f s).cfg = s.cfg := rfl
@[simp] theorem setFbk_codec (c : Nat) (f : Fbk → Fbk) (s : State) : (setFbk c f s).codec = s.codec := rfl
@[simp] theorem setFbk_swath (c : Nat) (f : Fbk → Fbk) (s : State) : (setFbk c f s).swath = s.swath := rfl
@[simp] theorem setFbk_wave (c : Nat) (f : Fbk → Fbk) (s : State) : (setFbk c f s).wave = s.wave := rfl
@[simp] theorem setFbk_heads (c : Nat) (f : Fbk → Fbk) (s : State) : (setFbk c f s).heads = s.heads := rfl
@[simp] theorem setFbk_bar (c : Nat) (f : Fbk → Fbk) (s : State) : (setFbk c f s).bar = s.bar := rfl
@[simp] theorem setFbk_fbk (c : Nat) (f : Fbk → Fbk) (s : State) : (setFbk c f s).fbk = updAt s.fbk c f := rfl
@[simp] theorem setFbk_fbo (c : Nat) (f : Fbk → Fbk) (s : State) : (setFbk c f s).fbo = s.fbo := rfl
@[simp] theorem setFbk_job (c : Nat) (f : Fbk → Fbk) (s : State) : (setFbk c f s).job = s.job := rfl
@[simp] theorem setFbk_pace (c : Nat) (f : Fbk → Fbk) (s : State) : (setFbk c f s).pace = s.pace := rfl
@[simp] theorem setFbk_parked (c : Nat) (f : Fbk → Fbk) (s : State) : (setFbk c f s).parked = s.parked := rfl
@[simp] theorem setFbk_audit (c : Nat) (f : Fbk → Fbk) (s : State) : (setFbk c f s).audit = s.audit := rfl
@[simp] theorem setFbk_axes (c : Nat) (f : Fbk → Fbk) (s : State) : (setFbk c f s).axes = s.axes := rfl
@[simp] theorem setFbk_drive (c : Nat) (f : Fbk → Fbk) (s : State) : (setFbk c f s).drive = s.drive := rfl
@[simp] theorem setFbk_mem (c : Nat) (f : Fbk → Fbk) (s : State) : (setFbk c f s).mem = s.mem := rfl
@[simp] theorem setFbk_twin (c : Nat) (f : Fbk → Fbk) (s : State) : (setFbk c f s).twin = s.twin := rfl
@[simp] theorem setFbk_time (c : Nat) (f : Fbk → Fbk) (s : State) : (setFbk c f s).time = s.time := rfl
@[simp] theorem setFbk_eth (c : Nat) (f : Fbk → Fbk) (s : State) : (setFbk c f s).eth = s.eth := rfl
@[simp] theorem setFbk_life (c : Nat) (f : Fbk → Fbk) (s : State) : (setFbk c f s).life = s.life := rfl
@[simp] theorem setFbk_fawn (c : Nat) (f : Fbk → Fbk) (s : State) : (setFbk c f s).fawn = s.fawn := rfl
@[simp] theorem setFbk_clock (c : Nat) (f : Fbk → Fbk) (s : State) : (setFbk c f s).clock = s.clock := rfl
@[simp] theorem setFbk_free (c : Nat) (f : Fbk → Fbk) (s : State) : (setFbk c f s).free = s.free := rfl
@[simp] theorem setFbk_sent (c : Nat) (f : Fbk → Fbk) (s : State) : (setFbk c f s).sent = s.sent := rfl
@[simp] theorem setFbk_pending (c : Nat) (f : Fbk → Fbk) (s : State) : (setFbk c f s).pending = s.pending := rfl

/-! ### setFbo -/

@[simp] theorem setFbo_sys (i : Nat) (f : Fbo → Fbo) (s : State) : (setFbo i f s).sys = s.sys := rfl
@[simp] theorem setFbo_mbx (i : Nat) (f : Fbo → Fbo) (s : State) : (setFbo i f s).mbx = s.mbx := rfl
@[simp] theorem setFbo_evr (i : Nat) (f : Fbo → Fbo) (s : State) : (setFbo i f s).evr = s.evr := rfl
@[simp] theorem setFbo_win (i : Nat) (f : Fbo → Fbo) (s : State) : (setFbo i f s).win = s.win := rfl
@[simp] theorem setFbo_faults (i : Nat) (f : Fbo → Fbo) (s : State) : (setFbo i f s).faults = s.faults := rfl
@[simp] theorem setFbo_host (i : Nat) (f : Fbo → Fbo) (s : State) : (setFbo i f s).host = s.host := rfl
@[simp] theorem setFbo_twinLink (i : Nat) (f : Fbo → Fbo) (s : State) : (setFbo i f s).twinLink = s.twinLink := rfl
@[simp] theorem setFbo_cfg (i : Nat) (f : Fbo → Fbo) (s : State) : (setFbo i f s).cfg = s.cfg := rfl
@[simp] theorem setFbo_codec (i : Nat) (f : Fbo → Fbo) (s : State) : (setFbo i f s).codec = s.codec := rfl
@[simp] theorem setFbo_swath (i : Nat) (f : Fbo → Fbo) (s : State) : (setFbo i f s).swath = s.swath := rfl
@[simp] theorem setFbo_wave (i : Nat) (f : Fbo → Fbo) (s : State) : (setFbo i f s).wave = s.wave := rfl
@[simp] theorem setFbo_heads (i : Nat) (f : Fbo → Fbo) (s : State) : (setFbo i f s).heads = s.heads := rfl
@[simp] theorem setFbo_bar (i : Nat) (f : Fbo → Fbo) (s : State) : (setFbo i f s).bar = s.bar := rfl
@[simp] theorem setFbo_fbk (i : Nat) (f : Fbo → Fbo) (s : State) : (setFbo i f s).fbk = s.fbk := rfl
@[simp] theorem setFbo_fbo (i : Nat) (f : Fbo → Fbo) (s : State) : (setFbo i f s).fbo = updAt s.fbo i f := rfl
@[simp] theorem setFbo_job (i : Nat) (f : Fbo → Fbo) (s : State) : (setFbo i f s).job = s.job := rfl
@[simp] theorem setFbo_pace (i : Nat) (f : Fbo → Fbo) (s : State) : (setFbo i f s).pace = s.pace := rfl
@[simp] theorem setFbo_parked (i : Nat) (f : Fbo → Fbo) (s : State) : (setFbo i f s).parked = s.parked := rfl
@[simp] theorem setFbo_audit (i : Nat) (f : Fbo → Fbo) (s : State) : (setFbo i f s).audit = s.audit := rfl
@[simp] theorem setFbo_axes (i : Nat) (f : Fbo → Fbo) (s : State) : (setFbo i f s).axes = s.axes := rfl
@[simp] theorem setFbo_drive (i : Nat) (f : Fbo → Fbo) (s : State) : (setFbo i f s).drive = s.drive := rfl
@[simp] theorem setFbo_mem (i : Nat) (f : Fbo → Fbo) (s : State) : (setFbo i f s).mem = s.mem := rfl
@[simp] theorem setFbo_twin (i : Nat) (f : Fbo → Fbo) (s : State) : (setFbo i f s).twin = s.twin := rfl
@[simp] theorem setFbo_time (i : Nat) (f : Fbo → Fbo) (s : State) : (setFbo i f s).time = s.time := rfl
@[simp] theorem setFbo_eth (i : Nat) (f : Fbo → Fbo) (s : State) : (setFbo i f s).eth = s.eth := rfl
@[simp] theorem setFbo_life (i : Nat) (f : Fbo → Fbo) (s : State) : (setFbo i f s).life = s.life := rfl
@[simp] theorem setFbo_fawn (i : Nat) (f : Fbo → Fbo) (s : State) : (setFbo i f s).fawn = s.fawn := rfl
@[simp] theorem setFbo_clock (i : Nat) (f : Fbo → Fbo) (s : State) : (setFbo i f s).clock = s.clock := rfl
@[simp] theorem setFbo_free (i : Nat) (f : Fbo → Fbo) (s : State) : (setFbo i f s).free = s.free := rfl
@[simp] theorem setFbo_sent (i : Nat) (f : Fbo → Fbo) (s : State) : (setFbo i f s).sent = s.sent := rfl
@[simp] theorem setFbo_pending (i : Nat) (f : Fbo → Fbo) (s : State) : (setFbo i f s).pending = s.pending := rfl

/-! ### setHead -/

@[simp] theorem setHead_sys (p : Nat) (f : Head → Head) (s : State) : (setHead p f s).sys = s.sys := rfl
@[simp] theorem setHead_mbx (p : Nat) (f : Head → Head) (s : State) : (setHead p f s).mbx = s.mbx := rfl
@[simp] theorem setHead_evr (p : Nat) (f : Head → Head) (s : State) : (setHead p f s).evr = s.evr := rfl
@[simp] theorem setHead_win (p : Nat) (f : Head → Head) (s : State) : (setHead p f s).win = s.win := rfl
@[simp] theorem setHead_faults (p : Nat) (f : Head → Head) (s : State) : (setHead p f s).faults = s.faults := rfl
@[simp] theorem setHead_host (p : Nat) (f : Head → Head) (s : State) : (setHead p f s).host = s.host := rfl
@[simp] theorem setHead_twinLink (p : Nat) (f : Head → Head) (s : State) : (setHead p f s).twinLink = s.twinLink := rfl
@[simp] theorem setHead_cfg (p : Nat) (f : Head → Head) (s : State) : (setHead p f s).cfg = s.cfg := rfl
@[simp] theorem setHead_codec (p : Nat) (f : Head → Head) (s : State) : (setHead p f s).codec = s.codec := rfl
@[simp] theorem setHead_swath (p : Nat) (f : Head → Head) (s : State) : (setHead p f s).swath = s.swath := rfl
@[simp] theorem setHead_wave (p : Nat) (f : Head → Head) (s : State) : (setHead p f s).wave = s.wave := rfl
@[simp] theorem setHead_heads (p : Nat) (f : Head → Head) (s : State) : (setHead p f s).heads = updAt s.heads p f := rfl
@[simp] theorem setHead_bar (p : Nat) (f : Head → Head) (s : State) : (setHead p f s).bar = s.bar := rfl
@[simp] theorem setHead_fbk (p : Nat) (f : Head → Head) (s : State) : (setHead p f s).fbk = s.fbk := rfl
@[simp] theorem setHead_fbo (p : Nat) (f : Head → Head) (s : State) : (setHead p f s).fbo = s.fbo := rfl
@[simp] theorem setHead_job (p : Nat) (f : Head → Head) (s : State) : (setHead p f s).job = s.job := rfl
@[simp] theorem setHead_pace (p : Nat) (f : Head → Head) (s : State) : (setHead p f s).pace = s.pace := rfl
@[simp] theorem setHead_parked (p : Nat) (f : Head → Head) (s : State) : (setHead p f s).parked = s.parked := rfl
@[simp] theorem setHead_audit (p : Nat) (f : Head → Head) (s : State) : (setHead p f s).audit = s.audit := rfl
@[simp] theorem setHead_axes (p : Nat) (f : Head → Head) (s : State) : (setHead p f s).axes = s.axes := rfl
@[simp] theorem setHead_drive (p : Nat) (f : Head → Head) (s : State) : (setHead p f s).drive = s.drive := rfl
@[simp] theorem setHead_mem (p : Nat) (f : Head → Head) (s : State) : (setHead p f s).mem = s.mem := rfl
@[simp] theorem setHead_twin (p : Nat) (f : Head → Head) (s : State) : (setHead p f s).twin = s.twin := rfl
@[simp] theorem setHead_time (p : Nat) (f : Head → Head) (s : State) : (setHead p f s).time = s.time := rfl
@[simp] theorem setHead_eth (p : Nat) (f : Head → Head) (s : State) : (setHead p f s).eth = s.eth := rfl
@[simp] theorem setHead_life (p : Nat) (f : Head → Head) (s : State) : (setHead p f s).life = s.life := rfl
@[simp] theorem setHead_fawn (p : Nat) (f : Head → Head) (s : State) : (setHead p f s).fawn = s.fawn := rfl
@[simp] theorem setHead_clock (p : Nat) (f : Head → Head) (s : State) : (setHead p f s).clock = s.clock := rfl
@[simp] theorem setHead_free (p : Nat) (f : Head → Head) (s : State) : (setHead p f s).free = s.free := rfl
@[simp] theorem setHead_sent (p : Nat) (f : Head → Head) (s : State) : (setHead p f s).sent = s.sent := rfl
@[simp] theorem setHead_pending (p : Nat) (f : Head → Head) (s : State) : (setHead p f s).pending = s.pending := rfl

/-! ### setTwin -/

@[simp] theorem setTwin_sys (f : Twin → Twin) (s : State) : (setTwin f s).sys = s.sys := rfl
@[simp] theorem setTwin_mbx (f : Twin → Twin) (s : State) : (setTwin f s).mbx = s.mbx := rfl
@[simp] theorem setTwin_evr (f : Twin → Twin) (s : State) : (setTwin f s).evr = s.evr := rfl
@[simp] theorem setTwin_win (f : Twin → Twin) (s : State) : (setTwin f s).win = s.win := rfl
@[simp] theorem setTwin_faults (f : Twin → Twin) (s : State) : (setTwin f s).faults = s.faults := rfl
@[simp] theorem setTwin_host (f : Twin → Twin) (s : State) : (setTwin f s).host = s.host := rfl
@[simp] theorem setTwin_twinLink (f : Twin → Twin) (s : State) : (setTwin f s).twinLink = s.twinLink := rfl
@[simp] theorem setTwin_cfg (f : Twin → Twin) (s : State) : (setTwin f s).cfg = s.cfg := rfl
@[simp] theorem setTwin_codec (f : Twin → Twin) (s : State) : (setTwin f s).codec = s.codec := rfl
@[simp] theorem setTwin_swath (f : Twin → Twin) (s : State) : (setTwin f s).swath = s.swath := rfl
@[simp] theorem setTwin_wave (f : Twin → Twin) (s : State) : (setTwin f s).wave = s.wave := rfl
@[simp] theorem setTwin_heads (f : Twin → Twin) (s : State) : (setTwin f s).heads = s.heads := rfl
@[simp] theorem setTwin_bar (f : Twin → Twin) (s : State) : (setTwin f s).bar = s.bar := rfl
@[simp] theorem setTwin_fbk (f : Twin → Twin) (s : State) : (setTwin f s).fbk = s.fbk := rfl
@[simp] theorem setTwin_fbo (f : Twin → Twin) (s : State) : (setTwin f s).fbo = s.fbo := rfl
@[simp] theorem setTwin_job (f : Twin → Twin) (s : State) : (setTwin f s).job = s.job := rfl
@[simp] theorem setTwin_pace (f : Twin → Twin) (s : State) : (setTwin f s).pace = s.pace := rfl
@[simp] theorem setTwin_parked (f : Twin → Twin) (s : State) : (setTwin f s).parked = s.parked := rfl
@[simp] theorem setTwin_audit (f : Twin → Twin) (s : State) : (setTwin f s).audit = s.audit := rfl
@[simp] theorem setTwin_axes (f : Twin → Twin) (s : State) : (setTwin f s).axes = s.axes := rfl
@[simp] theorem setTwin_drive (f : Twin → Twin) (s : State) : (setTwin f s).drive = s.drive := rfl
@[simp] theorem setTwin_mem (f : Twin → Twin) (s : State) : (setTwin f s).mem = s.mem := rfl
@[simp] theorem setTwin_twin (f : Twin → Twin) (s : State) : (setTwin f s).twin = f s.twin := rfl
@[simp] theorem setTwin_time (f : Twin → Twin) (s : State) : (setTwin f s).time = s.time := rfl
@[simp] theorem setTwin_eth (f : Twin → Twin) (s : State) : (setTwin f s).eth = s.eth := rfl
@[simp] theorem setTwin_life (f : Twin → Twin) (s : State) : (setTwin f s).life = s.life := rfl
@[simp] theorem setTwin_fawn (f : Twin → Twin) (s : State) : (setTwin f s).fawn = s.fawn := rfl
@[simp] theorem setTwin_clock (f : Twin → Twin) (s : State) : (setTwin f s).clock = s.clock := rfl
@[simp] theorem setTwin_free (f : Twin → Twin) (s : State) : (setTwin f s).free = s.free := rfl
@[simp] theorem setTwin_sent (f : Twin → Twin) (s : State) : (setTwin f s).sent = s.sent := rfl
@[simp] theorem setTwin_pending (f : Twin → Twin) (s : State) : (setTwin f s).pending = s.pending := rfl

/-! ### setBox -/

@[simp] theorem setBox_sys (n : Fin 8) (f : Mailbox → Mailbox) (s : State) : (setBox n f s).sys = s.sys := rfl
@[simp] theorem setBox_mbx (n : Fin 8) (f : Mailbox → Mailbox) (s : State) : (setBox n f s).mbx = { s.mbx with box := s.mbx.box.set n (f s.mbx.box[n]) } := rfl
@[simp] theorem setBox_evr (n : Fin 8) (f : Mailbox → Mailbox) (s : State) : (setBox n f s).evr = s.evr := rfl
@[simp] theorem setBox_win (n : Fin 8) (f : Mailbox → Mailbox) (s : State) : (setBox n f s).win = s.win := rfl
@[simp] theorem setBox_faults (n : Fin 8) (f : Mailbox → Mailbox) (s : State) : (setBox n f s).faults = s.faults := rfl
@[simp] theorem setBox_host (n : Fin 8) (f : Mailbox → Mailbox) (s : State) : (setBox n f s).host = s.host := rfl
@[simp] theorem setBox_twinLink (n : Fin 8) (f : Mailbox → Mailbox) (s : State) : (setBox n f s).twinLink = s.twinLink := rfl
@[simp] theorem setBox_cfg (n : Fin 8) (f : Mailbox → Mailbox) (s : State) : (setBox n f s).cfg = s.cfg := rfl
@[simp] theorem setBox_codec (n : Fin 8) (f : Mailbox → Mailbox) (s : State) : (setBox n f s).codec = s.codec := rfl
@[simp] theorem setBox_swath (n : Fin 8) (f : Mailbox → Mailbox) (s : State) : (setBox n f s).swath = s.swath := rfl
@[simp] theorem setBox_wave (n : Fin 8) (f : Mailbox → Mailbox) (s : State) : (setBox n f s).wave = s.wave := rfl
@[simp] theorem setBox_heads (n : Fin 8) (f : Mailbox → Mailbox) (s : State) : (setBox n f s).heads = s.heads := rfl
@[simp] theorem setBox_bar (n : Fin 8) (f : Mailbox → Mailbox) (s : State) : (setBox n f s).bar = s.bar := rfl
@[simp] theorem setBox_fbk (n : Fin 8) (f : Mailbox → Mailbox) (s : State) : (setBox n f s).fbk = s.fbk := rfl
@[simp] theorem setBox_fbo (n : Fin 8) (f : Mailbox → Mailbox) (s : State) : (setBox n f s).fbo = s.fbo := rfl
@[simp] theorem setBox_job (n : Fin 8) (f : Mailbox → Mailbox) (s : State) : (setBox n f s).job = s.job := rfl
@[simp] theorem setBox_pace (n : Fin 8) (f : Mailbox → Mailbox) (s : State) : (setBox n f s).pace = s.pace := rfl
@[simp] theorem setBox_parked (n : Fin 8) (f : Mailbox → Mailbox) (s : State) : (setBox n f s).parked = s.parked := rfl
@[simp] theorem setBox_audit (n : Fin 8) (f : Mailbox → Mailbox) (s : State) : (setBox n f s).audit = s.audit := rfl
@[simp] theorem setBox_axes (n : Fin 8) (f : Mailbox → Mailbox) (s : State) : (setBox n f s).axes = s.axes := rfl
@[simp] theorem setBox_drive (n : Fin 8) (f : Mailbox → Mailbox) (s : State) : (setBox n f s).drive = s.drive := rfl
@[simp] theorem setBox_mem (n : Fin 8) (f : Mailbox → Mailbox) (s : State) : (setBox n f s).mem = s.mem := rfl
@[simp] theorem setBox_twin (n : Fin 8) (f : Mailbox → Mailbox) (s : State) : (setBox n f s).twin = s.twin := rfl
@[simp] theorem setBox_time (n : Fin 8) (f : Mailbox → Mailbox) (s : State) : (setBox n f s).time = s.time := rfl
@[simp] theorem setBox_eth (n : Fin 8) (f : Mailbox → Mailbox) (s : State) : (setBox n f s).eth = s.eth := rfl
@[simp] theorem setBox_life (n : Fin 8) (f : Mailbox → Mailbox) (s : State) : (setBox n f s).life = s.life := rfl
@[simp] theorem setBox_fawn (n : Fin 8) (f : Mailbox → Mailbox) (s : State) : (setBox n f s).fawn = s.fawn := rfl
@[simp] theorem setBox_clock (n : Fin 8) (f : Mailbox → Mailbox) (s : State) : (setBox n f s).clock = s.clock := rfl
@[simp] theorem setBox_free (n : Fin 8) (f : Mailbox → Mailbox) (s : State) : (setBox n f s).free = s.free := rfl
@[simp] theorem setBox_sent (n : Fin 8) (f : Mailbox → Mailbox) (s : State) : (setBox n f s).sent = s.sent := rfl
@[simp] theorem setBox_pending (n : Fin 8) (f : Mailbox → Mailbox) (s : State) : (setBox n f s).pending = s.pending := rfl

/-! ### setCvu -/

@[simp] theorem setCvu_sys (u : Nat) (f : Cvu → Cvu) (s : State) : (setCvu u f s).sys = s.sys := rfl
@[simp] theorem setCvu_mbx (u : Nat) (f : Cvu → Cvu) (s : State) : (setCvu u f s).mbx = s.mbx := rfl
@[simp] theorem setCvu_evr (u : Nat) (f : Cvu → Cvu) (s : State) : (setCvu u f s).evr = s.evr := rfl
@[simp] theorem setCvu_win (u : Nat) (f : Cvu → Cvu) (s : State) : (setCvu u f s).win = s.win := rfl
@[simp] theorem setCvu_faults (u : Nat) (f : Cvu → Cvu) (s : State) : (setCvu u f s).faults = s.faults := rfl
@[simp] theorem setCvu_host (u : Nat) (f : Cvu → Cvu) (s : State) : (setCvu u f s).host = s.host := rfl
@[simp] theorem setCvu_twinLink (u : Nat) (f : Cvu → Cvu) (s : State) : (setCvu u f s).twinLink = s.twinLink := rfl
@[simp] theorem setCvu_cfg (u : Nat) (f : Cvu → Cvu) (s : State) : (setCvu u f s).cfg = s.cfg := rfl
@[simp] theorem setCvu_codec (u : Nat) (f : Cvu → Cvu) (s : State) : (setCvu u f s).codec = s.codec := rfl
@[simp] theorem setCvu_swath (u : Nat) (f : Cvu → Cvu) (s : State) : (setCvu u f s).swath = s.swath := rfl
@[simp] theorem setCvu_wave (u : Nat) (f : Cvu → Cvu) (s : State) : (setCvu u f s).wave = s.wave := rfl
@[simp] theorem setCvu_heads (u : Nat) (f : Cvu → Cvu) (s : State) : (setCvu u f s).heads = s.heads := rfl
@[simp] theorem setCvu_bar (u : Nat) (f : Cvu → Cvu) (s : State) : (setCvu u f s).bar = s.bar := rfl
@[simp] theorem setCvu_fbk (u : Nat) (f : Cvu → Cvu) (s : State) : (setCvu u f s).fbk = s.fbk := rfl
@[simp] theorem setCvu_fbo (u : Nat) (f : Cvu → Cvu) (s : State) : (setCvu u f s).fbo = s.fbo := rfl
@[simp] theorem setCvu_job (u : Nat) (f : Cvu → Cvu) (s : State) : (setCvu u f s).job = s.job := rfl
@[simp] theorem setCvu_pace (u : Nat) (f : Cvu → Cvu) (s : State) : (setCvu u f s).pace = s.pace := rfl
@[simp] theorem setCvu_parked (u : Nat) (f : Cvu → Cvu) (s : State) : (setCvu u f s).parked = s.parked := rfl
@[simp] theorem setCvu_audit (u : Nat) (f : Cvu → Cvu) (s : State) : (setCvu u f s).audit = s.audit := rfl
@[simp] theorem setCvu_axes (u : Nat) (f : Cvu → Cvu) (s : State) : (setCvu u f s).axes = s.axes := rfl
@[simp] theorem setCvu_drive (u : Nat) (f : Cvu → Cvu) (s : State) : (setCvu u f s).drive = s.drive := rfl
@[simp] theorem setCvu_mem (u : Nat) (f : Cvu → Cvu) (s : State) : (setCvu u f s).mem = { s.mem with cvu := updAt s.mem.cvu u f } := rfl
@[simp] theorem setCvu_twin (u : Nat) (f : Cvu → Cvu) (s : State) : (setCvu u f s).twin = s.twin := rfl
@[simp] theorem setCvu_time (u : Nat) (f : Cvu → Cvu) (s : State) : (setCvu u f s).time = s.time := rfl
@[simp] theorem setCvu_eth (u : Nat) (f : Cvu → Cvu) (s : State) : (setCvu u f s).eth = s.eth := rfl
@[simp] theorem setCvu_life (u : Nat) (f : Cvu → Cvu) (s : State) : (setCvu u f s).life = s.life := rfl
@[simp] theorem setCvu_fawn (u : Nat) (f : Cvu → Cvu) (s : State) : (setCvu u f s).fawn = s.fawn := rfl
@[simp] theorem setCvu_clock (u : Nat) (f : Cvu → Cvu) (s : State) : (setCvu u f s).clock = s.clock := rfl
@[simp] theorem setCvu_free (u : Nat) (f : Cvu → Cvu) (s : State) : (setCvu u f s).free = s.free := rfl
@[simp] theorem setCvu_sent (u : Nat) (f : Cvu → Cvu) (s : State) : (setCvu u f s).sent = s.sent := rfl
@[simp] theorem setCvu_pending (u : Nat) (f : Cvu → Cvu) (s : State) : (setCvu u f s).pending = s.pending := rfl

/-! ### setDrive -/

@[simp] theorem setDrive_sys (dl : Nat) (f : DriveLink → DriveLink) (s : State) : (setDrive dl f s).sys = s.sys := rfl
@[simp] theorem setDrive_mbx (dl : Nat) (f : DriveLink → DriveLink) (s : State) : (setDrive dl f s).mbx = s.mbx := rfl
@[simp] theorem setDrive_evr (dl : Nat) (f : DriveLink → DriveLink) (s : State) : (setDrive dl f s).evr = s.evr := rfl
@[simp] theorem setDrive_win (dl : Nat) (f : DriveLink → DriveLink) (s : State) : (setDrive dl f s).win = s.win := rfl
@[simp] theorem setDrive_faults (dl : Nat) (f : DriveLink → DriveLink) (s : State) : (setDrive dl f s).faults = s.faults := rfl
@[simp] theorem setDrive_host (dl : Nat) (f : DriveLink → DriveLink) (s : State) : (setDrive dl f s).host = s.host := rfl
@[simp] theorem setDrive_twinLink (dl : Nat) (f : DriveLink → DriveLink) (s : State) : (setDrive dl f s).twinLink = s.twinLink := rfl
@[simp] theorem setDrive_cfg (dl : Nat) (f : DriveLink → DriveLink) (s : State) : (setDrive dl f s).cfg = s.cfg := rfl
@[simp] theorem setDrive_codec (dl : Nat) (f : DriveLink → DriveLink) (s : State) : (setDrive dl f s).codec = s.codec := rfl
@[simp] theorem setDrive_swath (dl : Nat) (f : DriveLink → DriveLink) (s : State) : (setDrive dl f s).swath = s.swath := rfl
@[simp] theorem setDrive_wave (dl : Nat) (f : DriveLink → DriveLink) (s : State) : (setDrive dl f s).wave = s.wave := rfl
@[simp] theorem setDrive_heads (dl : Nat) (f : DriveLink → DriveLink) (s : State) : (setDrive dl f s).heads = s.heads := rfl
@[simp] theorem setDrive_bar (dl : Nat) (f : DriveLink → DriveLink) (s : State) : (setDrive dl f s).bar = s.bar := rfl
@[simp] theorem setDrive_fbk (dl : Nat) (f : DriveLink → DriveLink) (s : State) : (setDrive dl f s).fbk = s.fbk := rfl
@[simp] theorem setDrive_fbo (dl : Nat) (f : DriveLink → DriveLink) (s : State) : (setDrive dl f s).fbo = s.fbo := rfl
@[simp] theorem setDrive_job (dl : Nat) (f : DriveLink → DriveLink) (s : State) : (setDrive dl f s).job = s.job := rfl
@[simp] theorem setDrive_pace (dl : Nat) (f : DriveLink → DriveLink) (s : State) : (setDrive dl f s).pace = s.pace := rfl
@[simp] theorem setDrive_parked (dl : Nat) (f : DriveLink → DriveLink) (s : State) : (setDrive dl f s).parked = s.parked := rfl
@[simp] theorem setDrive_audit (dl : Nat) (f : DriveLink → DriveLink) (s : State) : (setDrive dl f s).audit = s.audit := rfl
@[simp] theorem setDrive_axes (dl : Nat) (f : DriveLink → DriveLink) (s : State) : (setDrive dl f s).axes = s.axes := rfl
@[simp] theorem setDrive_drive (dl : Nat) (f : DriveLink → DriveLink) (s : State) : (setDrive dl f s).drive = updAt s.drive dl f := rfl
@[simp] theorem setDrive_mem (dl : Nat) (f : DriveLink → DriveLink) (s : State) : (setDrive dl f s).mem = s.mem := rfl
@[simp] theorem setDrive_twin (dl : Nat) (f : DriveLink → DriveLink) (s : State) : (setDrive dl f s).twin = s.twin := rfl
@[simp] theorem setDrive_time (dl : Nat) (f : DriveLink → DriveLink) (s : State) : (setDrive dl f s).time = s.time := rfl
@[simp] theorem setDrive_eth (dl : Nat) (f : DriveLink → DriveLink) (s : State) : (setDrive dl f s).eth = s.eth := rfl
@[simp] theorem setDrive_life (dl : Nat) (f : DriveLink → DriveLink) (s : State) : (setDrive dl f s).life = s.life := rfl
@[simp] theorem setDrive_fawn (dl : Nat) (f : DriveLink → DriveLink) (s : State) : (setDrive dl f s).fawn = s.fawn := rfl
@[simp] theorem setDrive_clock (dl : Nat) (f : DriveLink → DriveLink) (s : State) : (setDrive dl f s).clock = s.clock := rfl
@[simp] theorem setDrive_free (dl : Nat) (f : DriveLink → DriveLink) (s : State) : (setDrive dl f s).free = s.free := rfl
@[simp] theorem setDrive_sent (dl : Nat) (f : DriveLink → DriveLink) (s : State) : (setDrive dl f s).sent = s.sent := rfl
@[simp] theorem setDrive_pending (dl : Nat) (f : DriveLink → DriveLink) (s : State) : (setDrive dl f s).pending = s.pending := rfl

/-! ### setPacePort -/

@[simp] theorem setPacePort_sys (p : Nat) (f : PacePort → PacePort) (s : State) : (setPacePort p f s).sys = s.sys := rfl
@[simp] theorem setPacePort_mbx (p : Nat) (f : PacePort → PacePort) (s : State) : (setPacePort p f s).mbx = s.mbx := rfl
@[simp] theorem setPacePort_evr (p : Nat) (f : PacePort → PacePort) (s : State) : (setPacePort p f s).evr = s.evr := rfl
@[simp] theorem setPacePort_win (p : Nat) (f : PacePort → PacePort) (s : State) : (setPacePort p f s).win = s.win := rfl
@[simp] theorem setPacePort_faults (p : Nat) (f : PacePort → PacePort) (s : State) : (setPacePort p f s).faults = s.faults := rfl
@[simp] theorem setPacePort_host (p : Nat) (f : PacePort → PacePort) (s : State) : (setPacePort p f s).host = s.host := rfl
@[simp] theorem setPacePort_twinLink (p : Nat) (f : PacePort → PacePort) (s : State) : (setPacePort p f s).twinLink = s.twinLink := rfl
@[simp] theorem setPacePort_cfg (p : Nat) (f : PacePort → PacePort) (s : State) : (setPacePort p f s).cfg = s.cfg := rfl
@[simp] theorem setPacePort_codec (p : Nat) (f : PacePort → PacePort) (s : State) : (setPacePort p f s).codec = s.codec := rfl
@[simp] theorem setPacePort_swath (p : Nat) (f : PacePort → PacePort) (s : State) : (setPacePort p f s).swath = s.swath := rfl
@[simp] theorem setPacePort_wave (p : Nat) (f : PacePort → PacePort) (s : State) : (setPacePort p f s).wave = s.wave := rfl
@[simp] theorem setPacePort_heads (p : Nat) (f : PacePort → PacePort) (s : State) : (setPacePort p f s).heads = s.heads := rfl
@[simp] theorem setPacePort_bar (p : Nat) (f : PacePort → PacePort) (s : State) : (setPacePort p f s).bar = s.bar := rfl
@[simp] theorem setPacePort_fbk (p : Nat) (f : PacePort → PacePort) (s : State) : (setPacePort p f s).fbk = s.fbk := rfl
@[simp] theorem setPacePort_fbo (p : Nat) (f : PacePort → PacePort) (s : State) : (setPacePort p f s).fbo = s.fbo := rfl
@[simp] theorem setPacePort_job (p : Nat) (f : PacePort → PacePort) (s : State) : (setPacePort p f s).job = s.job := rfl
@[simp] theorem setPacePort_pace (p : Nat) (f : PacePort → PacePort) (s : State) : (setPacePort p f s).pace = { s.pace with port := updAt s.pace.port p f } := rfl
@[simp] theorem setPacePort_parked (p : Nat) (f : PacePort → PacePort) (s : State) : (setPacePort p f s).parked = s.parked := rfl
@[simp] theorem setPacePort_audit (p : Nat) (f : PacePort → PacePort) (s : State) : (setPacePort p f s).audit = s.audit := rfl
@[simp] theorem setPacePort_axes (p : Nat) (f : PacePort → PacePort) (s : State) : (setPacePort p f s).axes = s.axes := rfl
@[simp] theorem setPacePort_drive (p : Nat) (f : PacePort → PacePort) (s : State) : (setPacePort p f s).drive = s.drive := rfl
@[simp] theorem setPacePort_mem (p : Nat) (f : PacePort → PacePort) (s : State) : (setPacePort p f s).mem = s.mem := rfl
@[simp] theorem setPacePort_twin (p : Nat) (f : PacePort → PacePort) (s : State) : (setPacePort p f s).twin = s.twin := rfl
@[simp] theorem setPacePort_time (p : Nat) (f : PacePort → PacePort) (s : State) : (setPacePort p f s).time = s.time := rfl
@[simp] theorem setPacePort_eth (p : Nat) (f : PacePort → PacePort) (s : State) : (setPacePort p f s).eth = s.eth := rfl
@[simp] theorem setPacePort_life (p : Nat) (f : PacePort → PacePort) (s : State) : (setPacePort p f s).life = s.life := rfl
@[simp] theorem setPacePort_fawn (p : Nat) (f : PacePort → PacePort) (s : State) : (setPacePort p f s).fawn = s.fawn := rfl
@[simp] theorem setPacePort_clock (p : Nat) (f : PacePort → PacePort) (s : State) : (setPacePort p f s).clock = s.clock := rfl
@[simp] theorem setPacePort_free (p : Nat) (f : PacePort → PacePort) (s : State) : (setPacePort p f s).free = s.free := rfl
@[simp] theorem setPacePort_sent (p : Nat) (f : PacePort → PacePort) (s : State) : (setPacePort p f s).sent = s.sent := rfl
@[simp] theorem setPacePort_pending (p : Nat) (f : PacePort → PacePort) (s : State) : (setPacePort p f s).pending = s.pending := rfl

/-! ### setDecoder -/

@[simp] theorem setDecoder_sys (d : Nat) (f : Decoder → Decoder) (s : State) : (setDecoder d f s).sys = s.sys := rfl
@[simp] theorem setDecoder_mbx (d : Nat) (f : Decoder → Decoder) (s : State) : (setDecoder d f s).mbx = s.mbx := rfl
@[simp] theorem setDecoder_evr (d : Nat) (f : Decoder → Decoder) (s : State) : (setDecoder d f s).evr = s.evr := rfl
@[simp] theorem setDecoder_win (d : Nat) (f : Decoder → Decoder) (s : State) : (setDecoder d f s).win = s.win := rfl
@[simp] theorem setDecoder_faults (d : Nat) (f : Decoder → Decoder) (s : State) : (setDecoder d f s).faults = s.faults := rfl
@[simp] theorem setDecoder_host (d : Nat) (f : Decoder → Decoder) (s : State) : (setDecoder d f s).host = s.host := rfl
@[simp] theorem setDecoder_twinLink (d : Nat) (f : Decoder → Decoder) (s : State) : (setDecoder d f s).twinLink = s.twinLink := rfl
@[simp] theorem setDecoder_cfg (d : Nat) (f : Decoder → Decoder) (s : State) : (setDecoder d f s).cfg = s.cfg := rfl
@[simp] theorem setDecoder_codec (d : Nat) (f : Decoder → Decoder) (s : State) : (setDecoder d f s).codec = { s.codec with decoders := updAt s.codec.decoders d f } := rfl
@[simp] theorem setDecoder_swath (d : Nat) (f : Decoder → Decoder) (s : State) : (setDecoder d f s).swath = s.swath := rfl
@[simp] theorem setDecoder_wave (d : Nat) (f : Decoder → Decoder) (s : State) : (setDecoder d f s).wave = s.wave := rfl
@[simp] theorem setDecoder_heads (d : Nat) (f : Decoder → Decoder) (s : State) : (setDecoder d f s).heads = s.heads := rfl
@[simp] theorem setDecoder_bar (d : Nat) (f : Decoder → Decoder) (s : State) : (setDecoder d f s).bar = s.bar := rfl
@[simp] theorem setDecoder_fbk (d : Nat) (f : Decoder → Decoder) (s : State) : (setDecoder d f s).fbk = s.fbk := rfl
@[simp] theorem setDecoder_fbo (d : Nat) (f : Decoder → Decoder) (s : State) : (setDecoder d f s).fbo = s.fbo := rfl
@[simp] theorem setDecoder_job (d : Nat) (f : Decoder → Decoder) (s : State) : (setDecoder d f s).job = s.job := rfl
@[simp] theorem setDecoder_pace (d : Nat) (f : Decoder → Decoder) (s : State) : (setDecoder d f s).pace = s.pace := rfl
@[simp] theorem setDecoder_parked (d : Nat) (f : Decoder → Decoder) (s : State) : (setDecoder d f s).parked = s.parked := rfl
@[simp] theorem setDecoder_audit (d : Nat) (f : Decoder → Decoder) (s : State) : (setDecoder d f s).audit = s.audit := rfl
@[simp] theorem setDecoder_axes (d : Nat) (f : Decoder → Decoder) (s : State) : (setDecoder d f s).axes = s.axes := rfl
@[simp] theorem setDecoder_drive (d : Nat) (f : Decoder → Decoder) (s : State) : (setDecoder d f s).drive = s.drive := rfl
@[simp] theorem setDecoder_mem (d : Nat) (f : Decoder → Decoder) (s : State) : (setDecoder d f s).mem = s.mem := rfl
@[simp] theorem setDecoder_twin (d : Nat) (f : Decoder → Decoder) (s : State) : (setDecoder d f s).twin = s.twin := rfl
@[simp] theorem setDecoder_time (d : Nat) (f : Decoder → Decoder) (s : State) : (setDecoder d f s).time = s.time := rfl
@[simp] theorem setDecoder_eth (d : Nat) (f : Decoder → Decoder) (s : State) : (setDecoder d f s).eth = s.eth := rfl
@[simp] theorem setDecoder_life (d : Nat) (f : Decoder → Decoder) (s : State) : (setDecoder d f s).life = s.life := rfl
@[simp] theorem setDecoder_fawn (d : Nat) (f : Decoder → Decoder) (s : State) : (setDecoder d f s).fawn = s.fawn := rfl
@[simp] theorem setDecoder_clock (d : Nat) (f : Decoder → Decoder) (s : State) : (setDecoder d f s).clock = s.clock := rfl
@[simp] theorem setDecoder_free (d : Nat) (f : Decoder → Decoder) (s : State) : (setDecoder d f s).free = s.free := rfl
@[simp] theorem setDecoder_sent (d : Nat) (f : Decoder → Decoder) (s : State) : (setDecoder d f s).sent = s.sent := rfl
@[simp] theorem setDecoder_pending (d : Nat) (f : Decoder → Decoder) (s : State) : (setDecoder d f s).pending = s.pending := rfl

/-! ### setLine -/

@[simp] theorem setLine_sys (p : Nat) (f : PortLine → PortLine) (s : State) : (setLine p f s).sys = s.sys := rfl
@[simp] theorem setLine_mbx (p : Nat) (f : PortLine → PortLine) (s : State) : (setLine p f s).mbx = s.mbx := rfl
@[simp] theorem setLine_evr (p : Nat) (f : PortLine → PortLine) (s : State) : (setLine p f s).evr = s.evr := rfl
@[simp] theorem setLine_win (p : Nat) (f : PortLine → PortLine) (s : State) : (setLine p f s).win = s.win := rfl
@[simp] theorem setLine_faults (p : Nat) (f : PortLine → PortLine) (s : State) : (setLine p f s).faults = s.faults := rfl
@[simp] theorem setLine_host (p : Nat) (f : PortLine → PortLine) (s : State) : (setLine p f s).host = s.host := rfl
@[simp] theorem setLine_twinLink (p : Nat) (f : PortLine → PortLine) (s : State) : (setLine p f s).twinLink = s.twinLink := rfl
@[simp] theorem setLine_cfg (p : Nat) (f : PortLine → PortLine) (s : State) : (setLine p f s).cfg = s.cfg := rfl
@[simp] theorem setLine_codec (p : Nat) (f : PortLine → PortLine) (s : State) : (setLine p f s).codec = s.codec := rfl
@[simp] theorem setLine_swath (p : Nat) (f : PortLine → PortLine) (s : State) : (setLine p f s).swath = { s.swath with line := updAt s.swath.line p f } := rfl
@[simp] theorem setLine_wave (p : Nat) (f : PortLine → PortLine) (s : State) : (setLine p f s).wave = s.wave := rfl
@[simp] theorem setLine_heads (p : Nat) (f : PortLine → PortLine) (s : State) : (setLine p f s).heads = s.heads := rfl
@[simp] theorem setLine_bar (p : Nat) (f : PortLine → PortLine) (s : State) : (setLine p f s).bar = s.bar := rfl
@[simp] theorem setLine_fbk (p : Nat) (f : PortLine → PortLine) (s : State) : (setLine p f s).fbk = s.fbk := rfl
@[simp] theorem setLine_fbo (p : Nat) (f : PortLine → PortLine) (s : State) : (setLine p f s).fbo = s.fbo := rfl
@[simp] theorem setLine_job (p : Nat) (f : PortLine → PortLine) (s : State) : (setLine p f s).job = s.job := rfl
@[simp] theorem setLine_pace (p : Nat) (f : PortLine → PortLine) (s : State) : (setLine p f s).pace = s.pace := rfl
@[simp] theorem setLine_parked (p : Nat) (f : PortLine → PortLine) (s : State) : (setLine p f s).parked = s.parked := rfl
@[simp] theorem setLine_audit (p : Nat) (f : PortLine → PortLine) (s : State) : (setLine p f s).audit = s.audit := rfl
@[simp] theorem setLine_axes (p : Nat) (f : PortLine → PortLine) (s : State) : (setLine p f s).axes = s.axes := rfl
@[simp] theorem setLine_drive (p : Nat) (f : PortLine → PortLine) (s : State) : (setLine p f s).drive = s.drive := rfl
@[simp] theorem setLine_mem (p : Nat) (f : PortLine → PortLine) (s : State) : (setLine p f s).mem = s.mem := rfl
@[simp] theorem setLine_twin (p : Nat) (f : PortLine → PortLine) (s : State) : (setLine p f s).twin = s.twin := rfl
@[simp] theorem setLine_time (p : Nat) (f : PortLine → PortLine) (s : State) : (setLine p f s).time = s.time := rfl
@[simp] theorem setLine_eth (p : Nat) (f : PortLine → PortLine) (s : State) : (setLine p f s).eth = s.eth := rfl
@[simp] theorem setLine_life (p : Nat) (f : PortLine → PortLine) (s : State) : (setLine p f s).life = s.life := rfl
@[simp] theorem setLine_fawn (p : Nat) (f : PortLine → PortLine) (s : State) : (setLine p f s).fawn = s.fawn := rfl
@[simp] theorem setLine_clock (p : Nat) (f : PortLine → PortLine) (s : State) : (setLine p f s).clock = s.clock := rfl
@[simp] theorem setLine_free (p : Nat) (f : PortLine → PortLine) (s : State) : (setLine p f s).free = s.free := rfl
@[simp] theorem setLine_sent (p : Nat) (f : PortLine → PortLine) (s : State) : (setLine p f s).sent = s.sent := rfl
@[simp] theorem setLine_pending (p : Nat) (f : PortLine → PortLine) (s : State) : (setLine p f s).pending = s.pending := rfl

/-! ### setWave -/

@[simp] theorem setWave_sys (p : Nat) (f : WavePort → WavePort) (s : State) : (setWave p f s).sys = s.sys := rfl
@[simp] theorem setWave_mbx (p : Nat) (f : WavePort → WavePort) (s : State) : (setWave p f s).mbx = s.mbx := rfl
@[simp] theorem setWave_evr (p : Nat) (f : WavePort → WavePort) (s : State) : (setWave p f s).evr = s.evr := rfl
@[simp] theorem setWave_win (p : Nat) (f : WavePort → WavePort) (s : State) : (setWave p f s).win = s.win := rfl
@[simp] theorem setWave_faults (p : Nat) (f : WavePort → WavePort) (s : State) : (setWave p f s).faults = s.faults := rfl
@[simp] theorem setWave_host (p : Nat) (f : WavePort → WavePort) (s : State) : (setWave p f s).host = s.host := rfl
@[simp] theorem setWave_twinLink (p : Nat) (f : WavePort → WavePort) (s : State) : (setWave p f s).twinLink = s.twinLink := rfl
@[simp] theorem setWave_cfg (p : Nat) (f : WavePort → WavePort) (s : State) : (setWave p f s).cfg = s.cfg := rfl
@[simp] theorem setWave_codec (p : Nat) (f : WavePort → WavePort) (s : State) : (setWave p f s).codec = s.codec := rfl
@[simp] theorem setWave_swath (p : Nat) (f : WavePort → WavePort) (s : State) : (setWave p f s).swath = s.swath := rfl
@[simp] theorem setWave_wave (p : Nat) (f : WavePort → WavePort) (s : State) : (setWave p f s).wave = updAt s.wave p f := rfl
@[simp] theorem setWave_heads (p : Nat) (f : WavePort → WavePort) (s : State) : (setWave p f s).heads = s.heads := rfl
@[simp] theorem setWave_bar (p : Nat) (f : WavePort → WavePort) (s : State) : (setWave p f s).bar = s.bar := rfl
@[simp] theorem setWave_fbk (p : Nat) (f : WavePort → WavePort) (s : State) : (setWave p f s).fbk = s.fbk := rfl
@[simp] theorem setWave_fbo (p : Nat) (f : WavePort → WavePort) (s : State) : (setWave p f s).fbo = s.fbo := rfl
@[simp] theorem setWave_job (p : Nat) (f : WavePort → WavePort) (s : State) : (setWave p f s).job = s.job := rfl
@[simp] theorem setWave_pace (p : Nat) (f : WavePort → WavePort) (s : State) : (setWave p f s).pace = s.pace := rfl
@[simp] theorem setWave_parked (p : Nat) (f : WavePort → WavePort) (s : State) : (setWave p f s).parked = s.parked := rfl
@[simp] theorem setWave_audit (p : Nat) (f : WavePort → WavePort) (s : State) : (setWave p f s).audit = s.audit := rfl
@[simp] theorem setWave_axes (p : Nat) (f : WavePort → WavePort) (s : State) : (setWave p f s).axes = s.axes := rfl
@[simp] theorem setWave_drive (p : Nat) (f : WavePort → WavePort) (s : State) : (setWave p f s).drive = s.drive := rfl
@[simp] theorem setWave_mem (p : Nat) (f : WavePort → WavePort) (s : State) : (setWave p f s).mem = s.mem := rfl
@[simp] theorem setWave_twin (p : Nat) (f : WavePort → WavePort) (s : State) : (setWave p f s).twin = s.twin := rfl
@[simp] theorem setWave_time (p : Nat) (f : WavePort → WavePort) (s : State) : (setWave p f s).time = s.time := rfl
@[simp] theorem setWave_eth (p : Nat) (f : WavePort → WavePort) (s : State) : (setWave p f s).eth = s.eth := rfl
@[simp] theorem setWave_life (p : Nat) (f : WavePort → WavePort) (s : State) : (setWave p f s).life = s.life := rfl
@[simp] theorem setWave_fawn (p : Nat) (f : WavePort → WavePort) (s : State) : (setWave p f s).fawn = s.fawn := rfl
@[simp] theorem setWave_clock (p : Nat) (f : WavePort → WavePort) (s : State) : (setWave p f s).clock = s.clock := rfl
@[simp] theorem setWave_free (p : Nat) (f : WavePort → WavePort) (s : State) : (setWave p f s).free = s.free := rfl
@[simp] theorem setWave_sent (p : Nat) (f : WavePort → WavePort) (s : State) : (setWave p f s).sent = s.sent := rfl
@[simp] theorem setWave_pending (p : Nat) (f : WavePort → WavePort) (s : State) : (setWave p f s).pending = s.pending := rfl

/-! ### setGrey -/

@[simp] theorem setGrey_sys (p : Nat) (f : GreyPair → GreyPair) (s : State) : (setGrey p f s).sys = s.sys := rfl
@[simp] theorem setGrey_mbx (p : Nat) (f : GreyPair → GreyPair) (s : State) : (setGrey p f s).mbx = s.mbx := rfl
@[simp] theorem setGrey_evr (p : Nat) (f : GreyPair → GreyPair) (s : State) : (setGrey p f s).evr = s.evr := rfl
@[simp] theorem setGrey_win (p : Nat) (f : GreyPair → GreyPair) (s : State) : (setGrey p f s).win = s.win := rfl
@[simp] theorem setGrey_faults (p : Nat) (f : GreyPair → GreyPair) (s : State) : (setGrey p f s).faults = s.faults := rfl
@[simp] theorem setGrey_host (p : Nat) (f : GreyPair → GreyPair) (s : State) : (setGrey p f s).host = s.host := rfl
@[simp] theorem setGrey_twinLink (p : Nat) (f : GreyPair → GreyPair) (s : State) : (setGrey p f s).twinLink = s.twinLink := rfl
@[simp] theorem setGrey_cfg (p : Nat) (f : GreyPair → GreyPair) (s : State) : (setGrey p f s).cfg = s.cfg := rfl
@[simp] theorem setGrey_codec (p : Nat) (f : GreyPair → GreyPair) (s : State) : (setGrey p f s).codec = s.codec := rfl
@[simp] theorem setGrey_swath (p : Nat) (f : GreyPair → GreyPair) (s : State) : (setGrey p f s).swath = { s.swath with grey := updAt s.swath.grey p f } := rfl
@[simp] theorem setGrey_wave (p : Nat) (f : GreyPair → GreyPair) (s : State) : (setGrey p f s).wave = s.wave := rfl
@[simp] theorem setGrey_heads (p : Nat) (f : GreyPair → GreyPair) (s : State) : (setGrey p f s).heads = s.heads := rfl
@[simp] theorem setGrey_bar (p : Nat) (f : GreyPair → GreyPair) (s : State) : (setGrey p f s).bar = s.bar := rfl
@[simp] theorem setGrey_fbk (p : Nat) (f : GreyPair → GreyPair) (s : State) : (setGrey p f s).fbk = s.fbk := rfl
@[simp] theorem setGrey_fbo (p : Nat) (f : GreyPair → GreyPair) (s : State) : (setGrey p f s).fbo = s.fbo := rfl
@[simp] theorem setGrey_job (p : Nat) (f : GreyPair → GreyPair) (s : State) : (setGrey p f s).job = s.job := rfl
@[simp] theorem setGrey_pace (p : Nat) (f : GreyPair → GreyPair) (s : State) : (setGrey p f s).pace = s.pace := rfl
@[simp] theorem setGrey_parked (p : Nat) (f : GreyPair → GreyPair) (s : State) : (setGrey p f s).parked = s.parked := rfl
@[simp] theorem setGrey_audit (p : Nat) (f : GreyPair → GreyPair) (s : State) : (setGrey p f s).audit = s.audit := rfl
@[simp] theorem setGrey_axes (p : Nat) (f : GreyPair → GreyPair) (s : State) : (setGrey p f s).axes = s.axes := rfl
@[simp] theorem setGrey_drive (p : Nat) (f : GreyPair → GreyPair) (s : State) : (setGrey p f s).drive = s.drive := rfl
@[simp] theorem setGrey_mem (p : Nat) (f : GreyPair → GreyPair) (s : State) : (setGrey p f s).mem = s.mem := rfl
@[simp] theorem setGrey_twin (p : Nat) (f : GreyPair → GreyPair) (s : State) : (setGrey p f s).twin = s.twin := rfl
@[simp] theorem setGrey_time (p : Nat) (f : GreyPair → GreyPair) (s : State) : (setGrey p f s).time = s.time := rfl
@[simp] theorem setGrey_eth (p : Nat) (f : GreyPair → GreyPair) (s : State) : (setGrey p f s).eth = s.eth := rfl
@[simp] theorem setGrey_life (p : Nat) (f : GreyPair → GreyPair) (s : State) : (setGrey p f s).life = s.life := rfl
@[simp] theorem setGrey_fawn (p : Nat) (f : GreyPair → GreyPair) (s : State) : (setGrey p f s).fawn = s.fawn := rfl
@[simp] theorem setGrey_clock (p : Nat) (f : GreyPair → GreyPair) (s : State) : (setGrey p f s).clock = s.clock := rfl
@[simp] theorem setGrey_free (p : Nat) (f : GreyPair → GreyPair) (s : State) : (setGrey p f s).free = s.free := rfl
@[simp] theorem setGrey_sent (p : Nat) (f : GreyPair → GreyPair) (s : State) : (setGrey p f s).sent = s.sent := rfl
@[simp] theorem setGrey_pending (p : Nat) (f : GreyPair → GreyPair) (s : State) : (setGrey p f s).pending = s.pending := rfl

/-! ### setAxis -/

@[simp] theorem setAxis_sys (a : Nat) (f : Axis → Axis) (s : State) : (setAxis a f s).sys = s.sys := rfl
@[simp] theorem setAxis_mbx (a : Nat) (f : Axis → Axis) (s : State) : (setAxis a f s).mbx = s.mbx := rfl
@[simp] theorem setAxis_evr (a : Nat) (f : Axis → Axis) (s : State) : (setAxis a f s).evr = s.evr := rfl
@[simp] theorem setAxis_win (a : Nat) (f : Axis → Axis) (s : State) : (setAxis a f s).win = s.win := rfl
@[simp] theorem setAxis_faults (a : Nat) (f : Axis → Axis) (s : State) : (setAxis a f s).faults = s.faults := rfl
@[simp] theorem setAxis_host (a : Nat) (f : Axis → Axis) (s : State) : (setAxis a f s).host = s.host := rfl
@[simp] theorem setAxis_twinLink (a : Nat) (f : Axis → Axis) (s : State) : (setAxis a f s).twinLink = s.twinLink := rfl
@[simp] theorem setAxis_cfg (a : Nat) (f : Axis → Axis) (s : State) : (setAxis a f s).cfg = s.cfg := rfl
@[simp] theorem setAxis_codec (a : Nat) (f : Axis → Axis) (s : State) : (setAxis a f s).codec = s.codec := rfl
@[simp] theorem setAxis_swath (a : Nat) (f : Axis → Axis) (s : State) : (setAxis a f s).swath = s.swath := rfl
@[simp] theorem setAxis_wave (a : Nat) (f : Axis → Axis) (s : State) : (setAxis a f s).wave = s.wave := rfl
@[simp] theorem setAxis_heads (a : Nat) (f : Axis → Axis) (s : State) : (setAxis a f s).heads = s.heads := rfl
@[simp] theorem setAxis_bar (a : Nat) (f : Axis → Axis) (s : State) : (setAxis a f s).bar = s.bar := rfl
@[simp] theorem setAxis_fbk (a : Nat) (f : Axis → Axis) (s : State) : (setAxis a f s).fbk = s.fbk := rfl
@[simp] theorem setAxis_fbo (a : Nat) (f : Axis → Axis) (s : State) : (setAxis a f s).fbo = s.fbo := rfl
@[simp] theorem setAxis_job (a : Nat) (f : Axis → Axis) (s : State) : (setAxis a f s).job = s.job := rfl
@[simp] theorem setAxis_pace (a : Nat) (f : Axis → Axis) (s : State) : (setAxis a f s).pace = s.pace := rfl
@[simp] theorem setAxis_parked (a : Nat) (f : Axis → Axis) (s : State) : (setAxis a f s).parked = s.parked := rfl
@[simp] theorem setAxis_audit (a : Nat) (f : Axis → Axis) (s : State) : (setAxis a f s).audit = s.audit := rfl
@[simp] theorem setAxis_axes (a : Nat) (f : Axis → Axis) (s : State) : (setAxis a f s).axes = updAt s.axes a f := rfl
@[simp] theorem setAxis_drive (a : Nat) (f : Axis → Axis) (s : State) : (setAxis a f s).drive = s.drive := rfl
@[simp] theorem setAxis_mem (a : Nat) (f : Axis → Axis) (s : State) : (setAxis a f s).mem = s.mem := rfl
@[simp] theorem setAxis_twin (a : Nat) (f : Axis → Axis) (s : State) : (setAxis a f s).twin = s.twin := rfl
@[simp] theorem setAxis_time (a : Nat) (f : Axis → Axis) (s : State) : (setAxis a f s).time = s.time := rfl
@[simp] theorem setAxis_eth (a : Nat) (f : Axis → Axis) (s : State) : (setAxis a f s).eth = s.eth := rfl
@[simp] theorem setAxis_life (a : Nat) (f : Axis → Axis) (s : State) : (setAxis a f s).life = s.life := rfl
@[simp] theorem setAxis_fawn (a : Nat) (f : Axis → Axis) (s : State) : (setAxis a f s).fawn = s.fawn := rfl
@[simp] theorem setAxis_clock (a : Nat) (f : Axis → Axis) (s : State) : (setAxis a f s).clock = s.clock := rfl
@[simp] theorem setAxis_free (a : Nat) (f : Axis → Axis) (s : State) : (setAxis a f s).free = s.free := rfl
@[simp] theorem setAxis_sent (a : Nat) (f : Axis → Axis) (s : State) : (setAxis a f s).sent = s.sent := rfl
@[simp] theorem setAxis_pending (a : Nat) (f : Axis → Axis) (s : State) : (setAxis a f s).pending = s.pending := rfl

/-! ### noteRecord -/

@[simp] theorem noteRecord_sys (i : Nat) (f : LaneHist → LaneHist) (s : State) : (noteRecord i f s).sys = s.sys := rfl
@[simp] theorem noteRecord_mbx (i : Nat) (f : LaneHist → LaneHist) (s : State) : (noteRecord i f s).mbx = s.mbx := rfl
@[simp] theorem noteRecord_evr (i : Nat) (f : LaneHist → LaneHist) (s : State) : (noteRecord i f s).evr = s.evr := rfl
@[simp] theorem noteRecord_win (i : Nat) (f : LaneHist → LaneHist) (s : State) : (noteRecord i f s).win = s.win := rfl
@[simp] theorem noteRecord_faults (i : Nat) (f : LaneHist → LaneHist) (s : State) : (noteRecord i f s).faults = s.faults := rfl
@[simp] theorem noteRecord_host (i : Nat) (f : LaneHist → LaneHist) (s : State) : (noteRecord i f s).host = s.host := rfl
@[simp] theorem noteRecord_twinLink (i : Nat) (f : LaneHist → LaneHist) (s : State) : (noteRecord i f s).twinLink = s.twinLink := rfl
@[simp] theorem noteRecord_cfg (i : Nat) (f : LaneHist → LaneHist) (s : State) : (noteRecord i f s).cfg = s.cfg := rfl
@[simp] theorem noteRecord_codec (i : Nat) (f : LaneHist → LaneHist) (s : State) : (noteRecord i f s).codec = s.codec := rfl
@[simp] theorem noteRecord_swath (i : Nat) (f : LaneHist → LaneHist) (s : State) : (noteRecord i f s).swath = s.swath := rfl
@[simp] theorem noteRecord_wave (i : Nat) (f : LaneHist → LaneHist) (s : State) : (noteRecord i f s).wave = s.wave := rfl
@[simp] theorem noteRecord_heads (i : Nat) (f : LaneHist → LaneHist) (s : State) : (noteRecord i f s).heads = s.heads := rfl
@[simp] theorem noteRecord_bar (i : Nat) (f : LaneHist → LaneHist) (s : State) : (noteRecord i f s).bar = s.bar := rfl
@[simp] theorem noteRecord_fbk (i : Nat) (f : LaneHist → LaneHist) (s : State) : (noteRecord i f s).fbk = s.fbk := rfl
@[simp] theorem noteRecord_fbo (i : Nat) (f : LaneHist → LaneHist) (s : State) : (noteRecord i f s).fbo = s.fbo := rfl
@[simp] theorem noteRecord_job (i : Nat) (f : LaneHist → LaneHist) (s : State) : (noteRecord i f s).job = s.job := rfl
@[simp] theorem noteRecord_pace (i : Nat) (f : LaneHist → LaneHist) (s : State) : (noteRecord i f s).pace = s.pace := rfl
@[simp] theorem noteRecord_parked (i : Nat) (f : LaneHist → LaneHist) (s : State) : (noteRecord i f s).parked = s.parked := rfl
@[simp] theorem noteRecord_audit (i : Nat) (f : LaneHist → LaneHist) (s : State) : (noteRecord i f s).audit = s.audit := rfl
@[simp] theorem noteRecord_axes (i : Nat) (f : LaneHist → LaneHist) (s : State) : (noteRecord i f s).axes = s.axes := rfl
@[simp] theorem noteRecord_drive (i : Nat) (f : LaneHist → LaneHist) (s : State) : (noteRecord i f s).drive = s.drive := rfl
@[simp] theorem noteRecord_mem (i : Nat) (f : LaneHist → LaneHist) (s : State) : (noteRecord i f s).mem = s.mem := rfl
@[simp] theorem noteRecord_twin (i : Nat) (f : LaneHist → LaneHist) (s : State) : (noteRecord i f s).twin = s.twin := rfl
@[simp] theorem noteRecord_time (i : Nat) (f : LaneHist → LaneHist) (s : State) : (noteRecord i f s).time = s.time := rfl
@[simp] theorem noteRecord_eth (i : Nat) (f : LaneHist → LaneHist) (s : State) : (noteRecord i f s).eth = s.eth := rfl
@[simp] theorem noteRecord_life (i : Nat) (f : LaneHist → LaneHist) (s : State) : (noteRecord i f s).life = { s.life with lanes := updAt s.life.lanes i f } := rfl
@[simp] theorem noteRecord_fawn (i : Nat) (f : LaneHist → LaneHist) (s : State) : (noteRecord i f s).fawn = s.fawn := rfl
@[simp] theorem noteRecord_clock (i : Nat) (f : LaneHist → LaneHist) (s : State) : (noteRecord i f s).clock = s.clock := rfl
@[simp] theorem noteRecord_free (i : Nat) (f : LaneHist → LaneHist) (s : State) : (noteRecord i f s).free = s.free := rfl
@[simp] theorem noteRecord_sent (i : Nat) (f : LaneHist → LaneHist) (s : State) : (noteRecord i f s).sent = s.sent := rfl
@[simp] theorem noteRecord_pending (i : Nat) (f : LaneHist → LaneHist) (s : State) : (noteRecord i f s).pending = s.pending := rfl

/-! ### mramPut -/

@[simp] theorem mramPut_sys (off : Nat) (bs : List Byte) (s : State) : (mramPut off bs s).sys = s.sys := rfl
@[simp] theorem mramPut_mbx (off : Nat) (bs : List Byte) (s : State) : (mramPut off bs s).mbx = s.mbx := rfl
@[simp] theorem mramPut_evr (off : Nat) (bs : List Byte) (s : State) : (mramPut off bs s).evr = s.evr := rfl
@[simp] theorem mramPut_win (off : Nat) (bs : List Byte) (s : State) : (mramPut off bs s).win = s.win := rfl
@[simp] theorem mramPut_faults (off : Nat) (bs : List Byte) (s : State) : (mramPut off bs s).faults = s.faults := rfl
@[simp] theorem mramPut_host (off : Nat) (bs : List Byte) (s : State) : (mramPut off bs s).host = s.host := rfl
@[simp] theorem mramPut_twinLink (off : Nat) (bs : List Byte) (s : State) : (mramPut off bs s).twinLink = s.twinLink := rfl
@[simp] theorem mramPut_cfg (off : Nat) (bs : List Byte) (s : State) : (mramPut off bs s).cfg = s.cfg := rfl
@[simp] theorem mramPut_codec (off : Nat) (bs : List Byte) (s : State) : (mramPut off bs s).codec = s.codec := rfl
@[simp] theorem mramPut_swath (off : Nat) (bs : List Byte) (s : State) : (mramPut off bs s).swath = s.swath := rfl
@[simp] theorem mramPut_wave (off : Nat) (bs : List Byte) (s : State) : (mramPut off bs s).wave = s.wave := rfl
@[simp] theorem mramPut_heads (off : Nat) (bs : List Byte) (s : State) : (mramPut off bs s).heads = s.heads := rfl
@[simp] theorem mramPut_bar (off : Nat) (bs : List Byte) (s : State) : (mramPut off bs s).bar = s.bar := rfl
@[simp] theorem mramPut_fbk (off : Nat) (bs : List Byte) (s : State) : (mramPut off bs s).fbk = s.fbk := rfl
@[simp] theorem mramPut_fbo (off : Nat) (bs : List Byte) (s : State) : (mramPut off bs s).fbo = s.fbo := rfl
@[simp] theorem mramPut_job (off : Nat) (bs : List Byte) (s : State) : (mramPut off bs s).job = s.job := rfl
@[simp] theorem mramPut_pace (off : Nat) (bs : List Byte) (s : State) : (mramPut off bs s).pace = s.pace := rfl
@[simp] theorem mramPut_parked (off : Nat) (bs : List Byte) (s : State) : (mramPut off bs s).parked = s.parked := rfl
@[simp] theorem mramPut_audit (off : Nat) (bs : List Byte) (s : State) : (mramPut off bs s).audit = s.audit := rfl
@[simp] theorem mramPut_axes (off : Nat) (bs : List Byte) (s : State) : (mramPut off bs s).axes = s.axes := rfl
@[simp] theorem mramPut_drive (off : Nat) (bs : List Byte) (s : State) : (mramPut off bs s).drive = s.drive := rfl
@[simp] theorem mramPut_mem (off : Nat) (bs : List Byte) (s : State) : (mramPut off bs s).mem = s.mem := rfl
@[simp] theorem mramPut_twin (off : Nat) (bs : List Byte) (s : State) : (mramPut off bs s).twin = s.twin := rfl
@[simp] theorem mramPut_time (off : Nat) (bs : List Byte) (s : State) : (mramPut off bs s).time = s.time := rfl
@[simp] theorem mramPut_eth (off : Nat) (bs : List Byte) (s : State) : (mramPut off bs s).eth = s.eth := rfl
@[simp] theorem mramPut_life (off : Nat) (bs : List Byte) (s : State) : (mramPut off bs s).life = { s.life with due := s.life.due ++ noteWeak off bs.length s, nv := { s.life.nv with mram := Mem.writeN s.life.nv.mram off bs, synd := SMap.clear s.life.nv.synd (off / 8) ((off + bs.length + 7) / 8) } } := rfl
@[simp] theorem mramPut_fawn (off : Nat) (bs : List Byte) (s : State) : (mramPut off bs s).fawn = s.fawn := rfl
@[simp] theorem mramPut_clock (off : Nat) (bs : List Byte) (s : State) : (mramPut off bs s).clock = s.clock := rfl
@[simp] theorem mramPut_free (off : Nat) (bs : List Byte) (s : State) : (mramPut off bs s).free = s.free := rfl
@[simp] theorem mramPut_sent (off : Nat) (bs : List Byte) (s : State) : (mramPut off bs s).sent = s.sent := rfl
@[simp] theorem mramPut_pending (off : Nat) (bs : List Byte) (s : State) : (mramPut off bs s).pending = s.pending := rfl

/-! ### setRec -/

@[simp] theorem setRec_sys (r : FaultRec) (s : State) : (setRec r s).sys = s.sys := rfl
@[simp] theorem setRec_mbx (r : FaultRec) (s : State) : (setRec r s).mbx = s.mbx := rfl
@[simp] theorem setRec_evr (r : FaultRec) (s : State) : (setRec r s).evr = s.evr := rfl
@[simp] theorem setRec_win (r : FaultRec) (s : State) : (setRec r s).win = s.win := rfl
@[simp] theorem setRec_host (r : FaultRec) (s : State) : (setRec r s).host = s.host := rfl
@[simp] theorem setRec_twinLink (r : FaultRec) (s : State) : (setRec r s).twinLink = s.twinLink := rfl
@[simp] theorem setRec_cfg (r : FaultRec) (s : State) : (setRec r s).cfg = s.cfg := rfl
@[simp] theorem setRec_codec (r : FaultRec) (s : State) : (setRec r s).codec = s.codec := rfl
@[simp] theorem setRec_swath (r : FaultRec) (s : State) : (setRec r s).swath = s.swath := rfl
@[simp] theorem setRec_wave (r : FaultRec) (s : State) : (setRec r s).wave = s.wave := rfl
@[simp] theorem setRec_heads (r : FaultRec) (s : State) : (setRec r s).heads = s.heads := rfl
@[simp] theorem setRec_bar (r : FaultRec) (s : State) : (setRec r s).bar = s.bar := rfl
@[simp] theorem setRec_fbk (r : FaultRec) (s : State) : (setRec r s).fbk = s.fbk := rfl
@[simp] theorem setRec_fbo (r : FaultRec) (s : State) : (setRec r s).fbo = s.fbo := rfl
@[simp] theorem setRec_job (r : FaultRec) (s : State) : (setRec r s).job = s.job := rfl
@[simp] theorem setRec_pace (r : FaultRec) (s : State) : (setRec r s).pace = s.pace := rfl
@[simp] theorem setRec_parked (r : FaultRec) (s : State) : (setRec r s).parked = s.parked := rfl
@[simp] theorem setRec_audit (r : FaultRec) (s : State) : (setRec r s).audit = s.audit := rfl
@[simp] theorem setRec_axes (r : FaultRec) (s : State) : (setRec r s).axes = s.axes := rfl
@[simp] theorem setRec_drive (r : FaultRec) (s : State) : (setRec r s).drive = s.drive := rfl
@[simp] theorem setRec_mem (r : FaultRec) (s : State) : (setRec r s).mem = s.mem := rfl
@[simp] theorem setRec_twin (r : FaultRec) (s : State) : (setRec r s).twin = s.twin := rfl
@[simp] theorem setRec_time (r : FaultRec) (s : State) : (setRec r s).time = s.time := rfl
@[simp] theorem setRec_eth (r : FaultRec) (s : State) : (setRec r s).eth = s.eth := rfl
@[simp] theorem setRec_life (r : FaultRec) (s : State) : (setRec r s).life = s.life := rfl
@[simp] theorem setRec_fawn (r : FaultRec) (s : State) : (setRec r s).fawn = s.fawn := rfl
@[simp] theorem setRec_clock (r : FaultRec) (s : State) : (setRec r s).clock = s.clock := rfl
@[simp] theorem setRec_free (r : FaultRec) (s : State) : (setRec r s).free = s.free := rfl
@[simp] theorem setRec_sent (r : FaultRec) (s : State) : (setRec r s).sent = s.sent := rfl
@[simp] theorem setRec_pending (r : FaultRec) (s : State) : (setRec r s).pending = s.pending := rfl

/-! ### setWord -/

@[simp] theorem setWord_sys (addr d : Nat) (s : State) : (setWord addr d s).sys = s.sys := rfl
@[simp] theorem setWord_mbx (addr d : Nat) (s : State) : (setWord addr d s).mbx = s.mbx := rfl
@[simp] theorem setWord_evr (addr d : Nat) (s : State) : (setWord addr d s).evr = s.evr := rfl
@[simp] theorem setWord_win (addr d : Nat) (s : State) : (setWord addr d s).win = s.win := rfl
@[simp] theorem setWord_faults (addr d : Nat) (s : State) : (setWord addr d s).faults = s.faults := rfl
@[simp] theorem setWord_host (addr d : Nat) (s : State) : (setWord addr d s).host = s.host := rfl
@[simp] theorem setWord_twinLink (addr d : Nat) (s : State) : (setWord addr d s).twinLink = s.twinLink := rfl
@[simp] theorem setWord_cfg (addr d : Nat) (s : State) : (setWord addr d s).cfg = s.cfg := rfl
@[simp] theorem setWord_codec (addr d : Nat) (s : State) : (setWord addr d s).codec = s.codec := rfl
@[simp] theorem setWord_swath (addr d : Nat) (s : State) : (setWord addr d s).swath = s.swath := rfl
@[simp] theorem setWord_wave (addr d : Nat) (s : State) : (setWord addr d s).wave = s.wave := rfl
@[simp] theorem setWord_heads (addr d : Nat) (s : State) : (setWord addr d s).heads = s.heads := rfl
@[simp] theorem setWord_bar (addr d : Nat) (s : State) : (setWord addr d s).bar = s.bar := rfl
@[simp] theorem setWord_fbk (addr d : Nat) (s : State) : (setWord addr d s).fbk = s.fbk := rfl
@[simp] theorem setWord_fbo (addr d : Nat) (s : State) : (setWord addr d s).fbo = s.fbo := rfl
@[simp] theorem setWord_job (addr d : Nat) (s : State) : (setWord addr d s).job = s.job := rfl
@[simp] theorem setWord_pace (addr d : Nat) (s : State) : (setWord addr d s).pace = s.pace := rfl
@[simp] theorem setWord_parked (addr d : Nat) (s : State) : (setWord addr d s).parked = s.parked := rfl
@[simp] theorem setWord_audit (addr d : Nat) (s : State) : (setWord addr d s).audit = s.audit := rfl
@[simp] theorem setWord_axes (addr d : Nat) (s : State) : (setWord addr d s).axes = s.axes := rfl
@[simp] theorem setWord_drive (addr d : Nat) (s : State) : (setWord addr d s).drive = s.drive := rfl
@[simp] theorem setWord_mem (addr d : Nat) (s : State) : (setWord addr d s).mem = { s.mem with ondieData := (addr, d) :: s.mem.ondieData.filter fun e => e.1 != addr } := rfl
@[simp] theorem setWord_twin (addr d : Nat) (s : State) : (setWord addr d s).twin = s.twin := rfl
@[simp] theorem setWord_time (addr d : Nat) (s : State) : (setWord addr d s).time = s.time := rfl
@[simp] theorem setWord_eth (addr d : Nat) (s : State) : (setWord addr d s).eth = s.eth := rfl
@[simp] theorem setWord_life (addr d : Nat) (s : State) : (setWord addr d s).life = s.life := rfl
@[simp] theorem setWord_fawn (addr d : Nat) (s : State) : (setWord addr d s).fawn = s.fawn := rfl
@[simp] theorem setWord_clock (addr d : Nat) (s : State) : (setWord addr d s).clock = s.clock := rfl
@[simp] theorem setWord_free (addr d : Nat) (s : State) : (setWord addr d s).free = s.free := rfl
@[simp] theorem setWord_sent (addr d : Nat) (s : State) : (setWord addr d s).sent = s.sent := rfl
@[simp] theorem setWord_pending (addr d : Nat) (s : State) : (setWord addr d s).pending = s.pending := rfl

/-! ### flipWord -/

@[simp] theorem flipWord_sys (addr x : Nat) (s : State) : (flipWord addr x s).sys = s.sys := rfl
@[simp] theorem flipWord_mbx (addr x : Nat) (s : State) : (flipWord addr x s).mbx = s.mbx := rfl
@[simp] theorem flipWord_evr (addr x : Nat) (s : State) : (flipWord addr x s).evr = s.evr := rfl
@[simp] theorem flipWord_win (addr x : Nat) (s : State) : (flipWord addr x s).win = s.win := rfl
@[simp] theorem flipWord_faults (addr x : Nat) (s : State) : (flipWord addr x s).faults = s.faults := rfl
@[simp] theorem flipWord_host (addr x : Nat) (s : State) : (flipWord addr x s).host = s.host := rfl
@[simp] theorem flipWord_twinLink (addr x : Nat) (s : State) : (flipWord addr x s).twinLink = s.twinLink := rfl
@[simp] theorem flipWord_cfg (addr x : Nat) (s : State) : (flipWord addr x s).cfg = s.cfg := rfl
@[simp] theorem flipWord_codec (addr x : Nat) (s : State) : (flipWord addr x s).codec = s.codec := rfl
@[simp] theorem flipWord_swath (addr x : Nat) (s : State) : (flipWord addr x s).swath = s.swath := rfl
@[simp] theorem flipWord_wave (addr x : Nat) (s : State) : (flipWord addr x s).wave = s.wave := rfl
@[simp] theorem flipWord_heads (addr x : Nat) (s : State) : (flipWord addr x s).heads = s.heads := rfl
@[simp] theorem flipWord_bar (addr x : Nat) (s : State) : (flipWord addr x s).bar = s.bar := rfl
@[simp] theorem flipWord_fbk (addr x : Nat) (s : State) : (flipWord addr x s).fbk = s.fbk := rfl
@[simp] theorem flipWord_fbo (addr x : Nat) (s : State) : (flipWord addr x s).fbo = s.fbo := rfl
@[simp] theorem flipWord_job (addr x : Nat) (s : State) : (flipWord addr x s).job = s.job := rfl
@[simp] theorem flipWord_pace (addr x : Nat) (s : State) : (flipWord addr x s).pace = s.pace := rfl
@[simp] theorem flipWord_parked (addr x : Nat) (s : State) : (flipWord addr x s).parked = s.parked := rfl
@[simp] theorem flipWord_audit (addr x : Nat) (s : State) : (flipWord addr x s).audit = s.audit := rfl
@[simp] theorem flipWord_axes (addr x : Nat) (s : State) : (flipWord addr x s).axes = s.axes := rfl
@[simp] theorem flipWord_drive (addr x : Nat) (s : State) : (flipWord addr x s).drive = s.drive := rfl
@[simp] theorem flipWord_mem (addr x : Nat) (s : State) : (flipWord addr x s).mem = { s.mem with ondieData := s.mem.ondieData.map fun e => if e.1 = addr then (e.1, e.2 ^^^ x) else e } := rfl
@[simp] theorem flipWord_twin (addr x : Nat) (s : State) : (flipWord addr x s).twin = s.twin := rfl
@[simp] theorem flipWord_time (addr x : Nat) (s : State) : (flipWord addr x s).time = s.time := rfl
@[simp] theorem flipWord_eth (addr x : Nat) (s : State) : (flipWord addr x s).eth = s.eth := rfl
@[simp] theorem flipWord_life (addr x : Nat) (s : State) : (flipWord addr x s).life = s.life := rfl
@[simp] theorem flipWord_fawn (addr x : Nat) (s : State) : (flipWord addr x s).fawn = s.fawn := rfl
@[simp] theorem flipWord_clock (addr x : Nat) (s : State) : (flipWord addr x s).clock = s.clock := rfl
@[simp] theorem flipWord_free (addr x : Nat) (s : State) : (flipWord addr x s).free = s.free := rfl
@[simp] theorem flipWord_sent (addr x : Nat) (s : State) : (flipWord addr x s).sent = s.sent := rfl
@[simp] theorem flipWord_pending (addr x : Nat) (s : State) : (flipWord addr x s).pending = s.pending := rfl

/-! ### poisonWord -/

@[simp] theorem poisonWord_sys (addr : Nat) (s : State) : (poisonWord addr s).sys = s.sys := rfl
@[simp] theorem poisonWord_mbx (addr : Nat) (s : State) : (poisonWord addr s).mbx = s.mbx := rfl
@[simp] theorem poisonWord_evr (addr : Nat) (s : State) : (poisonWord addr s).evr = s.evr := rfl
@[simp] theorem poisonWord_win (addr : Nat) (s : State) : (poisonWord addr s).win = s.win := rfl
@[simp] theorem poisonWord_faults (addr : Nat) (s : State) : (poisonWord addr s).faults = s.faults := rfl
@[simp] theorem poisonWord_host (addr : Nat) (s : State) : (poisonWord addr s).host = s.host := rfl
@[simp] theorem poisonWord_twinLink (addr : Nat) (s : State) : (poisonWord addr s).twinLink = s.twinLink := rfl
@[simp] theorem poisonWord_cfg (addr : Nat) (s : State) : (poisonWord addr s).cfg = s.cfg := rfl
@[simp] theorem poisonWord_codec (addr : Nat) (s : State) : (poisonWord addr s).codec = s.codec := rfl
@[simp] theorem poisonWord_swath (addr : Nat) (s : State) : (poisonWord addr s).swath = s.swath := rfl
@[simp] theorem poisonWord_wave (addr : Nat) (s : State) : (poisonWord addr s).wave = s.wave := rfl
@[simp] theorem poisonWord_heads (addr : Nat) (s : State) : (poisonWord addr s).heads = s.heads := rfl
@[simp] theorem poisonWord_bar (addr : Nat) (s : State) : (poisonWord addr s).bar = s.bar := rfl
@[simp] theorem poisonWord_fbk (addr : Nat) (s : State) : (poisonWord addr s).fbk = s.fbk := rfl
@[simp] theorem poisonWord_fbo (addr : Nat) (s : State) : (poisonWord addr s).fbo = s.fbo := rfl
@[simp] theorem poisonWord_job (addr : Nat) (s : State) : (poisonWord addr s).job = s.job := rfl
@[simp] theorem poisonWord_pace (addr : Nat) (s : State) : (poisonWord addr s).pace = s.pace := rfl
@[simp] theorem poisonWord_parked (addr : Nat) (s : State) : (poisonWord addr s).parked = s.parked := rfl
@[simp] theorem poisonWord_audit (addr : Nat) (s : State) : (poisonWord addr s).audit = s.audit := rfl
@[simp] theorem poisonWord_axes (addr : Nat) (s : State) : (poisonWord addr s).axes = s.axes := rfl
@[simp] theorem poisonWord_drive (addr : Nat) (s : State) : (poisonWord addr s).drive = s.drive := rfl
@[simp] theorem poisonWord_mem (addr : Nat) (s : State) : (poisonWord addr s).mem = { s.mem with
    ondie := SMap.put 0 s.mem.ondie addr 0xFF, ondieData := (addr, 0) :: s.mem.ondieData.filter fun e => e.1 != addr } := rfl
@[simp] theorem poisonWord_twin (addr : Nat) (s : State) : (poisonWord addr s).twin = s.twin := rfl
@[simp] theorem poisonWord_time (addr : Nat) (s : State) : (poisonWord addr s).time = s.time := rfl
@[simp] theorem poisonWord_eth (addr : Nat) (s : State) : (poisonWord addr s).eth = s.eth := rfl
@[simp] theorem poisonWord_life (addr : Nat) (s : State) : (poisonWord addr s).life = s.life := rfl
@[simp] theorem poisonWord_fawn (addr : Nat) (s : State) : (poisonWord addr s).fawn = s.fawn := rfl
@[simp] theorem poisonWord_clock (addr : Nat) (s : State) : (poisonWord addr s).clock = s.clock := rfl
@[simp] theorem poisonWord_free (addr : Nat) (s : State) : (poisonWord addr s).free = s.free := rfl
@[simp] theorem poisonWord_sent (addr : Nat) (s : State) : (poisonWord addr s).sent = s.sent := rfl
@[simp] theorem poisonWord_pending (addr : Nat) (s : State) : (poisonWord addr s).pending = s.pending := rfl

/-! ### useBanks -/

@[simp] theorem useBanks_sys (lo hi : Nat) (s : State) : (useBanks lo hi s).sys = s.sys := rfl
@[simp] theorem useBanks_mbx (lo hi : Nat) (s : State) : (useBanks lo hi s).mbx = s.mbx := rfl
@[simp] theorem useBanks_evr (lo hi : Nat) (s : State) : (useBanks lo hi s).evr = s.evr := rfl
@[simp] theorem useBanks_win (lo hi : Nat) (s : State) : (useBanks lo hi s).win = s.win := rfl
@[simp] theorem useBanks_faults (lo hi : Nat) (s : State) : (useBanks lo hi s).faults = s.faults := rfl
@[simp] theorem useBanks_host (lo hi : Nat) (s : State) : (useBanks lo hi s).host = s.host := rfl
@[simp] theorem useBanks_twinLink (lo hi : Nat) (s : State) : (useBanks lo hi s).twinLink = s.twinLink := rfl
@[simp] theorem useBanks_cfg (lo hi : Nat) (s : State) : (useBanks lo hi s).cfg = s.cfg := rfl
@[simp] theorem useBanks_codec (lo hi : Nat) (s : State) : (useBanks lo hi s).codec = s.codec := rfl
@[simp] theorem useBanks_swath (lo hi : Nat) (s : State) : (useBanks lo hi s).swath = s.swath := rfl
@[simp] theorem useBanks_wave (lo hi : Nat) (s : State) : (useBanks lo hi s).wave = s.wave := rfl
@[simp] theorem useBanks_heads (lo hi : Nat) (s : State) : (useBanks lo hi s).heads = s.heads := rfl
@[simp] theorem useBanks_bar (lo hi : Nat) (s : State) : (useBanks lo hi s).bar = s.bar := rfl
@[simp] theorem useBanks_fbk (lo hi : Nat) (s : State) : (useBanks lo hi s).fbk = s.fbk := rfl
@[simp] theorem useBanks_fbo (lo hi : Nat) (s : State) : (useBanks lo hi s).fbo = s.fbo := rfl
@[simp] theorem useBanks_job (lo hi : Nat) (s : State) : (useBanks lo hi s).job = s.job := rfl
@[simp] theorem useBanks_pace (lo hi : Nat) (s : State) : (useBanks lo hi s).pace = s.pace := rfl
@[simp] theorem useBanks_parked (lo hi : Nat) (s : State) : (useBanks lo hi s).parked = s.parked := rfl
@[simp] theorem useBanks_audit (lo hi : Nat) (s : State) : (useBanks lo hi s).audit = s.audit := rfl
@[simp] theorem useBanks_axes (lo hi : Nat) (s : State) : (useBanks lo hi s).axes = s.axes := rfl
@[simp] theorem useBanks_drive (lo hi : Nat) (s : State) : (useBanks lo hi s).drive = s.drive := rfl
@[simp] theorem useBanks_mem (lo hi : Nat) (s : State) : (useBanks lo hi s).mem = { s.mem with ondieUsed := s.mem.ondieUsed ||| banksOf lo hi } := rfl
@[simp] theorem useBanks_twin (lo hi : Nat) (s : State) : (useBanks lo hi s).twin = s.twin := rfl
@[simp] theorem useBanks_time (lo hi : Nat) (s : State) : (useBanks lo hi s).time = s.time := rfl
@[simp] theorem useBanks_eth (lo hi : Nat) (s : State) : (useBanks lo hi s).eth = s.eth := rfl
@[simp] theorem useBanks_life (lo hi : Nat) (s : State) : (useBanks lo hi s).life = s.life := rfl
@[simp] theorem useBanks_fawn (lo hi : Nat) (s : State) : (useBanks lo hi s).fawn = s.fawn := rfl
@[simp] theorem useBanks_clock (lo hi : Nat) (s : State) : (useBanks lo hi s).clock = s.clock := rfl
@[simp] theorem useBanks_free (lo hi : Nat) (s : State) : (useBanks lo hi s).free = s.free := rfl
@[simp] theorem useBanks_sent (lo hi : Nat) (s : State) : (useBanks lo hi s).sent = s.sent := rfl
@[simp] theorem useBanks_pending (lo hi : Nat) (s : State) : (useBanks lo hi s).pending = s.pending := rfl

/-! ### mramZero -/

@[simp] theorem mramZero_sys (lo hi : Nat) (s : State) : (mramZero lo hi s).sys = s.sys := rfl
@[simp] theorem mramZero_mbx (lo hi : Nat) (s : State) : (mramZero lo hi s).mbx = s.mbx := rfl
@[simp] theorem mramZero_evr (lo hi : Nat) (s : State) : (mramZero lo hi s).evr = s.evr := rfl
@[simp] theorem mramZero_win (lo hi : Nat) (s : State) : (mramZero lo hi s).win = s.win := rfl
@[simp] theorem mramZero_faults (lo hi : Nat) (s : State) : (mramZero lo hi s).faults = s.faults := rfl
@[simp] theorem mramZero_host (lo hi : Nat) (s : State) : (mramZero lo hi s).host = s.host := rfl
@[simp] theorem mramZero_twinLink (lo hi : Nat) (s : State) : (mramZero lo hi s).twinLink = s.twinLink := rfl
@[simp] theorem mramZero_cfg (lo hi : Nat) (s : State) : (mramZero lo hi s).cfg = s.cfg := rfl
@[simp] theorem mramZero_codec (lo hi : Nat) (s : State) : (mramZero lo hi s).codec = s.codec := rfl
@[simp] theorem mramZero_swath (lo hi : Nat) (s : State) : (mramZero lo hi s).swath = s.swath := rfl
@[simp] theorem mramZero_wave (lo hi : Nat) (s : State) : (mramZero lo hi s).wave = s.wave := rfl
@[simp] theorem mramZero_heads (lo hi : Nat) (s : State) : (mramZero lo hi s).heads = s.heads := rfl
@[simp] theorem mramZero_bar (lo hi : Nat) (s : State) : (mramZero lo hi s).bar = s.bar := rfl
@[simp] theorem mramZero_fbk (lo hi : Nat) (s : State) : (mramZero lo hi s).fbk = s.fbk := rfl
@[simp] theorem mramZero_fbo (lo hi : Nat) (s : State) : (mramZero lo hi s).fbo = s.fbo := rfl
@[simp] theorem mramZero_job (lo hi : Nat) (s : State) : (mramZero lo hi s).job = s.job := rfl
@[simp] theorem mramZero_pace (lo hi : Nat) (s : State) : (mramZero lo hi s).pace = s.pace := rfl
@[simp] theorem mramZero_parked (lo hi : Nat) (s : State) : (mramZero lo hi s).parked = s.parked := rfl
@[simp] theorem mramZero_audit (lo hi : Nat) (s : State) : (mramZero lo hi s).audit = s.audit := rfl
@[simp] theorem mramZero_axes (lo hi : Nat) (s : State) : (mramZero lo hi s).axes = s.axes := rfl
@[simp] theorem mramZero_drive (lo hi : Nat) (s : State) : (mramZero lo hi s).drive = s.drive := rfl
@[simp] theorem mramZero_mem (lo hi : Nat) (s : State) : (mramZero lo hi s).mem = s.mem := rfl
@[simp] theorem mramZero_twin (lo hi : Nat) (s : State) : (mramZero lo hi s).twin = s.twin := rfl
@[simp] theorem mramZero_time (lo hi : Nat) (s : State) : (mramZero lo hi s).time = s.time := rfl
@[simp] theorem mramZero_eth (lo hi : Nat) (s : State) : (mramZero lo hi s).eth = s.eth := rfl
@[simp] theorem mramZero_life (lo hi : Nat) (s : State) : (mramZero lo hi s).life = { s.life with
    due := s.life.due ++ noteWeak lo (hi - lo) s
    nv := { s.life.nv with mram := SMap.clear s.life.nv.mram lo hi, synd := SMap.clear s.life.nv.synd (lo / 8) (hi / 8) } } := rfl
@[simp] theorem mramZero_fawn (lo hi : Nat) (s : State) : (mramZero lo hi s).fawn = s.fawn := rfl
@[simp] theorem mramZero_clock (lo hi : Nat) (s : State) : (mramZero lo hi s).clock = s.clock := rfl
@[simp] theorem mramZero_free (lo hi : Nat) (s : State) : (mramZero lo hi s).free = s.free := rfl
@[simp] theorem mramZero_sent (lo hi : Nat) (s : State) : (mramZero lo hi s).sent = s.sent := rfl
@[simp] theorem mramZero_pending (lo hi : Nat) (s : State) : (mramZero lo hi s).pending = s.pending := rfl

/-! ### dropHand -/

@[simp] theorem dropHand_sys (s : State) : (dropHand s).sys = s.sys := rfl
@[simp] theorem dropHand_mbx (s : State) : (dropHand s).mbx = s.mbx := rfl
@[simp] theorem dropHand_evr (s : State) : (dropHand s).evr = s.evr := rfl
@[simp] theorem dropHand_win (s : State) : (dropHand s).win = s.win := rfl
@[simp] theorem dropHand_faults (s : State) : (dropHand s).faults = s.faults := rfl
@[simp] theorem dropHand_host (s : State) : (dropHand s).host = s.host := rfl
@[simp] theorem dropHand_twinLink (s : State) : (dropHand s).twinLink = s.twinLink := rfl
@[simp] theorem dropHand_cfg (s : State) : (dropHand s).cfg = s.cfg := rfl
@[simp] theorem dropHand_codec (s : State) : (dropHand s).codec = s.codec := rfl
@[simp] theorem dropHand_swath (s : State) : (dropHand s).swath = s.swath := rfl
@[simp] theorem dropHand_wave (s : State) : (dropHand s).wave = s.wave := rfl
@[simp] theorem dropHand_heads (s : State) : (dropHand s).heads = s.heads := rfl
@[simp] theorem dropHand_bar (s : State) : (dropHand s).bar = s.bar := rfl
@[simp] theorem dropHand_fbk (s : State) : (dropHand s).fbk = s.fbk := rfl
@[simp] theorem dropHand_fbo (s : State) : (dropHand s).fbo = s.fbo := rfl
@[simp] theorem dropHand_job (s : State) : (dropHand s).job = s.job := rfl
@[simp] theorem dropHand_pace (s : State) : (dropHand s).pace = s.pace := rfl
@[simp] theorem dropHand_parked (s : State) : (dropHand s).parked = s.parked := rfl
@[simp] theorem dropHand_audit (s : State) : (dropHand s).audit = s.audit := rfl
@[simp] theorem dropHand_axes (s : State) : (dropHand s).axes = s.axes := rfl
@[simp] theorem dropHand_drive (s : State) : (dropHand s).drive = s.drive := rfl
@[simp] theorem dropHand_mem (s : State) : (dropHand s).mem = s.mem := rfl
@[simp] theorem dropHand_twin (s : State) : (dropHand s).twin = { s.twin with hand := none } := rfl
@[simp] theorem dropHand_time (s : State) : (dropHand s).time = s.time := rfl
@[simp] theorem dropHand_eth (s : State) : (dropHand s).eth = s.eth := rfl
@[simp] theorem dropHand_life (s : State) : (dropHand s).life = s.life := rfl
@[simp] theorem dropHand_fawn (s : State) : (dropHand s).fawn = s.fawn := rfl
@[simp] theorem dropHand_clock (s : State) : (dropHand s).clock = s.clock := rfl
@[simp] theorem dropHand_free (s : State) : (dropHand s).free = s.free := rfl
@[simp] theorem dropHand_sent (s : State) : (dropHand s).sent = s.sent := rfl
@[simp] theorem dropHand_pending (s : State) : (dropHand s).pending = s.pending := rfl

/-! ### releaseTimeBalls -/

@[simp] theorem releaseTimeBalls_sys (s : State) : (releaseTimeBalls s).sys = s.sys := rfl
@[simp] theorem releaseTimeBalls_mbx (s : State) : (releaseTimeBalls s).mbx = s.mbx := rfl
@[simp] theorem releaseTimeBalls_evr (s : State) : (releaseTimeBalls s).evr = s.evr := rfl
@[simp] theorem releaseTimeBalls_win (s : State) : (releaseTimeBalls s).win = s.win := rfl
@[simp] theorem releaseTimeBalls_faults (s : State) : (releaseTimeBalls s).faults = s.faults := rfl
@[simp] theorem releaseTimeBalls_host (s : State) : (releaseTimeBalls s).host = s.host := rfl
@[simp] theorem releaseTimeBalls_twinLink (s : State) : (releaseTimeBalls s).twinLink = s.twinLink := rfl
@[simp] theorem releaseTimeBalls_cfg (s : State) : (releaseTimeBalls s).cfg = s.cfg := rfl
@[simp] theorem releaseTimeBalls_codec (s : State) : (releaseTimeBalls s).codec = s.codec := rfl
@[simp] theorem releaseTimeBalls_swath (s : State) : (releaseTimeBalls s).swath = s.swath := rfl
@[simp] theorem releaseTimeBalls_wave (s : State) : (releaseTimeBalls s).wave = s.wave := rfl
@[simp] theorem releaseTimeBalls_heads (s : State) : (releaseTimeBalls s).heads = s.heads := rfl
@[simp] theorem releaseTimeBalls_bar (s : State) : (releaseTimeBalls s).bar = s.bar := rfl
@[simp] theorem releaseTimeBalls_fbk (s : State) : (releaseTimeBalls s).fbk = s.fbk := rfl
@[simp] theorem releaseTimeBalls_fbo (s : State) : (releaseTimeBalls s).fbo = s.fbo := rfl
@[simp] theorem releaseTimeBalls_job (s : State) : (releaseTimeBalls s).job = s.job := rfl
@[simp] theorem releaseTimeBalls_pace (s : State) : (releaseTimeBalls s).pace = s.pace := rfl
@[simp] theorem releaseTimeBalls_parked (s : State) : (releaseTimeBalls s).parked = s.parked := rfl
@[simp] theorem releaseTimeBalls_audit (s : State) : (releaseTimeBalls s).audit = s.audit := rfl
@[simp] theorem releaseTimeBalls_axes (s : State) : (releaseTimeBalls s).axes = s.axes := rfl
@[simp] theorem releaseTimeBalls_drive (s : State) : (releaseTimeBalls s).drive = s.drive := rfl
@[simp] theorem releaseTimeBalls_mem (s : State) : (releaseTimeBalls s).mem = s.mem := rfl
@[simp] theorem releaseTimeBalls_twin (s : State) : (releaseTimeBalls s).twin = s.twin := rfl
@[simp] theorem releaseTimeBalls_time (s : State) : (releaseTimeBalls s).time = { s.time with pps := false, outs := Vector.replicate 4 false, pulseEnd := Vector.replicate 4 none } := rfl
@[simp] theorem releaseTimeBalls_eth (s : State) : (releaseTimeBalls s).eth = s.eth := rfl
@[simp] theorem releaseTimeBalls_life (s : State) : (releaseTimeBalls s).life = s.life := rfl
@[simp] theorem releaseTimeBalls_fawn (s : State) : (releaseTimeBalls s).fawn = s.fawn := rfl
@[simp] theorem releaseTimeBalls_clock (s : State) : (releaseTimeBalls s).clock = s.clock := rfl
@[simp] theorem releaseTimeBalls_free (s : State) : (releaseTimeBalls s).free = s.free := rfl
@[simp] theorem releaseTimeBalls_sent (s : State) : (releaseTimeBalls s).sent = s.sent := rfl
@[simp] theorem releaseTimeBalls_pending (s : State) : (releaseTimeBalls s).pending = s.pending := rfl

/-! ### bgStart -/

@[simp] theorem bgStart_sys (k : BgKind) (s : State) : (bgStart k s).sys = s.sys := rfl
@[simp] theorem bgStart_mbx (k : BgKind) (s : State) : (bgStart k s).mbx = { s.mbx with bg := s.mbx.bg ++ [(s.mbx.bgNext, k)], bgNext := s.mbx.bgNext + 1 } := rfl
@[simp] theorem bgStart_evr (k : BgKind) (s : State) : (bgStart k s).evr = s.evr := rfl
@[simp] theorem bgStart_win (k : BgKind) (s : State) : (bgStart k s).win = s.win := rfl
@[simp] theorem bgStart_faults (k : BgKind) (s : State) : (bgStart k s).faults = s.faults := rfl
@[simp] theorem bgStart_host (k : BgKind) (s : State) : (bgStart k s).host = s.host := rfl
@[simp] theorem bgStart_twinLink (k : BgKind) (s : State) : (bgStart k s).twinLink = s.twinLink := rfl
@[simp] theorem bgStart_cfg (k : BgKind) (s : State) : (bgStart k s).cfg = s.cfg := rfl
@[simp] theorem bgStart_codec (k : BgKind) (s : State) : (bgStart k s).codec = s.codec := rfl
@[simp] theorem bgStart_swath (k : BgKind) (s : State) : (bgStart k s).swath = s.swath := rfl
@[simp] theorem bgStart_wave (k : BgKind) (s : State) : (bgStart k s).wave = s.wave := rfl
@[simp] theorem bgStart_heads (k : BgKind) (s : State) : (bgStart k s).heads = s.heads := rfl
@[simp] theorem bgStart_bar (k : BgKind) (s : State) : (bgStart k s).bar = s.bar := rfl
@[simp] theorem bgStart_fbk (k : BgKind) (s : State) : (bgStart k s).fbk = s.fbk := rfl
@[simp] theorem bgStart_fbo (k : BgKind) (s : State) : (bgStart k s).fbo = s.fbo := rfl
@[simp] theorem bgStart_job (k : BgKind) (s : State) : (bgStart k s).job = s.job := rfl
@[simp] theorem bgStart_pace (k : BgKind) (s : State) : (bgStart k s).pace = s.pace := rfl
@[simp] theorem bgStart_parked (k : BgKind) (s : State) : (bgStart k s).parked = s.parked := rfl
@[simp] theorem bgStart_audit (k : BgKind) (s : State) : (bgStart k s).audit = s.audit := rfl
@[simp] theorem bgStart_axes (k : BgKind) (s : State) : (bgStart k s).axes = s.axes := rfl
@[simp] theorem bgStart_drive (k : BgKind) (s : State) : (bgStart k s).drive = s.drive := rfl
@[simp] theorem bgStart_mem (k : BgKind) (s : State) : (bgStart k s).mem = s.mem := rfl
@[simp] theorem bgStart_twin (k : BgKind) (s : State) : (bgStart k s).twin = s.twin := rfl
@[simp] theorem bgStart_time (k : BgKind) (s : State) : (bgStart k s).time = s.time := rfl
@[simp] theorem bgStart_eth (k : BgKind) (s : State) : (bgStart k s).eth = s.eth := rfl
@[simp] theorem bgStart_life (k : BgKind) (s : State) : (bgStart k s).life = s.life := rfl
@[simp] theorem bgStart_fawn (k : BgKind) (s : State) : (bgStart k s).fawn = s.fawn := rfl
@[simp] theorem bgStart_clock (k : BgKind) (s : State) : (bgStart k s).clock = s.clock := rfl
@[simp] theorem bgStart_free (k : BgKind) (s : State) : (bgStart k s).free = s.free := rfl
@[simp] theorem bgStart_sent (k : BgKind) (s : State) : (bgStart k s).sent = s.sent := rfl
@[simp] theorem bgStart_pending (k : BgKind) (s : State) : (bgStart k s).pending = s.pending := rfl

/-! ### bgEnd -/

@[simp] theorem bgEnd_sys (k : BgKind) (s : State) : (bgEnd k s).sys = s.sys := rfl
@[simp] theorem bgEnd_mbx (k : BgKind) (s : State) : (bgEnd k s).mbx = { s.mbx with bg := s.mbx.bg.filter fun e => e.2 ≠ k } := rfl
@[simp] theorem bgEnd_evr (k : BgKind) (s : State) : (bgEnd k s).evr = s.evr := rfl
@[simp] theorem bgEnd_win (k : BgKind) (s : State) : (bgEnd k s).win = s.win := rfl
@[simp] theorem bgEnd_faults (k : BgKind) (s : State) : (bgEnd k s).faults = s.faults := rfl
@[simp] theorem bgEnd_host (k : BgKind) (s : State) : (bgEnd k s).host = s.host := rfl
@[simp] theorem bgEnd_twinLink (k : BgKind) (s : State) : (bgEnd k s).twinLink = s.twinLink := rfl
@[simp] theorem bgEnd_cfg (k : BgKind) (s : State) : (bgEnd k s).cfg = s.cfg := rfl
@[simp] theorem bgEnd_codec (k : BgKind) (s : State) : (bgEnd k s).codec = s.codec := rfl
@[simp] theorem bgEnd_swath (k : BgKind) (s : State) : (bgEnd k s).swath = s.swath := rfl
@[simp] theorem bgEnd_wave (k : BgKind) (s : State) : (bgEnd k s).wave = s.wave := rfl
@[simp] theorem bgEnd_heads (k : BgKind) (s : State) : (bgEnd k s).heads = s.heads := rfl
@[simp] theorem bgEnd_bar (k : BgKind) (s : State) : (bgEnd k s).bar = s.bar := rfl
@[simp] theorem bgEnd_fbk (k : BgKind) (s : State) : (bgEnd k s).fbk = s.fbk := rfl
@[simp] theorem bgEnd_fbo (k : BgKind) (s : State) : (bgEnd k s).fbo = s.fbo := rfl
@[simp] theorem bgEnd_job (k : BgKind) (s : State) : (bgEnd k s).job = s.job := rfl
@[simp] theorem bgEnd_pace (k : BgKind) (s : State) : (bgEnd k s).pace = s.pace := rfl
@[simp] theorem bgEnd_parked (k : BgKind) (s : State) : (bgEnd k s).parked = s.parked := rfl
@[simp] theorem bgEnd_audit (k : BgKind) (s : State) : (bgEnd k s).audit = s.audit := rfl
@[simp] theorem bgEnd_axes (k : BgKind) (s : State) : (bgEnd k s).axes = s.axes := rfl
@[simp] theorem bgEnd_drive (k : BgKind) (s : State) : (bgEnd k s).drive = s.drive := rfl
@[simp] theorem bgEnd_mem (k : BgKind) (s : State) : (bgEnd k s).mem = s.mem := rfl
@[simp] theorem bgEnd_twin (k : BgKind) (s : State) : (bgEnd k s).twin = s.twin := rfl
@[simp] theorem bgEnd_time (k : BgKind) (s : State) : (bgEnd k s).time = s.time := rfl
@[simp] theorem bgEnd_eth (k : BgKind) (s : State) : (bgEnd k s).eth = s.eth := rfl
@[simp] theorem bgEnd_life (k : BgKind) (s : State) : (bgEnd k s).life = s.life := rfl
@[simp] theorem bgEnd_fawn (k : BgKind) (s : State) : (bgEnd k s).fawn = s.fawn := rfl
@[simp] theorem bgEnd_clock (k : BgKind) (s : State) : (bgEnd k s).clock = s.clock := rfl
@[simp] theorem bgEnd_free (k : BgKind) (s : State) : (bgEnd k s).free = s.free := rfl
@[simp] theorem bgEnd_sent (k : BgKind) (s : State) : (bgEnd k s).sent = s.sent := rfl
@[simp] theorem bgEnd_pending (k : BgKind) (s : State) : (bgEnd k s).pending = s.pending := rfl

/-! ### send -/

@[simp] theorem send_sys (ch : Chan) (data : List Byte) (s : State) : (send ch data s).sys = s.sys := rfl
@[simp] theorem send_mbx (ch : Chan) (data : List Byte) (s : State) : (send ch data s).mbx = s.mbx := rfl
@[simp] theorem send_evr (ch : Chan) (data : List Byte) (s : State) : (send ch data s).evr = s.evr := rfl
@[simp] theorem send_win (ch : Chan) (data : List Byte) (s : State) : (send ch data s).win = s.win := rfl
@[simp] theorem send_faults (ch : Chan) (data : List Byte) (s : State) : (send ch data s).faults = s.faults := rfl
@[simp] theorem send_host (ch : Chan) (data : List Byte) (s : State) : (send ch data s).host = s.host := rfl
@[simp] theorem send_twinLink (ch : Chan) (data : List Byte) (s : State) : (send ch data s).twinLink = s.twinLink := rfl
@[simp] theorem send_cfg (ch : Chan) (data : List Byte) (s : State) : (send ch data s).cfg = s.cfg := rfl
@[simp] theorem send_codec (ch : Chan) (data : List Byte) (s : State) : (send ch data s).codec = s.codec := rfl
@[simp] theorem send_swath (ch : Chan) (data : List Byte) (s : State) : (send ch data s).swath = s.swath := rfl
@[simp] theorem send_wave (ch : Chan) (data : List Byte) (s : State) : (send ch data s).wave = s.wave := rfl
@[simp] theorem send_heads (ch : Chan) (data : List Byte) (s : State) : (send ch data s).heads = s.heads := rfl
@[simp] theorem send_bar (ch : Chan) (data : List Byte) (s : State) : (send ch data s).bar = s.bar := rfl
@[simp] theorem send_fbk (ch : Chan) (data : List Byte) (s : State) : (send ch data s).fbk = s.fbk := rfl
@[simp] theorem send_fbo (ch : Chan) (data : List Byte) (s : State) : (send ch data s).fbo = s.fbo := rfl
@[simp] theorem send_job (ch : Chan) (data : List Byte) (s : State) : (send ch data s).job = s.job := rfl
@[simp] theorem send_pace (ch : Chan) (data : List Byte) (s : State) : (send ch data s).pace = s.pace := rfl
@[simp] theorem send_parked (ch : Chan) (data : List Byte) (s : State) : (send ch data s).parked = s.parked := rfl
@[simp] theorem send_audit (ch : Chan) (data : List Byte) (s : State) : (send ch data s).audit = s.audit := rfl
@[simp] theorem send_axes (ch : Chan) (data : List Byte) (s : State) : (send ch data s).axes = s.axes := rfl
@[simp] theorem send_drive (ch : Chan) (data : List Byte) (s : State) : (send ch data s).drive = s.drive := rfl
@[simp] theorem send_mem (ch : Chan) (data : List Byte) (s : State) : (send ch data s).mem = s.mem := rfl
@[simp] theorem send_twin (ch : Chan) (data : List Byte) (s : State) : (send ch data s).twin = s.twin := rfl
@[simp] theorem send_time (ch : Chan) (data : List Byte) (s : State) : (send ch data s).time = s.time := rfl
@[simp] theorem send_eth (ch : Chan) (data : List Byte) (s : State) : (send ch data s).eth = s.eth := rfl
@[simp] theorem send_life (ch : Chan) (data : List Byte) (s : State) : (send ch data s).life = s.life := rfl
@[simp] theorem send_fawn (ch : Chan) (data : List Byte) (s : State) : (send ch data s).fawn = s.fawn := rfl
@[simp] theorem send_clock (ch : Chan) (data : List Byte) (s : State) : (send ch data s).clock = s.clock := rfl
@[simp] theorem send_free (ch : Chan) (data : List Byte) (s : State) : (send ch data s).free = s.free := rfl
@[simp] theorem send_sent (ch : Chan) (data : List Byte) (s : State) : (send ch data s).sent = ⟨ch, data⟩ :: s.sent := rfl
@[simp] theorem send_pending (ch : Chan) (data : List Byte) (s : State) : (send ch data s).pending = s.pending := rfl

/-! ### setLink: one of two links -/

theorem linkOf_setLink (l : Fin 2) (f : Link → Link) (s : State) : linkOf l (setLink l f s) = f (linkOf l s) := by
  unfold linkOf setLink; split <;> rfl

theorem linkOf_setLink_ne (l k : Fin 2) (h : k ≠ l) (f : Link → Link) (s : State) : linkOf k (setLink l f s) = linkOf k s := by
  unfold linkOf setLink
  by_cases h1 : l = 0 <;> by_cases h2 : k = 0 <;> simp [h1, h2]
  · exact absurd (h2.trans h1.symm) h
  · exfalso; apply h; revert h1 h2; revert k l; decide

@[simp] theorem setLink_sys (l : Fin 2) (f : Link → Link) (s : State) : (setLink l f s).sys = s.sys := by unfold setLink; split <;> rfl
@[simp] theorem setLink_mbx (l : Fin 2) (f : Link → Link) (s : State) : (setLink l f s).mbx = s.mbx := by unfold setLink; split <;> rfl
@[simp] theorem setLink_evr (l : Fin 2) (f : Link → Link) (s : State) : (setLink l f s).evr = s.evr := by unfold setLink; split <;> rfl
@[simp] theorem setLink_win (l : Fin 2) (f : Link → Link) (s : State) : (setLink l f s).win = s.win := by unfold setLink; split <;> rfl
@[simp] theorem setLink_faults (l : Fin 2) (f : Link → Link) (s : State) : (setLink l f s).faults = s.faults := by unfold setLink; split <;> rfl
@[simp] theorem setLink_cfg (l : Fin 2) (f : Link → Link) (s : State) : (setLink l f s).cfg = s.cfg := by unfold setLink; split <;> rfl
@[simp] theorem setLink_codec (l : Fin 2) (f : Link → Link) (s : State) : (setLink l f s).codec = s.codec := by unfold setLink; split <;> rfl
@[simp] theorem setLink_swath (l : Fin 2) (f : Link → Link) (s : State) : (setLink l f s).swath = s.swath := by unfold setLink; split <;> rfl
@[simp] theorem setLink_wave (l : Fin 2) (f : Link → Link) (s : State) : (setLink l f s).wave = s.wave := by unfold setLink; split <;> rfl
@[simp] theorem setLink_heads (l : Fin 2) (f : Link → Link) (s : State) : (setLink l f s).heads = s.heads := by unfold setLink; split <;> rfl
@[simp] theorem setLink_bar (l : Fin 2) (f : Link → Link) (s : State) : (setLink l f s).bar = s.bar := by unfold setLink; split <;> rfl
@[simp] theorem setLink_fbk (l : Fin 2) (f : Link → Link) (s : State) : (setLink l f s).fbk = s.fbk := by unfold setLink; split <;> rfl
@[simp] theorem setLink_fbo (l : Fin 2) (f : Link → Link) (s : State) : (setLink l f s).fbo = s.fbo := by unfold setLink; split <;> rfl
@[simp] theorem setLink_job (l : Fin 2) (f : Link → Link) (s : State) : (setLink l f s).job = s.job := by unfold setLink; split <;> rfl
@[simp] theorem setLink_pace (l : Fin 2) (f : Link → Link) (s : State) : (setLink l f s).pace = s.pace := by unfold setLink; split <;> rfl
@[simp] theorem setLink_parked (l : Fin 2) (f : Link → Link) (s : State) : (setLink l f s).parked = s.parked := by unfold setLink; split <;> rfl
@[simp] theorem setLink_audit (l : Fin 2) (f : Link → Link) (s : State) : (setLink l f s).audit = s.audit := by unfold setLink; split <;> rfl
@[simp] theorem setLink_axes (l : Fin 2) (f : Link → Link) (s : State) : (setLink l f s).axes = s.axes := by unfold setLink; split <;> rfl
@[simp] theorem setLink_drive (l : Fin 2) (f : Link → Link) (s : State) : (setLink l f s).drive = s.drive := by unfold setLink; split <;> rfl
@[simp] theorem setLink_mem (l : Fin 2) (f : Link → Link) (s : State) : (setLink l f s).mem = s.mem := by unfold setLink; split <;> rfl
@[simp] theorem setLink_twin (l : Fin 2) (f : Link → Link) (s : State) : (setLink l f s).twin = s.twin := by unfold setLink; split <;> rfl
@[simp] theorem setLink_time (l : Fin 2) (f : Link → Link) (s : State) : (setLink l f s).time = s.time := by unfold setLink; split <;> rfl
@[simp] theorem setLink_eth (l : Fin 2) (f : Link → Link) (s : State) : (setLink l f s).eth = s.eth := by unfold setLink; split <;> rfl
@[simp] theorem setLink_life (l : Fin 2) (f : Link → Link) (s : State) : (setLink l f s).life = s.life := by unfold setLink; split <;> rfl
@[simp] theorem setLink_fawn (l : Fin 2) (f : Link → Link) (s : State) : (setLink l f s).fawn = s.fawn := by unfold setLink; split <;> rfl
@[simp] theorem setLink_clock (l : Fin 2) (f : Link → Link) (s : State) : (setLink l f s).clock = s.clock := by unfold setLink; split <;> rfl
@[simp] theorem setLink_free (l : Fin 2) (f : Link → Link) (s : State) : (setLink l f s).free = s.free := by unfold setLink; split <;> rfl
@[simp] theorem setLink_sent (l : Fin 2) (f : Link → Link) (s : State) : (setLink l f s).sent = s.sent := by unfold setLink; split <;> rfl
@[simp] theorem setLink_pending (l : Fin 2) (f : Link → Link) (s : State) : (setLink l f s).pending = s.pending := by unfold setLink; split <;> rfl

/-! ### tables of fixed size -/

theorem nthOr_updAt {α : Type} {n : Nat} (v : Vector α n) (i : Nat) (f : α → α) (d : α) (h : i < n) : nthOr (updAt v i f) i d = f (nthOr v i d) := by
  simp [nthOr, updAt, h]

theorem nthOr_updAt_ne {α : Type} {n : Nat} (v : Vector α n) (i j : Nat) (f : α → α) (d : α) (h : i ≠ j) :
    nthOr (updAt v i f) j d = nthOr v j d := by
  unfold nthOr updAt
  by_cases h1 : j < n <;> by_cases h2 : i < n <;> simp [h1, h2, Vector.getElem_set_ne, h]

end Sys2Proof.Machine
end

