-- ==== Sys2Proof/WellFormed.lean ====
section
/-! DEFINITION. Well-formed commands: the bounds on operands that their types do not carry. A meaning is total, so it answers for an ill-formed
command too, but the manual describes none. -/
namespace Sys2Proof

/-- The physical lanes of a link, the spare among them: nine of the host link, three of the twin link (R87). -/
def lanesOf (l : Fin 2) : Nat := if l = 0 then 9 else 3

/-- A lane that the link has. -/
def laneOk (l : Fin 2) (lane : Fin 9) : Bool := decide (lane.val < lanesOf l)

/-- A lane of the three links that carry blocks, the camera's two lanes among them (R308). -/
def blockLaneOk (l : Fin 3) (lane : Fin 9) : Bool := decide (lane.val < (if l = 0 then 9 else if l = 1 then 3 else 2))

/-- A mask of lanes that the link has. -/
def maskOk (l : Fin 2) (m : BitVec 9) : Bool := decide (m.toNat < 2 ^ lanesOf l)

/-- A control block of 16 bytes (R93). -/
def blockOk (b : List (BitVec 8)) : Bool := b.length == 16

/-- What a preparation meets lies in the part: a word of the banks and stores, a cell pair (Tables 1.6 and 6.8). -/
def PrepErr.wf : PrepErr → Bool
  | .none_ => true
  | .ecc a _ => decide (a < 1000 * 8192)
  | .pair u _ => decide (u < 256)

/-- A command's operands lie within the bounds that the manual gives what they stand for. -/
def Instr.wf : Instr → Bool
  | .registerWrite _ o _ => o.toNat % 4 == 0
  | .train1Received l lane b | .train2Received l lane b | .skipReceived l lane b => blockLaneOk l lane && blockOk b
  | .alignReceived l lane b _ | .invalidBlockReceived l lane _ b => blockLaneOk l lane && blockOk b
  | .laneLockLost l lane | .spareReq l lane => laneOk l lane
  | .linkLockDone l m | .linkStageTimeout l m | .recoveryRetrainDone l m => maskOk l m
  | .lineToken _ e | .swathStartPermission _ e | .lineRecord _ e => e.wf
  | .tableBuildDone t => decide (t ≤ 16)
  | .ptpSyncReceived j => decide (j.natAbs ≤ 60)
  | .flashDiscoveryDone f => f.slot0.length == 256 && f.slot1.length == 256
  | .headRecordReadDone _ _ d | .headRead _ d | .headWrite _ d => d.length == 1024
  | .fnReinit fails _ => fails.all fun b => decide (b < 0x75)
  | .codecRequestEnd unit _ _ _ _ => decide (unit < 9) || unit == 0x10 || unit == 0x11
  | .suppressedEventReport code _ => decide (code < 65536)
  | .dramRefresh _ _ upsets => upsets.all fun u => u.addr % 8 == 0
  | .mainSuppliesFall | .mainSuppliesValid _ _ _ _ | .resetNFall | .warmResetFlushDone _ _ _ _ | .resetNRise _ _ _ _ | .pllsLocked
  | .sramSweepDone | .verupStarted _ _ | .pwrFailNFall | .sysResetWrite _ _ | .sysSafestopWrite _ _ | .mbxRing _ _ | .mbxAck _ _
  | .mbxPortWrite _ _ | .mbxEvrRdWrite _ _ | .timNowLoRead _ | .timNowHiRead _ | .spiReadFrame _ | .spiWriteFrame _ | .spiPortStatus
  | .mailboxAccept _ | .mbxStall | .coreWdog | .evrAgeThreshold | .ringOverflowWriteout | .countersReport | .sysReset | .sysSafestop
  | .sysConfigure _ | .sysSecver | .cfgBar | .cfgHead | .cfgCommit | .jobOpen | .jobStart | .jobHold | .jobResume | .jobAbort | .jobClose _
  | .slicePost | .codecInflate | .codecDeflate | .codecConfig | .greyLoad | .substLoad | .tableSwap | .waveLoad | .waveSwap | .waveConfig
  | .waveTest | .fbkConfig | .fbkSet | .fbkCapture | .fbkRead | .fbkOut | .paceConfig | .paceOrigin | .paceRead | .maintStart | .maintStop
  | .auditConfig | .auditStart | .auditStop | .axisConfig | .axisLimits | .axisMove | .axisStop | .axisResume | .axisHome | .memConfig
  | .memSweep | .memStatus | .memScrub | .memRepair | .memPpr _ | .memEcctest | .cvuConfig | .cvuRead | .cvuWrite | .faultRead | .faultAck
  | .faultClear _ | .twinConfig | .twinUnpair | .twinSwap | .twinResolve | .twinTakeover | .timeConfig | .timeSet | .timeAdjust | .timeSched
  | .timeCancel | .timeRead | .ethConfig | .ethMdio _ | .ethSend | .ethRxack | .ethTsread | .linkConfig | .linkRetrain | .linkSpare
  | .linkTest _ | .linkAlignDone _ | .linkEqualiseDone _ | .alignSkipInterval _ _ | .linkStatus | .lifeConfig | .lifeRead | .lifeCounters | .lifeWrite | .lifeFlush | .lifeClear | .lifeExport | .lifeFormat
  | .rtcSet | .rtcTrim | .rtcAlarm | .svcEnter | .svcExit | .linkDetect _ | .linkActiveDone _ | .linkStartRetry _ | .eidleReceived _
  | .spareAck _ | .spareRefuse _ | .spareSwitch _ | .mwrReceived _ _ | .mrdReceived _ | .rwrReceived _ | .rrdReceived _ | .completionSend _
  | .ackReceived _ _ | .nakReceived _ _ | .creditReceived _ _ | .replayTimeout _ | .creditUpdateTimer _ | .sliceOpen _ | .streamSwitch _ _
  | .dynamicTableBuilt _ _ | .streamEnd _ | .decoderTestDone _ _ | .decoderLeavesService _ _ | .standbyTest
  | .frameShiftStart _ | .frameShiftDone _ | .cycleStart _ | .latchIssue _ _ | .fireWindowOpen _ _ | .fireWindowClose _ _
  | .maintSequenceComplete | .waveFrame _ _ | .restLevelMove _ | .firePermitFall _ | .waveBuildDone _ | .headPresent _ | .headAbsent _
  | .headFaultAssert _ | .headFaultClear _ | .headUsageWrite _ _ | .ownReadback | .barContention | .feedbackCount _ _ _ _ | .hallEvaluate _
  | .fbkCaptureEdge _ _ _ | .speedWindowEnd _ | .fboStep _ | .maintainTimerLine | .cameraLaneUp _ | .cameraLinkLost _ | .cameraRestart
  | .cameraFrame _ _ | .auditTimeout | .auditCompressTimeout | .inlineWindowClose | .servoPeriod _ _ _ _ | .driveReply _ _ _ | .driveReplyMissed _ _
  | .homeTimeout _ | .microstepUpdate _ | .currentReduction _ | .memSweepDone | .scrubLine _ _ _ | .ceLeakTick | .zqCalibration | .pprDone _
  | .cvuStop _ | .discardEnd | .tempUpdate _ | .renewTimer | .helloReceived _ | .renewReceived _ | .grantReceived _ | .passReceived _
  | .releaseReceived _ | .departReceived _ | .leaseExpiry | .leasePathDown _ | .leaseClaim | .takeoverRelease | .leaseTakeAtCommit
  | .pairInfoReceived _ | .swapRecord _ | .sliceRecord _ | .stateRecord _ | .axisRecord _ | .handoverStart | .handoverReceived _ | .handoverReadyReceived _ | .handoverTimeout | .handoverTakeBar
  | .xcheckReceived _ | .resolveReceived _ | .mirrorStateTimer | .revertHoldExpiry | .contentionResolve | .timePingTimer
  | .timePingReceived _ | .timeEchoReceived _ | .scheduledOccurrence | .outputPulseEnd _ | .ppsPulse | .ppsPulseEnd | .ptpAnnounceReceived
  | .ptpFollowUpReceived | .ptpDelayRespReceived | .ptpDelayReqTimer | .announceTimeout | .ethFrameReceived _ _ | .ethLaunch
  | .ethLinkChange _ _ _ | .phyLinkPoll _ | .writebackTimer | .flushEnd _ | .lifeExportDone _ _ _ _ | .rtcCompensation | .fawnTempSample _
  | .rtcSync | .rtcAlarmMatch | .wakeRequest | .vbatLow | .xtalStop | .pwrFailNRise | .barPeerChange _ | .bootImageLoaded _
  | .dramTrainingDone _ _ | .sweepMibComplete _ | .modeTransitionEnd | .timeSlewEnd | .leaseViewExpiry | .triggerOutputEnable _ => true

end Sys2Proof
end

