-- ==== Sys2Proof/Tests/Slice0.lean ====
section
/-! SUPPORT. Tests: worked examples of the manual, the checks of well-formedness, and for each statement states and operands that meet the
hypotheses of each of its clauses. -/
set_option maxRecDepth 100000
namespace Sys2Proof.Tests
-- `decide +kernel` waits until the kernel has checked what stands before it: one test at a time, so that few threads wait at once.
set_option Elab.async false
open Sys2Proof Sys2Proof.Machine

/-! ## Small states and messages -/

/-- A command of an opcode with a payload, of mailbox 0. -/
def cmd (op : Nat) (p : List Byte) : Command := { mb := 0, opcode := op, seq := 0, payload := p }
/-- A head of 256 nozzles in four rows. -/
def rec0 : HeadRecord :=
  { serial := 1, typeId := 1, nozzles := 256, rows := 4, order := 0, framing := 3, minDiv := 4, rankScale := 16384, minPeriod := 10000 }
/-- A unit in IDLE after a start, with its MRAM in order. -/
def up : State := { State.reset with
  sys := { mode := .idle, phase := .running, resetN := true, sweepDone := true, coldStart := false }, life := { headerOk := true } }
/-- The same with memory fitted, trained and swept, decoders in service, and a head at port 0 and an axis 0 committed. -/
def one : State := { up with
  cfg := { staged := { heads := up.cfg.live.heads.set 0 [⟨1, 0, 1⟩], mem := [⟨1, 0, 4⟩, ⟨2, 0, 1⟩] }
           live := { heads := up.cfg.live.heads.set 0 [⟨1, 0, 1⟩], axes := up.cfg.live.axes.set 0 [⟨1, 0, 1⟩] } }
  heads := up.heads.set 0 { present := true, record := some rec0, committed := some rec0 }
  mem := { trained := true, swept := true, init := Vector.replicate 2 64 }
  codec := { decoders := Vector.ofFn fun i => { use := if i.val < 8 then .inService else .standby } }
  bar := { committed := true } }
/-- The same with the host link up and credit for frames. -/
def linked : State := { one with host := { stage := .up, linkUp := true, vc := Vector.replicate 3 { rxHdrLimit := 8, rxDataLimit := 512 } } }
/-- A frame of Table 4.8 with sequence number 0. -/
def frame (type be len tag addr : Nat) (data : List Byte) : List Byte :=
  let h := leBytes 1 type ++ leBytes 1 be ++ leBytes 2 0 ++ leBytes 2 len ++ leBytes 2 tag ++ leBytes 8 addr ++ data
  h ++ leBytes 4 (crc32c (leBytes 4 0 ++ h)).toNat
/-- The state Accepted names, with the frame counted, its credit used and it acknowledged. -/
def accepted (vc : Nat) (f : List Byte) (s : State) : State :=
  sendAckNak 0 false s.host.expect { s with host := { s.host with
      expect := (s.host.expect + 1) % 2 ^ 32, nakOut := false, nakDue := false
      vc := updAt s.host.vc vc fun c => { c with
        rxHdrUsed := c.rxHdrUsed + 1, rxDataUsed := c.rxDataUsed + BitVec.ofNat 16 (ceilDiv (frameHeader f).len 16) } } }
/-- A frame meets what Accepted asks, and then Accepted holds. -/
def isAccepted (s : State) (type vc : Nat) (f : List Byte) : Bool :=
  decide (s.host.linkUp = true ∧ s.host.stage = .up ∧ s.host.rxDiscard = false ∧ frameCrcOk s.host.expect f = some s.host.expect ∧
    (frameHeader f).ftype = type ∧ (frameHeader f).seqField < 4096 ∧ (frameHeader f).len % 4 = 0 ∧
    withinCredit (nthOr s.host.vc vc {}) (ceilDiv (frameHeader f).len 16) = true)
theorem isAccepted_sound {s : State} {type vc : Nat} {f : List Byte} (h : isAccepted s type vc f = true) :
    Accepted s type vc f (frameHeader f) (accepted vc f s) := by
  obtain ⟨h1, h2, h3, h4, h5, h6, h7, h8⟩ := of_decide_eq_true h
  exact ⟨h1, h2, h3, rfl, h4, h5, h6, h7, h8, rfl⟩
/-- Doing, and InExec, as tests. -/
def isInExec (s : State) (op : Nat) (c : Command) : Bool := decide (s.mbx.current = some c ∧ c.opcode = op ∧ Memory.wf s.mbx.area = true)
theorem isInExec_iff {s : State} {op : Nat} {c : Command} : isInExec s op c = true ↔ InExec s op c := by simp [isInExec, InExec]
def isDoing (s : State) (op : Nat) (c : Command) : Bool := isInExec s op c && (turnedAway op s).isNone
theorem isDoing_iff {s : State} {op : Nat} {c : Command} : isDoing s op c = true ↔ Doing s op c := by
  simp [isDoing, Doing, isInExec_iff]
/-- A line of a head. -/
def line0 : HeadLine := { f := 0, lineId := 0, rows := [], hlcv := 0, first := true, last := false }
/-- A bank of 16 samples with one window. -/
def bank0 : Bank := { length := 16, rest := 0, maxStep := 0, nwin := 2, wins := [(1, 2), (4, 2)], masks := [], samples := [], g := 0, rankScale := 16384, cv := 0 }
/-- A slice with one raw stream. -/
def strm0 : Strm := { head := 0, raw := true, firstNoz := 0, nozzles := 8, offset := 64, compLen := 4, decLen := 4, decCv := 0, compCv := 0 }
def slice0 : Slice := { addr := 0, len := 128, flags := 0, bits := 3, job := 0, no := 0, first := 0, lines := 1, hdrCv := 0, streams := [strm0] }
/-- The bytes of a stream of one stored block of one byte, and of one dynamic block of 32 bytes. -/
def storedBytes : List Byte := [1, 1, 0, 0xFE, 0xFF, 0x41]
def dynBytes : List Byte :=
  [13, 197, 193, 1, 0, 32, 12, 2, 177, 217, 14, 65, 218, 253, 23, 210, 124, 66, 17, 73, 198, 63, 236, 178, 209, 170, 28, 96, 46, 15]
def strm1 : Strm := { strm0 with
  raw := false, compLen := 6, decLen := 1, good := 6, decCv := (crc32c [0x41]).toNat, compCv := (crc32c storedBytes).toNat, begun := true }
def strm2 : Strm := { strm0 with raw := false, compLen := 30, decLen := 32, good := 30, building := true, begun := true }
/-- A unit printing with a slice of one stream open, in decoder 0. -/
def slicing (x : Strm) (bs : List Byte) : State := { one with
  sys := { one.sys with mode := .print }, job := { isOpen := true }, mem := { one.mem with dram := Mem.writeN [] 64 bs }
  codec := { one.codec with posted := [{ slice0 with streams := [{ x with input := bs.take x.good }], isOpen := true }], decoders := one.codec.decoders.set 0 { work := some (0, 0) } } }
/-- The same unit printing, its permit given. -/
def firing : State := { one with sys := { one.sys with mode := .print, irqEnHost := one.sys.irqEnHost } }
/-- A waveform image of 16 samples at rest. -/
def image0 : List Byte :=
  withCv (leBytes 4 0x45564157 ++ leBytes 1 1 ++ leBytes 1 0 ++ leBytes 2 16 ++ zeros 88)
/-- A head memory with identity and drive blocks that pass. -/
def eeprom : List Byte :=
  withCv (padTo 252 (leBytes 4 0x43455248 ++ leBytes 1 1 ++ zeros 35 ++ leBytes 8 1 ++ leBytes 4 1 ++ leBytes 2 256 ++ leBytes 1 4 ++ zeros 1 ++
    leBytes 4 0x3210 ++ zeros 4 ++ leBytes 1 3 ++ leBytes 1 4)) ++ withCv (padTo 252 (leBytes 2 16384 ++ zeros 2 ++ leBytes 4 10000)) ++ zeros 512
/-- A camera frame with a trigger number, a width and a first reserved byte. -/
def camFrame (trig n flag : Nat) : List Byte :=
  withCv (leBytes 1 0x10 ++ leBytes 1 flag ++ leBytes 2 n ++ leBytes 4 trig ++ zeros 8 ++ zeros n)
/-- A drive reply to slot 0 of cycle 0xFFFF. -/
def reply0 : List Byte := let b := leBytes 1 0xA7 ++ leBytes 1 0x80 ++ leBytes 2 0xFFFF ++ zeros 9; b ++ leBytes 2 (crc16 b).toNat
/-- A lease message of a type with an EPOCH and a SEQ, and its frames on the wires and on the twin link. -/
def leaseBody (type epoch seq : Nat) : List Byte := leBytes 2 type ++ leBytes 2 epoch ++ leBytes 2 seq
def onWire (m : List Byte) : List Byte := [0x55, 0xD5] ++ m ++ [crc8 m]
def onLink (m : List Byte) : List Byte := m ++ [0, 0]
/-- What arrives on the lease wires for a message; what Carries names of a path, and the message taken from it. -/
def wires (m : List Byte) : LeaseIn := .wire (manchesterLine (bitsOfBytes (wireFrame m)))
def carried (x : LeaseIn) (s : State) : State := match x with
  | .wire _ => s
  | .link f => { acceptLease f s with twinLink := { (acceptLease f s).twinLink with rxLease := (acceptLease f s).twinLink.rxLease.drop 1 } }
def isCarried (s : State) (x : LeaseIn) (m : List Byte) : Bool := match x with
  | .wire h => decide (leaseOf true (leaseBytes h) = some m)
  | .link f => match (acceptLease f s).twinLink.rxLease with | p :: _ => decide (leaseOf false p = some m) | [] => false
theorem isCarried_sound {s : State} {x : LeaseIn} {m : List Byte} (h : isCarried s x m = true) : Carries s x m (carried x s) := by
  cases x with
  | wire b => exact ⟨of_decide_eq_true h, rfl⟩
  | link f =>
    simp only [isCarried] at h
    split at h
    · next p ms e => exact ⟨p, ms, e, of_decide_eq_true h, by simp [carried, e]⟩
    · cases h
/-- A message meets what Heard asks. -/
def isHeard (s : State) (x : LeaseIn) (type : Nat) (m : List Byte) : Bool :=
  isCarried s x m && decide (s.sys.phase = .running ∧ leaseGood m = true ∧ leaseType m = type ∧ pairOn s = true ∧
    epochNewer s.twin.epoch (leaseEpoch m) = false)
theorem isHeard_sound {s : State} {x : LeaseIn} {type : Nat} {m : List Byte} (h : isHeard s x type m = true) : Heard s x type m (carried x s) := by
  obtain ⟨h0, h1⟩ := Bool.and_eq_true_iff.mp h
  obtain ⟨h2, h3, h4, h5, h6⟩ := of_decide_eq_true h1
  exact ⟨h2, isCarried_sound h0, h3, h4, h5, h6⟩
/-- The TMB request that a frame leaves waiting longest, with its arrival, and the state with it taken, where TmbTaken holds. -/
def tmbTaken (f : List Byte) (s : State) : Option (Nat × List Byte × State) := match (acceptTmb f s).twinLink.rxTmb with
  | (t, m) :: ms => if s.sys.phase = .running then some (t, m, { acceptTmb f s with twinLink := { (acceptTmb f s).twinLink with rxTmb := ms } }) else none
  | [] => none
theorem tmbTaken_sound {f m : List Byte} {s v : State} {t : Nat} (h : tmbTaken f s = some (t, m, v)) : TmbTaken f t m s v := by
  simp only [tmbTaken] at h
  split at h
  · next t' m' ms e =>
    split at h
    · next r =>
      simp only [Option.some.injEq, Prod.mk.injEq] at h
      obtain ⟨rfl, rfl, rfl⟩ := h
      exact ⟨ms, e, r, rfl⟩
    · cases h
  · cases h
/-- No TMB request waits for the running core. -/
def tmbIdle (f : List Byte) (s : State) : Bool := decide ((acceptTmb f s).twinLink.rxTmb = [] ∨ s.sys.phase ≠ .running)
theorem tmbIdle_sound {f : List Byte} {s : State} (h : tmbIdle f s = true) : TmbIdle f s := by
  simpa [tmbIdle, TmbIdle] using h
/-- A paired unit whose twin link is up, with a lease state. -/
def twin (l : LeaseState) : State :=
  { one with twin := { paired := true, lease := l }, twinLink := { one.twinLink with linkUp := true, stage := .up }, clock := 100000000 }
/-- The standby that mirrors. -/
def follower : State := { twin .none_ with sys := { one.sys with mode := .follow } }
/-- A PTP message of a type from a port, with its sequence, and its tail from byte 34 on. -/
def ptpMsg (type port seq flags log : Nat) (tail : List Byte) : List Byte :=
  leBytes 1 type ++ zeros 5 ++ leBytes 1 flags ++ zeros 13 ++ (leBytes 10 port).reverse ++ (leBytes 2 seq).reverse ++ zeros 1 ++ leBytes 1 log ++ tail
/-- An Announce from a port, with its stepsRemoved. -/
def announce (port steps : Nat) : List Byte := ptpMsg 0xB port 0 0 0 (zeros 27 ++ (leBytes 2 steps).reverse ++ zeros 1)
/-- A unit under PTP, with messages that wait. -/
def slave (q : List (Nat × List Byte)) (p : Ptp) : State := { up with time := { params := [⟨1, 0, 1⟩], ptp := { p with inbox := q } }, eth := { link := true } }
/-- The unit with the foreign master of an Announce noted. -/
def noted (m : List Byte) (u : State) : State :=
  setPtp (fun q => { q with
    foreign := announcedBy u m :: q.foreign.filter fun x => x.port ≠ (announcedBy u m).port
    announceAt := if q.master = some (announcedBy u m).port then u.clock else q.announceAt }) u
/-- A control block of a type with its bytes 1 on, and its check byte. -/
def block0 (type : Byte) (rest : List Byte) : List Byte := let b := padTo 15 (type :: rest); b ++ [xorBytes b]
/-- The header of a slice of one line of the head and its stream table, with the header's check value, for a sequence number. -/
def sliceHead (no : Nat) : List Byte :=
  let a := leBytes 4 0x45434C53 ++ [1, 1, 3, 1] ++ leBytes 4 0 ++ leBytes 4 no ++ leBytes 4 0 ++ leBytes 4 1 ++ leBytes 4 160
  let t := [0, 1] ++ leBytes 2 0 ++ leBytes 4 256 ++ leBytes 4 64 ++ leBytes 4 96 ++ leBytes 4 96 ++ zeros 12
  a ++ leBytes 4 (crc32c (a ++ t)).toNat ++ t
/-- A job open with a slice stored at 0. -/
def posting (no : Nat) : State := { one with
  job := { isOpen := true }, codec := { one.codec with needStart := true }, mem := { one.mem with dram := Mem.writeN [] 0 (sliceHead no) }
  mbx := { one.mbx with current := some (cmd 0x0401 (zeros 8 ++ leBytes 4 160)) } }
/-- The unit with a command of an opcode and a payload in EXEC. -/
def doing (op : Nat) (p : List Byte) (s : State) : State := { s with mbx := { s.mbx with current := some (cmd op p) } }
/-- A payload with fields set: each by its offset, its length and its value. -/
def pay (fs : List (Nat × Nat × Nat)) : List Byte := fs.foldl (fun b f => b.take f.1 ++ leBytes f.2.1 f.2.2 ++ b.drop (f.1 + f.2.1)) (zeros 64)
/-- The payload of a parameter list: its target, and each item's parameter, index and value. -/
def lst (target : Nat) (its : List (Nat × Nat × Nat)) : List Byte :=
  leBytes 2 target ++ leBytes 2 its.length ++ zeros 4 ++ its.flatMap fun i => leBytes 2 i.1 ++ leBytes 2 i.2.1 ++ leBytes 8 i.2.2
/-- A head of 8192 nozzles. -/
def rec8 : HeadRecord := { rec0 with nozzles := 8192, rows := 8, order := 0x73625140 }
/-- A flash parameter table of Table 3.1: the density and the fast read it gives. -/
def bfpt0 : List Byte := leBytes 4 0x10000 ++ leBytes 4 0x7FFFFFF
/-- An image header with a version and a security version whose key is the generator of the curve, signed for no body. -/
def keyed (ver sec : Nat) : List Byte :=
  leBytes 4 0x55524556 ++ leBytes 4 1 ++ leBytes 4 ver ++ leBytes 2 0xFFFF ++ leBytes 2 sec ++ leBytes 4 0 ++ zeros 12 ++ leBytes 48 p384Gx ++
    leBytes 48 p384Gy ++ zeros 8 ++ leBytes 48 p384Gx ++
    leBytes 48 0x8277cf6204454036e53f5cd2e9adc06d42b9a654354d71e2c6ea6b0802d2bc4f385339316e4405ba103006301a4c3774 ++ zeros 24
/-- The part in a phase of its start, with two such images in the flash and the hash of their key fused. -/
def booting (ph : BootPhase) : State := { up with sys := { up.sys with
  mode := .boot, phase := ph, keyHash := sha384 (leBytes 48 p384Gx ++ leBytes 48 p384Gy), slotHead0 := keyed 7 0, slotHead1 := keyed 8 0, secVer := 0 } }
/-- The unit with a command of an opcode, its flags and a sequence number pending in mailbox 0. -/
def ringing (op flags sq : Nat) (s : State) : State := { s with mbx := { s.mbx with
  area := Mem.writeN [] 0x4000 (leBytes 2 op ++ leBytes 2 flags ++ leBytes 4 sq ++ zeros 8), order := [0]
  box := s.mbx.box.set 0 { state := .pending } } }
/-- The unit committing a pair, with the parameters of its heads. -/
def pairing (heads : List ParamSet) (u : State) : State := { u with
  sys := { u.sys with mode := .configure, transition := some { target := .idle, cause := 0x0203, waiting := some (cmd 0x0203 []) } }
  twin := { u.twin with paired := false, lease := .none_ }
  cfg := { u.cfg with staged := { u.cfg.staged with heads := Vector.ofFn fun i => heads.getD i.val [], twin := [⟨1, 0, 1⟩] } }
  heads := u.heads.set 1 { present := true, record := some rec0 }
  wave := (u.wave.set 0 { banks := Vector.replicate 2 (some bank0) }).set 1 { banks := Vector.replicate 2 (some bank0) }
  swath := { u.swath with grey := (u.swath.grey.set 0 { active := some ⟨[], [], 0⟩ }).set 1 { active := some ⟨[], [], 0⟩ } } }
/-- Two heads that overlap, stitched at a cut. -/
def stitched : List ParamSet := [[⟨1, 0, 1⟩, ⟨4, 0, 1⟩, ⟨5, 0, 8⟩, ⟨6, 0, 1⟩, ⟨10, 0, 4⟩], [⟨1, 0, 1⟩, ⟨10, 0, 4⟩]]
/-- A job open that is paced by channel 0 in QUAD_X4. -/
def paced : State := { one with
  fbk := one.fbk.set 0 { one.fbk[0] with params := [⟨1, 0, 3⟩] }
  job := { isOpen := true, params := [⟨1, 0, 0⟩, ⟨3, 0, 100⟩, ⟨7, 0, 1⟩, ⟨11, 0, 1⟩] } }
/-- The unit printing with a fire cycle at port 0 and a line shifted there. -/
def cycling (c : Cycle) : State := { firing with
  clock := 100000, swath.line := firing.swath.line.set 0 { shifted := some (line0, 0) }
  wave := firing.wave.set 0 { on := true, banks := Vector.replicate 2 (some bank0), cycles := [c] } }
/-- The limits in force once deferred ones are. -/
def limitsNow (x : Axis) : Limits := match x.deferred with | none => x.lim | some (d, j) => { x.lim with d := d, j := j }
/-- The unit with an axis 0. -/
def axis0 (x : Axis) : State := { one with axes := one.axes.set 0 x }
/-- The unit with axis 0 committed with further parameters. -/
def homes (items : ParamSet) : State := { one with cfg.live.axes := one.cfg.live.axes.set 0 ([⟨1, 0, 1⟩] ++ items) }
/-- The correctable beats, uncorrectable lines and poisoned lines that the scrubber counts of a DRAM line. -/
def scrubbed (s : State) (la : Nat) : Nat × Nat × Nat := match lineState s la with
  | .good => (((List.range 8).filter fun k => beatSyndrome s (la + 8 * k) != 0).length, 0, 0)
  | .bad _ => (0, 1, 0)
  | .poisoned => (0, 0, 1)
/-- The same of an on-die word with a syndrome. -/
def scrubbedWord (y : BitVec 8) : Nat × Nat × Nat := match classify y with
  | .clean => (0, 0, 0)
  | .uncorrectable => (0, 1, 0)
  | .poison => (0, 0, 1)
  | _ => (1, 0, 0)
/-- The same of what the scrubber reads next. -/
def scrubCounts (s : State) (y : BitVec 8) : Nat × Nat × Nat := if s.mem.scrub.sram then scrubbedWord y else scrubbed s s.mem.scrub.pos
/-- The unit with a TMB message waiting. -/
def hearing (m : List Byte) (s : State) : State := { s with twinLink := { s.twinLink with rxTmb := [(0, m)] } }
/-- A handover with a trigger is due to begin. -/
def dueAt (s : State) (tr : Nat) : Bool :=
  decide ((s.sys.mode = .idle ∨ s.sys.mode = .hold ∨ (s.sys.mode = .print ∧ s.swath.active = false)) ∧ dueTrigger s = some tr ∧ pairOn s = true ∧
    s.twin.lease ≠ .none_ ∧ moving s = false)
/-- A handover passed is due to take the bar. -/
def dueTake (s : State) (h : Handover) : Bool :=
  decide (s.twin.hand = some h ∧ h.step = .passed ∧ pairOn s = true ∧ s.twin.lease = .none_ ∧ leaseTakeable s = true ∧ peerLow 800 0 s = true)
/-- A paired unit in a step of a handover. -/
def handing (l : LeaseState) (st : HandStep) : State := { twin l with twin := { (twin l).twin with hand := some { trigger := 2, step := st }, vValid := true } }
/-- The unit with the answer to its HANDOVER waiting, with a status. -/
def answered (st : Nat) (s : State) : State := hearing (tmbMessage st 0 []) { s with twin := { s.twin with tmbOut := [(0, 0xF002, [])] } }
/-- The standby with a mirror record waiting. -/
def mirrored (b : List Byte) : State := { follower with twinLink := { follower.twinLink with rxMirror := [b] } }
/-- A frame in the Ethernet transmit queue for a launch time. -/
def queued (t : Nat) : TxEntry := { frame := [], t := t, asap := true, lateWin := 0, ts := false, tsId := 0, notify := false, own := false }
/-- A lane that has locked and has seen the blocks of every stage of bring-up. -/
def lane1 : Lane := { use := .active, lock := true, peerPassed := true, aligns := 4, train1 := 8, train2 := 16 }
/-- The host link in a stage of bring-up with such lanes. -/
def staged (st : LinkStage) (n : Lane) : State := { up with
  clock := 100000000, host := { stage := st, target := 5, peerRates := 63, peerMinW := 2, lanes := Vector.replicate 9 n } }
/-- A frame of Table 4.8 with a sequence number. -/
def frameNo (no type be len : Nat) (data : List Byte) : List Byte :=
  let h := leBytes 1 type ++ leBytes 1 be ++ leBytes 2 no ++ leBytes 2 len ++ zeros 10 ++ data
  h ++ leBytes 4 (crc32c (leBytes 4 no ++ h)).toNat
/-- A request keeps the ranges of its row of Table 4.9. -/
def fitsRow (ty : Nat) (h : FrameHeader) : Bool := match ty with
  | 1 => decide (h.len ≤ 4096 ∧ h.tag = 0 ∧ h.addr < 2 ^ 40)
  | 2 => decide (h.be = 0 ∧ h.len = 0 ∧ h.addr < 2 ^ 53 ∧ 4 ≤ mrdLen h ∧ mrdLen h ≤ 4096 ∧ mrdLen h % 4 = 0)
  | 4 => decide (h.len ≤ 1024 ∧ h.tag = 0 ∧ h.addr < 2 ^ 16)
  | _ => decide (h.be = 0 ∧ h.len = 0 ∧ h.addr < 2 ^ 27 ∧ 4 ≤ rrdLen h ∧ rrdLen h ≤ 1024 ∧ rrdLen h % 4 = 0)
/-- The channel that a request takes (Table 4.10). -/
def vcRow (ty : Nat) : Nat := if ty = 1 then 1 else if ty = 2 then 2 else 0
/-- The unit with a life export under way, compressed or not. -/
def exporting (c : Bool) : State := { one with life := { one.life with export_ := some { addr := 0, cap := 1048576, compress := c } } }
/-- The request of a life export. -/
def lifeReq : CodecReq := { owner := .lifeExport, unit := 0x10, deflate := true, ctx := 0, inAddr := 0, inLen := 0, outAddr := 0, outCap := 0,
                            limit := 0, entry := 0, start := true, final := true, tag := 0 }

/-! ## Worked examples of the manual -/

/-- Chapter 0: 0x00042000 is stored as 00, 20, 04, 00. -/
theorem test_little_endian : leBytes 4 0x00042000 = [0x00, 0x20, 0x04, 0x00] := by decide +kernel

/-- The bytes of the text "123456789", of which R97, R108 and R259 give the check values. -/
def digits : List Byte := [0x31, 0x32, 0x33, 0x34, 0x35, 0x36, 0x37, 0x38, 0x39]

/-- The check values that R97 (CRC-16), R108 (CRC-32C) and R259 (CRC-8) give. -/
theorem test_check_values : crc16 digits = 0x29B1 ∧ crc32c digits = 0xE3069283 ∧ crc8 digits = 0xF4 := by decide +kernel

/-- 13.4: data 0 at beat 0 has check bits 0; data bit 0 flipped gives the syndrome 0x07, which is corrected. -/
theorem test_ecc_example : checkBits 0 0 = 0 ∧ checkBits 0 1 = 0x07 ∧ classify 0x07 = .dataBit 0 := by decide +kernel

/-- 13.12: address 0x4A3C1F40 lies on DRC1, rank 0, bank group 1, bank 0, row 0x128F; the syndrome 0x3C is uncorrectable. -/
theorem test_dram_address :
    rowAddr { up with cfg := { up.cfg with staged := { up.cfg.staged with mem := [⟨1, 0, 8⟩] }, live := { up.cfg.live with mem := [⟨1, 0, 8⟩] } } }
        0x4A3C1F40 = { ch := 1, rank := 0, bg := 1, bank := 0, row := 0x128F } ∧
      localOf 0x4A3C1F40 = 0x251E0F40 ∧ classify 0x3C = .uncorrectable := by decide +kernel

/-- 6.3: nozzle 8100 lies in row 2 at position 1012; mirrored, it has p = 91 and lies in row 5 at position 11. -/
theorem test_mapping : rowOfNozzle rec8 false 8100 = 2 ∧ physIndex false 8192 8100 / 8 = 1012 ∧ physIndex true 8192 8100 = 91 ∧
    rowOfNozzle rec8 true 8100 = 5 ∧ physIndex true 8192 8100 / 8 = 11 ∧ nozzleAt rec8 false 2 1012 = 8100 ∧ nozzleAt rec8 true 5 11 = 8100 := by
  decide +kernel

/-- 6.13: an even port of the bar takes 172032 bytes of delay line, an odd one 1400832. -/
theorem test_delay_bytes :
    delayBytes 3 rec8 ((List.range 8).map fun r => ⟨3, r, 16 * r⟩) = 172032 ∧
      delayBytes 3 rec8 ((List.range 8).map fun r => ⟨3, r, 400 + 16 * r⟩) = 1400832 := by decide +kernel

/-- 7.9: the gain, and the peak and the trough scaled by it about the rest 32768. -/
theorem test_gain : gainOf 17203 16384 = 17203 ∧ scaled 32768 17203 56000 = 57161 ∧ scaled 32768 17203 20000 = 19362 := by decide +kernel

/-- 16.10: slot 5, 1 ms after TB across the wrap of its low 40 bits, is not due; slot 6, 32 µs before TB, is. -/
theorem test_slot_due :
    slotReached { up with time := { tb := 0x1858A3FFFFFFF000 } } { armed := true, t := 0x1858A400000F3240 } = false ∧
      slotReached { up with time := { tb := 0x1858A3FFFFFFF000 } } { armed := true, t := 0x1858A3FFFFFFF000 - 32000 } = true := by decide +kernel

/-- Table 3.6: MB2's command area is at 0x5000 and its response area at 0x5400. -/
theorem test_mailbox_areas : cmdArea 2 = 0x5000 ∧ respArea 2 = 0x5400 := by decide

/-- The payload of `cfg.head` in the worked example of 18.10. -/
def hp9 : List Byte :=
  [9, 0, 4, 0, 0, 0, 0, 0] ++ leBytes 2 1 ++ leBytes 2 0 ++ leBytes 8 1 ++ [0x03, 0x00, 0x03, 0x00, 0x32, 0x00, 0x00, 0x00, 0x00, 0x00, 0x00, 0x00] ++
    leBytes 2 4 ++ leBytes 2 0 ++ leBytes 8 10 ++ leBytes 2 5 ++ leBytes 2 0 ++ leBytes 8 128

/-- The unit of that example, in CONFIGURE with a record read for HP9. -/
def bar9 : State := { up with
  sys := { up.sys with mode := .configure }
  heads := up.heads.set 9 { present := true, record := some rec8, committed := some rec8 } }

/-- 18.10, steps 1 to 3: the list is taken; a CUT of 200 above the OVERLAP of 128 then has the detail 0x8000. -/
theorem test_configuring_hp9 :
    (cfgHead hp9 bar9).1.status = .ok ∧ cutIn (nthOr (cfgHead hp9 bar9).2.cfg.staged.heads 9 []) = 64 ∧
      (let r := (cfgHead ([9, 0, 1, 0, 0, 0, 0, 0] ++ leBytes 2 7 ++ leBytes 2 0 ++ leBytes 8 200) (cfgHead hp9 bar9).2).1
       r.status = .badArg ∧ r.detail = 0x8000) := by decide +kernel

/-- Table 9.8: in QUAD_X4 the moves 00 to 10, 10 to 11, 11 to 01 and 01 to 00 count +1, 11 to 10 counts -1, and 00 to 11 is illegal. -/
theorem test_quadrature :
    decodeCount { params := [⟨1, 0, 3⟩] } true false = some 1 ∧ decodeCount { params := [⟨1, 0, 3⟩], a := true } true true = some 1 ∧
      decodeCount { params := [⟨1, 0, 3⟩], a := true, b := true } false true = some 1 ∧ decodeCount { params := [⟨1, 0, 3⟩], b := true } false false = some 1 ∧
      decodeCount { params := [⟨1, 0, 3⟩], a := true, b := true } true false = some (-1) ∧ decodeCount { params := [⟨1, 0, 3⟩] } true true = none := by decide +kernel

/-! ## Well-formedness: each check refuses an ill-formed command -/

theorem test_wf_register : (Instr.registerWrite .host 2 0).wf = false ∧ (Instr.registerWrite .host 4 0).wf = true := by decide +kernel
theorem test_wf_train : (Instr.train1Received 0 0 (zeros 15)).wf = false ∧ (Instr.train2Received 1 3 (zeros 16)).wf = false ∧
    (Instr.skipReceived 2 2 (zeros 16)).wf = false ∧ (Instr.train1Received 0 8 (zeros 16)).wf = true := by decide +kernel
theorem test_wf_align : (Instr.alignReceived 1 3 (zeros 16) []).wf = false ∧ (Instr.alignReceived 0 0 (zeros 17) []).wf = false ∧
    (Instr.alignReceived 2 1 (zeros 16) []).wf = true := by decide +kernel
theorem test_wf_lanes : (Instr.invalidBlockReceived 1 3 0 (zeros 16)).wf = false ∧ (Instr.invalidBlockReceived 1 2 0 []).wf = false ∧
    (Instr.laneLockLost 1 3).wf = false ∧ (Instr.spareReq 1 3).wf = false ∧ (Instr.spareReq 1 2).wf = true := by decide +kernel
theorem test_wf_masks : (Instr.linkLockDone 1 8).wf = false ∧ (Instr.linkStageTimeout 1 8).wf = false ∧ (Instr.recoveryRetrainDone 1 8).wf = false ∧
    (Instr.linkLockDone 0 8).wf = true := by decide +kernel
theorem test_wf_preparation : (Instr.lineToken 0 (.ecc (1000 * 8192) 0)).wf = false ∧ (Instr.swathStartPermission 0 (.pair 256 false)).wf = false ∧
    (Instr.lineRecord (zeros 16) (.pair 256 true)).wf = false ∧ (Instr.lineRecord (zeros 16) .none_).wf = true := by decide +kernel
theorem test_wf_numbers : (Instr.tableBuildDone 17).wf = false ∧ (Instr.ptpSyncReceived 61).wf = false ∧ (Instr.ptpSyncReceived (-60)).wf = true ∧
    (Instr.suppressedEventReport 65536 0).wf = false ∧ (Instr.fnReinit [0x75] 0).wf = false ∧ (Instr.codecRequestEnd 9 0 [] [] []).wf = false ∧
    (Instr.codecRequestEnd 0x11 0 [] [] []).wf = true := by decide +kernel
theorem test_wf_lengths : (Instr.flashDiscoveryDone { sfdp := [], bfpt := [], slot0 := zeros 255, slot1 := zeros 256 }).wf = false ∧
    (Instr.headRecordReadDone 0 [] []).wf = false ∧ (Instr.headRead [] []).wf = false ∧ (Instr.headWrite [.noAck] []).wf = false ∧
    (Instr.headRead [] (zeros 1024)).wf = true := by decide +kernel
theorem test_wf_upset : (Instr.dramRefresh 0 .none_ [⟨4, 0, 0⟩]).wf = false ∧ (Instr.dramRefresh 0 .none_ [⟨8, 0, 0⟩]).wf = true := by decide +kernel

/-! ## The hypotheses of the statements -/

/-- The hypotheses of each clause of O1 are met. -/
theorem test_StepRunsTheFrontCommand :
    ∃ (c : Instr) (rest : List Instr) (s : State), s.pending = c :: rest :=
  ⟨.mainSuppliesFall, [], { up with pending := [.mainSuppliesFall] }, by decide +kernel⟩

/-- The hypotheses of each clause of O2 are met. -/
theorem test_EmptyQueueLetsOneClockPass :
    (∃ s : State, s.pending = [] ∧ (s.sys.phase = .inReset ∨ s.sys.mode = .keepalive)) ∧
    (∃ s : State, s.pending = [] ∧ s.fawn.phase + 163840 < 4000000000) ∧
    (∃ s : State, s.pending = [] ∧ 4000000000 ≤ s.fawn.phase + 163840) ∧
    (∃ (s : State) (f : Flush) (g : Nat) (rest : List Nat), s.life.flush = some f ∧ flushMayEnd { s with clock := s.clock + 1 } = true ∧
      lifeWritable s = true ∧ s.life.due = [] ∧ (∀ a, s.audit.pass = some a → s.sys.mode ≠ .audit) ∧ Memory.wf s.life.nv.mram = true ∧
      s.life.pendingLog = [] ∧ s.life.pendingModes = [] ∧ s.life.nv.synd = [] ∧ s.life.nv.weak = [] ∧ s.mem.ondie = [] ∧ groupsLeft s = g :: rest ∧ g < 32768) ∧
    (∃ s : State, QuietClock s) :=
  ⟨⟨{ up with pending := [], sys.phase := .inReset }, by decide +kernel⟩,
   ⟨{ up with pending := [] }, by decide +kernel⟩,
   ⟨{ up with pending := [], fawn.phase := 3999999999 }, by decide +kernel⟩,
   ⟨{ up with life.acc := [(8194, 5)], life.flush := some { trigger := 2, clean := false, startAt := 0 } }, { trigger := 2, clean := false, startAt := 0 },
     2048, [], by decide +kernel, by decide +kernel, by decide +kernel, by decide +kernel, nofun, by decide +kernel, by decide +kernel,
     by decide +kernel, by decide +kernel, by decide +kernel, by decide +kernel, by decide +kernel, by decide +kernel⟩,
   ⟨up, rfl, rfl, nofun⟩⟩

/-- The hypotheses of each clause of O4 are met. -/
theorem test_CommandsLeaveQueueAndClockAlone :
    ∃ (c : Instr) (s t : State), exec c s = .next t :=
  ⟨.countersReport, up, _, rfl⟩

/-- The hypotheses of each clause of O5 are met. -/
theorem test_SecurityVersionNeverFalls :
    (∃ (s t : State), step s = .next t) ∧
    (∃ (c : Instr) (s t : State), c ≠ .sysSecver ∧ exec c s = .next t) :=
  ⟨⟨up, _, rfl⟩,
   ⟨.countersReport, up, _, by decide, rfl⟩⟩

/-- The hypotheses of each clause of O6 are met. -/
theorem test_MemoriesStayCanonical :
    ∃ (s t : State), Memory.wf s.mem.dram = true ∧ Memory.wf s.mbx.area = true ∧ Memory.wf s.life.nv.mram = true ∧ step s = .next t :=
  ⟨up, _, by decide, by decide, by decide, rfl⟩

/-- The hypotheses of each clause of O7 are met. -/
theorem test_MailboxesStayInOrder :
    ∃ (s t : State), MailboxesInOrder s ∧ step s = .next t :=
  ⟨up, _, ⟨by decide, by decide, nofun, by decide⟩, rfl⟩

/-- The hypotheses of each clause of O8 are met. -/
theorem test_StartSequenceRunsInOrder : (
  [ (let s : State := { up with sys.phase := .inReset, sys.supplies := true, sys.resetPending := false };
      s.sys.supplies && decide (s.sys.phase = .inReset ∨ s.sys.mode = .keepalive) && !s.sys.resetPending),
    (let s : State := { up with sys.resetPending := true };
      s.sys.resetPending),
    (let s : State := { booting .loading with sys.candidates := [1, 0], sys.slot := 1 };
      !s.sys.resetPending && decide (s.sys.supplies = false ∨ (s.sys.phase ≠ .inReset ∧ s.sys.mode ≠ .keepalive))),
    (let s : State := { up with sys.phase := .locking };
      decide (s.sys.phase = .locking)),
    (let s : State := { up with sys.phase := .sweeping, sys.straps.bootHold := false };
      decide (s.sys.phase = .sweeping) && !s.sys.straps.bootHold),
    (let s : State := { up with sys.phase := .sweeping, sys.straps.bootHold := true };
      decide (s.sys.phase = .sweeping) && s.sys.straps.bootHold),
    (let f : Flash := { sfdp := leBytes 4 0, bfpt := [], slot0 := [], slot1 := [] }; let s : State := booting .discovering;
      decide (s.sys.phase = .discovering ∧ uAt f.sfdp 0 4 ≠ 0x50444653)),
    (let f : Flash := { sfdp := leBytes 4 0x50444653, bfpt := [], slot0 := [], slot1 := [] }; let s : State := booting .discovering;
      decide (s.sys.phase = .discovering ∧ uAt f.sfdp 0 4 = 0x50444653 ∧ (flashFits f.bfpt = false ∨ flashReadMode f.bfpt = none))),
    (let f : Flash := { sfdp := leBytes 4 0x50444653, bfpt := bfpt0, slot0 := [], slot1 := [] }; let s : State := booting .discovering;
      (if let some _ := flashReadMode f.bfpt then (decide (s.sys.phase = .discovering ∧ uAt f.sfdp 0 4 = 0x50444653) && flashFits f.bfpt &&
        decide (slotCandidates s.sys.straps.bootSlot1 f.slot0 f.slot1 = [])) else false)),
    (let f : Flash := { sfdp := leBytes 4 0x50444653, bfpt := bfpt0, slot0 := keyed 7 0, slot1 := keyed 8 0 };
      let s : State := booting .discovering;
      (if let some _ := flashReadMode f.bfpt then ((if let n :: _ := slotCandidates s.sys.straps.bootSlot1 f.slot0 f.slot1 then
        (decide (s.sys.phase = .discovering ∧ uAt f.sfdp 0 4 = 0x50444653) && flashFits f.bfpt && decide (headFailure (if n = 0 then
        f.slot0 else f.slot1) s = none)) else false)) else false)),
    (let f : Flash := { sfdp := leBytes 4 0x50444653, bfpt := bfpt0, slot0 := keyed 7 0, slot1 := keyed 8 0xFFFF };
      let s : State := booting .discovering;
      (if let some _ := flashReadMode f.bfpt then ((if let [n, k] := slotCandidates s.sys.straps.bootSlot1 f.slot0 f.slot1 then
        ((if let some _ := headFailure (if n = 0 then f.slot0 else f.slot1) s then (decide (s.sys.phase = .discovering ∧
        uAt f.sfdp 0 4 = 0x50444653) && flashFits f.bfpt && decide (headFailure (if k = 0 then
        f.slot0 else f.slot1) s = none)) else false)) else false)) else false)),
    (let f : Flash := { sfdp := leBytes 4 0x50444653, bfpt := bfpt0, slot0 := keyed 7 64, slot1 := [] }; let s : State := booting .discovering;
      (if let some _ := flashReadMode f.bfpt then ((if let [n] := slotCandidates s.sys.straps.bootSlot1 f.slot0 f.slot1 then
        ((if let some _ := headFailure (if n = 0 then f.slot0 else f.slot1) s then (decide (s.sys.phase = .discovering ∧
        uAt f.sfdp 0 4 = 0x50444653) && flashFits f.bfpt) else false)) else false)) else false)),
    (let h0 : List Byte := (leBytes 4 0x55524556 ++ leBytes 4 1 ++ zeros 4 ++ leBytes 2 2 ++ leBytes 2 63 ++ leBytes 4 0 ++ zeros 236);
      let h1 : List Byte := (leBytes 4 0x55524556 ++ leBytes 4 1 ++ zeros 4 ++ leBytes 2 2 ++ leBytes 2 63 ++ leBytes 4 0 ++ zeros 236);
      decide (uAt h0 0 4 = 0x55524556 ∧ uAt h1 0 4 = 0x55524556)),
    (let body : List Byte := [0]; let s : State := { booting .loading with sys.candidates := [0] };
      decide (s.sys.phase = .loading ∧ body.length = uAt (slotHead s.sys.slot s) 4 4) && signatureOk (slotHead s.sys.slot s) body),
    (let body : List Byte := [1]; let s : State := { booting .loading with sys.candidates := [0] };
      decide (s.sys.phase = .loading ∧ body.length = uAt (slotHead s.sys.slot s) 4 4) && !(signatureOk (slotHead s.sys.slot s) body) &&
        decide (s.sys.candidates.drop 1 = [])),
    (let body : List Byte := [1]; let s : State := { booting .loading with sys.candidates := [1, 0], sys.slot := 1 };
      (if let n :: _ := s.sys.candidates.drop 1 then (decide (s.sys.phase = .loading ∧ body.length = uAt (slotHead s.sys.slot s) 4 4) &&
        !(signatureOk (slotHead s.sys.slot s) body) && decide (headFailure (slotHead n s) s = none)) else false)),
    (let s : State := { up with sys.phase := .starting, sys.pwrFailN := true };
      decide (s.sys.phase = .starting) && !s.sys.resetPending),
    (let s : State := { up with sys.phase := .starting, sys.resetPending := true };
      s.sys.resetPending) ] : List Bool).all id = true := by
  decide +kernel

/-- The hypotheses of each clause of O9 are met. -/
theorem test_PowerAndResetKeepOnlyWhatTheManualKeeps : (
  [ (let s : State := { up with sys.mode := .keepalive, sys.resetN := true };
      decide (s.sys.mode = .keepalive) && s.sys.resetN),
    (let s : State := { up with sys.mode := .keepalive, sys.resetN := false };
      decide (s.sys.mode = .keepalive) && !s.sys.resetN),
    (let s : State := { up with sys.mode := .boot };
      decide (s.sys.mode = .boot)),
    (let s : State := up;
      decide (s.sys.mode ≠ .boot ∧ s.sys.mode ≠ .keepalive)),
    (let s : State := { up with sys.resetPending := true, sys.resetN := true, sys.mode := .boot };
      s.sys.resetPending && flushMayEnd s) ] : List Bool).all id = true := by
  decide +kernel

/-- The hypotheses of each clause of O10 are met. -/
theorem test_PowerFailAndSafestopEnterSafestop : (
  [ (let v : Word := 15450; let s : State := up;
      windowReady s && verupRuns s && decide (v.setWidth 16 = (0x3C5A : BitVec 16) ∧ s.sys.mode ≠ .boot ∧ s.sys.mode ≠ .safestop)),
    (let v : Word := 0; let s : State := up;
      decide (v.setWidth 16 ≠ (0x3C5A : BitVec 16) ∨ s.sys.mode = .boot ∨ s.sys.mode = .safestop ∨ windowReady s = false)),
    (let s := doing 0x0102 [] up; let c := cmd 0x0102 [];
      isDoing s 0x0102 c) ] : List Bool).all id = true := by
  decide +kernel

/-- The hypotheses of each clause of O11 are met. -/
theorem test_TimNowReadsLatchTheUpperWord : (
  [ (let s : State := { up with win.holdHost := some 1 };
      (if let some _ := s.win.holdHost then (windowReady s) else false)),
    (let s : State := { up with win.holdSpi := some 1 };
      (if let some _ := s.win.holdSpi then (windowReady s) else false)),
    (let s : State := { up with win.holdSpi := some 1 };
      windowReady s && decide (s.win.holdHost = none)),
    (let s : State := { up with win.holdHost := some 1 };
      windowReady s && decide (s.win.holdSpi = none)) ] : List Bool).all id = true := by
  decide +kernel

/-- The hypotheses of each clause of O12 are met. -/
theorem test_EvrReadIndexMovesOrSetsRdBad : (
  [ (let v : Word := 0; let s : State := { up with evr.wr := 1024 };
      verupRuns s && windowReady s && decide ((s.evr.wr - v.setWidth 16).toNat ≤ 1024)),
    (let v : Word := 65535; let s : State := { up with evr.wr := 1024 };
      verupRuns s && windowReady s && decide (1024 < (s.evr.wr - v.setWidth 16).toNat)) ] : List Bool).all id = true := by
  decide +kernel

/-- The hypotheses of each clause of O13 are met. -/
theorem test_MailboxDoorbellsMoveTheStates : (
  [ (let p : Port := .host; let n : Fin 8 := 0; let s : State := { up with mbx.box := up.mbx.box.set 0 { up.mbx.box[0] with state := .idle } };
      verupRuns s && decide (boundPort s n = p ∧ s.mbx.box[n].state = .idle ∧ (s.mbx.fmt1 = true → n.val < 4))),
    (let p : Port := .host; let n : Fin 8 := 0;
      let s : State := { up with mbx.box := up.mbx.box.set 0 { up.mbx.box[0] with state := .pending } };
      verupRuns s && decide (boundPort s n = p ∧ (s.mbx.box[n].state ≠ .idle ∨ (s.mbx.fmt1 = true ∧ 4 ≤ n.val)))),
    (let p : Port := .host; let n : Fin 8 := 7; let s : State := { up with mbx.box := up.mbx.box.set 0 { up.mbx.box[0] with state := .idle } };
      verupRuns s && decide (boundPort s n ≠ p)),
    (let p : Port := .host; let n : Fin 8 := 0; let s : State := { up with mbx.box := up.mbx.box.set 0 { up.mbx.box[0] with state := .done } };
      verupRuns s && decide (boundPort s n = p ∧ s.mbx.box[n].state = .done)),
    (let p : Port := .host; let n : Fin 8 := 0; let s : State := { up with mbx.box := up.mbx.box.set 0 { up.mbx.box[0] with state := .idle } };
      decide (boundPort s n ≠ p ∨ s.mbx.box[n].state ≠ .done)),
    (let s : State := { up with mbx.box := up.mbx.box.set 0 { up.mbx.box[0] with state := .idle } };
      verupRuns s && windowReady s),
    (let s : State := State.reset;
      !(verupRuns s)) ] : List Bool).all id = true := by
  decide +kernel

/-- The hypotheses of each clause of O14 are met. -/
theorem test_AcceptanceFollowsTheSequence : (
  [ (let s : State := { ringing 0x0103 0 0 up with mbx.box := up.mbx.box.set 0 { state := .pending, seq := 0xFFFFFFFF } };
      (if let n :: rest := s.mbx.order then (verupRuns s && decide (s.mbx.current = none ∧ n ∉ rest) && Memory.wf s.mbx.area &&
        !(jobActionFirst n s) && decide ((s.mbx.fmt1 = true ∨ bitOf (headerOf n s).flags 1 = false ∨
        barrierFree s = true) ∧ BitVec.ofNat 32 (headerOf n s).seq = expectedSeq n s ∧
        judgeCommand (headerOf n s) (payloadOf n (headerOf n s) s) s = none)) else false)),
    (let s : State := { up with mbx.area := Mem.writeN [] 0x4000 (leBytes 2 0xFFFF ++ leBytes 2 0 ++ leBytes 4 0 ++ zeros 8), mbx.order := [0] };
      (if let n :: rest := s.mbx.order then ((if let some (_, _) := judgeCommand (headerOf n s) (payloadOf n (headerOf n s) s) s then (verupRuns s &&
        decide (s.mbx.current = none ∧ n ∉ rest) && Memory.wf s.mbx.area && !(jobActionFirst n s) && decide ((s.mbx.fmt1 = true ∨
        bitOf (headerOf n s).flags 1 = false ∨ barrierFree s = true) ∧
        BitVec.ofNat 32 (headerOf n s).seq = expectedSeq n s)) else false)) else false)),
    (let s : State := { ringing 0x0105 0 0xFFFFFFFF up with mbx.box := up.mbx.box.set 0 { state := .pending, executed := true } };
      (if let n :: rest := s.mbx.order then (verupRuns s && decide (s.mbx.current = none ∧ n ∉ rest) && Memory.wf s.mbx.area &&
        !(jobActionFirst n s) && decide ((s.mbx.fmt1 = true ∨ bitOf (headerOf n s).flags 1 = false ∨
        barrierFree s = true) ∧ opRow (headerOf n s).opcode = none)) else false)),
    (let s : State := { ringing 0x0105 0 0xFFFFFFFF up with mbx.box := up.mbx.box.set 0 { state := .pending, executed := true } };
      (if let n :: rest := s.mbx.order then (verupRuns s && decide (s.mbx.current = none ∧ n ∉ rest) && Memory.wf s.mbx.area &&
        !(jobActionFirst n s) && decide ((s.mbx.fmt1 = true ∨ bitOf (headerOf n s).flags 1 = false ∨
        barrierFree s = true) ∧ BitVec.ofNat 32 (headerOf n s).seq = s.mbx.box[n].seq ∧
        BitVec.ofNat 32 (headerOf n s).seq ≠ expectedSeq n s) && s.mbx.box[n].executed) else false)),
    (let s : State := { up with mbx.area := Mem.writeN [] 0x4000 (leBytes 2 0x0105 ++ leBytes 2 0 ++ leBytes 4 1 ++ zeros 8), mbx.order := [0] };
      (if let n :: rest := s.mbx.order then (verupRuns s && decide (s.mbx.current = none ∧ n ∉ rest) && Memory.wf s.mbx.area &&
        !(jobActionFirst n s) && decide ((s.mbx.fmt1 = true ∨ bitOf (headerOf n s).flags 1 = false ∨
        barrierFree s = true) ∧ BitVec.ofNat 32 (headerOf n s).seq ≠ expectedSeq n s ∧
        (BitVec.ofNat 32 (headerOf n s).seq ≠ s.mbx.box[n].seq ∨ s.mbx.box[n].executed = false))) else false)),
    (let s : State := { ringing 0x0103 2 0 up with mbx.bg := [(0, .flush)], mbx.bgNext := 1 };
      (if let [n] := s.mbx.order then (verupRuns s && decide (s.mbx.current = none) && !s.mbx.fmt1 && bitOf (headerOf n s).flags 1 &&
        decide (s.mbx.bg ≠ [] ∨ s.mbx.stuck ≠ [])) else false)),
    decide (up.mbx.bg = [] ∧ up.mbx.stuck = []),
    (let s : State := { ringing 0x0303 0 0 one with sys.mode := .print, time.slots := one.time.slots.set 0 { armed := true, kind := 4, t := 0, due := some 0 } };
      (if let n :: _ := s.mbx.order then (verupRuns s && jobActionFirst n s && decide (s.mbx.fmt1 = true ∨
        bitOf (headerOf n s).flags 1 = false)) else false)),
    (let e : WordErr := { bank := 0, word := 0, synd := 3 };
      let s : State := { ringing 0x0303 0 0 one with sys.mode := .print, time.slots := one.time.slots.set 0 { armed := true, kind := 4, t := 0 } };
      verupRuns s && decide (s.mbx.current = none ∧ s.sys.mode ≠ .boot) && (ownerFinds 0x74 5 ((416 + e.bank.val) * 8192 + e.word.val) e.synd s).1),
    (let i : Instr := .sysReset;
      (if let some op := commandOf i then (let s := doing op [] (doing 0x0101 [] { one with sys.mode := .print,
                                                                                            sys.transition := some { target := .idle, cause := 0 } });
        let c := cmd op []; (if let some _ := turnedAway op s then (isInExec s op c) else false)) else false)),
    (let i : Instr := .sysReset; let s : State := { one with mbx.stuck := [cmd 0x0102 []] };
      (if let some op := commandOf i then (((if let some c := s.mbx.current then decide (c.opcode ≠ op) else true)) &&
        s.mbx.stuck.all fun c => decide (c.opcode ≠ op)) else false)),
    (let i : Instr := .sysReset; let s : State := { one with mbx.stuck := [cmd 0x0101 [], cmd 0x0102 []], mbx.current := some (cmd 0x0103 []) };
      (if let some op := commandOf i then ((if let some d := s.mbx.current then decide (d.opcode ≠ op) else true) &&
        (if let c :: _ := s.mbx.stuck then decide (c.opcode = op) else false)) else false)) ] : List Bool).all id = true := by
  decide +kernel

/-- The hypotheses of each clause of O15 are met. -/
theorem test_WatchdogsAndRingLimitsReport : (
  [ (let n : Fin 8 := 7; let s : State := { up with mbx.box := up.mbx.box.set 7 { state := .exec }, clock := 8000001 };
      decide (s.mbx.box[n].state = .exec) && !(s.mbx.box[n].stalled) && decide (s.mbx.box[n].execAt + s.mbx.wdog.toNat * 800000 < s.clock ∧
        (∀ m : Fin 8, m < n → overdue s m = false) ∧ s.sys.mode ≠ .boot ∧ s.sys.mode ≠ .keepalive)),
    (let s : State := { up with evr.dirtyGroups := [1] };
      decide (∀ n : Fin 8, overdue s n = false)),
    (let s : State := { up with evr.dirtyGroups := [1] };
      decide (s.sys.phase = .running ∧ s.sys.mode ≠ .boot ∧ s.sys.mode ≠ .keepalive)),
    (let s : State := { up with sys.phase := .starting, sys.mode := .boot };
      decide (s.sys.phase = .starting ∧ s.sys.mode = .boot ∧ latchedAt s { level := .region, source := 5 } = none ∧ latchedAt s chipInst = none)),
    (let s : State := { up with evr.age := 1, evr.wr := 1, evr.ring := [{ code := 1, source := 0, flags := 0, status := 0, cont := 0, gap := 0,
                                                                           time := 0, payload := [], at_ := 0 }], clock := 8000 };
      (if let some e := s.evr.ring[s.evr.unread - 1]? then (decide (s.evr.age ≠ 0 ∧ s.evr.unread ≠ 0 ∧
        e.at_ + s.evr.age * 8000 ≤ s.clock)) else false)),
    (let s : State := { up with evr.dirtyGroups := [1] };
      decide (s.evr.age = 0 ∨ s.evr.unread = 0 ∨ ((((if let some e := s.evr.ring[s.evr.unread - 1]? then
        decide (s.clock < e.at_ + s.evr.age * 8000) else true)) = true)))),
    (let s : State := { up with evr.dirtyGroups := [1] };
      decide (s.sys.phase = .running ∧ s.evr.unread ≤ 1024)),
    (let s : State := { up with sys.phase := .running, evr.episode := true, evr.overflowWritten := false, evr.held := [{ code := 1 }],
                                 evr.wr := 1022 };
      (if let [e] := s.evr.held then (decide (s.sys.phase = .running) && s.evr.episode && !s.evr.overflowWritten && decide (e.payload.length ≤ 16 ∧
        s.evr.unread + 2 ≤ 1024)) else false)),
    (let s : State := { up with clock := 79999999, evr.limits := [{ code := 1, inst := 0, written := 0, suppressed := none }] };
      (if let some r := s.evr.limits.find? (fun r => r.code == 1 && r.inst == 0) then decide (s.clock < r.written + limitPeriod 1) else false)),
    (let s : State := { up with clock := 80000000, evr.limits := [{ code := 1, inst := 0, written := 0, suppressed := some { code := 1, source := 0, payload := [] } }] };
      let code : Nat := 1; let inst : Nat := 0;
      let r : LimitRec := { code := 1, inst := 0, written := 0, suppressed := some { code := 1, source := 0, payload := [] } };
      (if let some q := r.suppressed then (decide (s.sys.phase = .running) && !s.evr.episode && decide (s.evr.held = [] ∧
        s.evr.limits.find? (fun r => r.code == code && r.inst == inst) = some r ∧ r.written + limitPeriod code ≤ s.clock ∧ q.payload.length ≤ 16 ∧ s.evr.unread + 1 ≤ 1024)) else false)),
    (let s : State := { up with evr.dirtyGroups := [1] };
      (if let [g] := s.evr.dirtyGroups then (decide (s.sys.phase = .running) && !s.evr.episode && decide (s.evr.held = [] ∧ 1 ≤ g ∧ g ≤ 9 ∧ g ≠ 2 ∧
        g ≠ 5 ∧ (groupPayload g s).2.length ≤ 16 ∧ s.evr.unread + 1 ≤ 1024)) else false)) ] : List Bool).all id = true := by
  decide +kernel

/-- The hypotheses of each clause of O16 are met. -/
theorem test_RegisterWritesFollowTheAccessCodes : (
  [ (let v : Word := 1; let s : State := up;
      windowReady s && decide (v.setWidth 16 ≠ (0xA5C3 : BitVec 16))),
    (let v : Word := 42435; let s : State := up;
      windowReady s && decide (v.setWidth 16 = (0xA5C3 : BitVec 16))),
    (let v : Word := 1; let s : State := up;
      windowReady s && verupRuns s && decide (v.setWidth 8 ≠ (0 : BitVec 8))),
    (let v : Word := 0; let s : State := up;
      windowReady s && verupRuns s && decide (v.setWidth 8 = (0 : BitVec 8))),
    (let s : State := { up with mbx.box := up.mbx.box.set 0 { up.mbx.box[0] with state := .pending } }; let n : Fin 8 := 0;
      windowReady s && verupRuns s && decide (s.mbx.box[n].state = .pending ∨ s.mbx.box[n].state = .exec)),
    (let s : State := up; let n : Fin 8 := 0;
      windowReady s && verupRuns s && decide (s.mbx.box[n].state = .idle ∨ s.mbx.box[n].state = .done)),
    (let o : BitVec 16 := 0; let s : State := up;
      windowReady s && decide (0x8000 ≤ o.toNat ∨ (o.toNat < 0x4000 ∧ ¬ (0x1000 ≤ o.toNat ∧ o.toNat < 0x1080 ∧ o.toNat % 16 ≤ 4) ∧ o.toNat ∉ [0x18, 0x1C, 0x20, 0x28, 0x2C, 0x30, 0x1080, 0x1084, 0x10C4,
        0x10C8]))),
    (let o : BitVec 16 := 0; let s : State := State.reset;
      !(verupRuns s) && decide (o.toNat ∉ [0x18, 0x20, 0x28, 0x2C, 0x30])) ] : List Bool).all id = true := by
  decide +kernel

/-- The hypotheses of each clause of O17 are met. -/
theorem test_SpiFramesReadAndWriteTheWindow : (
  [ (let a : BitVec 16 := 0x4000; let bs : List Byte := [2, 1, 0]; let s : State := up;
      decide (s.sys.mode ≠ .keepalive) && windowReady s && decide (a.toNat % 4 = 0 ∧ 2 ≤ bs.length)),
    (let a : BitVec 16 := 0x4000; let bs : List Byte := [2, 1, 0]; let s : State := State.reset;
      decide (s.sys.mode ≠ .keepalive) && !(windowReady s) && decide (a.toNat % 4 = 0 ∧ 2 ≤ bs.length)),
    (let a : BitVec 16 := 0x4000; let s : State := up;
      decide (s.sys.mode ≠ .keepalive ∧ a.toNat % 4 = 0)),
    (let f : List Byte := [2, 1, 0]; let s : State := up;
      decide (s.sys.mode ≠ .keepalive ∧ (uAt f 0 1 ≠ 0x0B ∨ f.length < 4 ∨ uAt f 1 2 % 4 ≠ 0))),
    (let a : BitVec 16 := 0x4000; let rest : List Byte := [2, 1, 0]; let s : State := up;
      decide (s.sys.mode ≠ .keepalive) && windowReady s && decide (a.toNat % 4 = 0 ∧ rest.length < 4)),
    (let f : List Byte := [2, 1, 0]; let s : State := up;
      decide (s.sys.mode ≠ .keepalive ∧ uAt f 0 1 = 0x02 ∧ (f.length < 3 ∨ uAt f 1 2 % 4 ≠ 0 ∨ windowReady s = false))),
    (let f : List Byte := []; let s : State := up;
      decide (s.sys.mode ≠ .keepalive ∧ uAt f 0 1 ≠ 0x02)),
    (let s : State := { up with sys.mode := .keepalive };
      decide (s.sys.mode = .keepalive)) ] : List Bool).all id = true := by
  decide +kernel

/-- The hypotheses of each clause of O18 are met. -/
theorem test_ParameterListsSetExactlyTheirItems : (
  [ (let specs : List PSpec := [⟨1, 1, 0, 1, some 0⟩]; let rel : ParamSet → Option (List Nat) := noRelation; let ps : ParamSet := [];
      let its : List PItem := [{ id := 1, index := 0, value := 1 }];
      (if let .ok _ := judgeList specs rel ps its then ((its).any fun _ => (true)) else false)),
    (let specs : List PSpec := [⟨1, 1, 0, 1, some 0⟩]; let rel : ParamSet → Option (List Nat) := noRelation; let ps : ParamSet := [];
      let its : List PItem := [{ id := 1, index := 0, value := 1 }]; let id : Nat := 0; let index : Nat := 0;
      (if let .ok _ := judgeList specs rel ps its then (decide (∀ it ∈ its, it.id ≠ id ∨ it.index ≠ index)) else false)) ] : List Bool).all id = true := by
  decide +kernel

/-- The hypotheses of each clause of O19 are met. -/
theorem test_ConfigurationIsStagedAndCommitted : (
  [ (let pl : List Byte := lst 1 [(1, 0, 1)];
      let s := doing 0x0201 pl { one with sys.mode := .configure, heads := Vector.replicate 16 { present := true, record := some rec8 },
                                          cfg.staged.heads := Vector.ofFn fun p => if p.val = 0 then [] else ⟨1, 0,
                                          1⟩ :: (List.range 8).map fun r => ⟨3, r, 400 + 16 * r⟩ };
      let c := cmd 0x0201 pl;
      isDoing s 0x0201 c && decide (listTarget c.payload 0 ≠ 0)),
    (let pl : List Byte := lst 0 [(3, 0x3F, 1)];
      let s := doing 0x0201 pl { one with sys.mode := .configure, heads := Vector.replicate 16 { present := true, record := some rec8 },
                                          cfg.staged.heads := Vector.ofFn fun p => if p.val = 0 then [] else ⟨1, 0,
                                          1⟩ :: (List.range 8).map fun r => ⟨3, r, 400 + 16 * r⟩ };
      let c := cmd 0x0201 pl; let its : List PItem := spoil (fun it => it.id == 3 && !isBlock it.index) (listItems c.payload 0);
      (if let .ok _ := judgeList barSpecs (barRelation s.sys.straps.lgcySel) s.cfg.staged.bar its then (isDoing s 0x0201 c &&
        decide (listTarget c.payload 0 = 0)) else false)),
    (let pl : List Byte := lst 0 (([(1, 0, 1)] : List (Nat × Nat × Nat)) ++ (List.range 8).map fun r => (3, r, 400 + 16 * r));
      let s := doing 0x0201 pl { one with sys.mode := .configure, heads := Vector.replicate 16 { present := true, record := some rec8 },
                                          cfg.staged.heads := Vector.ofFn fun p => if p.val = 0 then [] else ⟨1, 0,
                                          1⟩ :: (List.range 8).map fun r => ⟨3, r, 400 + 16 * r⟩ };
      let c := cmd 0x0201 pl; let its : List PItem := spoil (fun it => it.id == 3 && !isBlock it.index) (listItems c.payload 0);
      (if let .error _ := judgeList barSpecs (barRelation s.sys.straps.lgcySel) s.cfg.staged.bar its then (isDoing s 0x0201 c &&
        decide (listTarget c.payload 0 = 0)) else false)),
    (let pl : List Byte := lst 16 [];
      let s := doing 0x0202 pl { one with sys.mode := .configure, heads := Vector.replicate 16 { present := true, record := some rec8 },
                                          cfg.staged.heads := Vector.ofFn fun p => if p.val = 0 then [] else ⟨1, 0,
                                          1⟩ :: (List.range 8).map fun r => ⟨3, r, 400 + 16 * r⟩ };
      let c := cmd 0x0202 pl;
      isDoing s 0x0202 c && decide (16 ≤ listTarget c.payload 0)),
    (let pl : List Byte := lst 0 (([(1, 0, 1)] : List (Nat × Nat × Nat)) ++ (List.range 8).map fun r => (3, r, 400 + 16 * r));
      let p : Fin 16 := 0; let s := doing 0x0202 pl { one with sys.mode := .configure, heads := one.heads.set 0 { geomBad := true } };
      let c := cmd 0x0202 pl;
      isDoing s 0x0202 c && decide (listTarget c.payload 0 = p.val) && s.heads[p].geomBad),
    (let pl : List Byte := lst 0 (([(1, 0, 1)] : List (Nat × Nat × Nat)) ++ (List.range 8).map fun r => (3, r, 400 + 16 * r));
      let p : Fin 16 := 0; let s := doing 0x0202 pl { one with swath.subst := { shadow := .building }, sys.mode := .configure };
      let c := cmd 0x0202 pl; let its : List PItem := spoil (headItemBad (geometryOf s p.val) s.heads[p].record) (listItems c.payload 0);
      (if let .error _ := judgeList headSpecs headRelation s.cfg.staged.heads[p] its then (isDoing s 0x0202 c &&
        decide (listTarget c.payload 0 = p.val) && !(s.heads[p].geomBad)) else false)),
    (let pl : List Byte := lst 0 (([(1, 0, 1)] : List (Nat × Nat × Nat)) ++ (List.range 8).map fun r => (3, r, 400 + 16 * r));
      let p : Fin 16 := 0; let s := doing 0x0202 pl { up with sys.mode := .configure }; let c := cmd 0x0202 pl;
      let its : List PItem := spoil (headItemBad (geometryOf s p.val) s.heads[p].record) (listItems c.payload 0);
      (if let .ok _ := judgeList headSpecs headRelation s.cfg.staged.heads[p] its then (isDoing s 0x0202 c &&
        decide (listTarget c.payload 0 = p.val) && !(s.heads[p].geomBad) && decide (geometryOf s p.val = none ∧ (∃ it ∈ listItems c.payload 0,
        it.id ≠ 1 ∨ it.value ≠ 0))) else false)),
    (let pl : List Byte := lst 0 (([(1, 0, 1)] : List (Nat × Nat × Nat)) ++ (List.range 8).map fun r => (3, r, 400 + 16 * r));
      let p : Fin 16 := 0;
      let s := doing 0x0202 pl { one with sys.mode := .configure, heads := Vector.replicate 16 { present := true, record := some rec8 },
                                          cfg.staged.heads := Vector.ofFn fun p => if p.val = 0 then [] else ⟨1, 0,
                                          1⟩ :: (List.range 8).map fun r => ⟨3, r, 400 + 16 * r⟩ };
      let c := cmd 0x0202 pl; let its : List PItem := spoil (headItemBad (geometryOf s p.val) s.heads[p].record) (listItems c.payload 0);
      (if let .ok m := judgeList headSpecs headRelation s.cfg.staged.heads[p] its then (isDoing s 0x0202 c &&
        decide (listTarget c.payload 0 = p.val) && !(s.heads[p].geomBad) && decide (((geometryOf s p.val).isSome = true ∨
        (∀ it ∈ listItems c.payload 0, it.id = 1 ∧ it.value = 0)) ∧
        max 16777216 (delayTotal s s.cfg.staged.heads) < delayTotal s (s.cfg.staged.heads.set p m))) else false)),
    (let pl : List Byte := lst 1 [(1, 0, 1)]; let p : Fin 16 := 1;
      let s := doing 0x0202 pl { one with sys.mode := .configure, heads := Vector.replicate 16 { present := true, record := some rec8 },
                                          cfg.staged.heads := Vector.ofFn fun p => if p.val = 0 then [] else ⟨1, 0,
                                          1⟩ :: (List.range 8).map fun r => ⟨3, r, 400 + 16 * r⟩ };
      let c := cmd 0x0202 pl; let its : List PItem := spoil (headItemBad (geometryOf s p.val) s.heads[p].record) (listItems c.payload 0);
      (if let .ok m := judgeList headSpecs headRelation s.cfg.staged.heads[p] its then (isDoing s 0x0202 c &&
        decide (listTarget c.payload 0 = p.val) && !(s.heads[p].geomBad) && decide (((geometryOf s p.val).isSome = true ∨
        (∀ it ∈ listItems c.payload 0, it.id = 1 ∧ it.value = 0)) ∧
        delayTotal s (s.cfg.staged.heads.set p m) ≤ max 16777216 (delayTotal s s.cfg.staged.heads))) else false)),
    (let pl : List Byte := lst 0 (([(1, 0, 1)] : List (Nat × Nat × Nat)) ++ (List.range 8).map fun r => (3, r, 400 + 16 * r));
      let s := doing 0x0203 pl { one with sys.mode := .configure, heads := Vector.replicate 16 { present := true, record := some rec8 },
                                          cfg.staged.heads := Vector.ofFn fun p => if p.val = 0 then [] else ⟨1, 0,
                                          1⟩ :: (List.range 8).map fun r => ⟨3, r, 400 + 16 * r⟩ };
      let c := cmd 0x0203 pl;
      isDoing s 0x0203 c && !(isBuilding s)),
    (let pl : List Byte := lst 0 (([(1, 0, 1)] : List (Nat × Nat × Nat)) ++ (List.range 8).map fun r => (3, r, 400 + 16 * r));
      let s := doing 0x0203 pl { one with swath.subst := { shadow := .building }, sys.mode := .configure }; let c := cmd 0x0203 pl;
      isDoing s 0x0203 c && isBuilding s),
    (let s : State := { one with mbx.fmt1 := false, sys.transition := some { target := .idle, cause := 0, waiting := some (cmd 0x0203 []) },
                                  cfg.staged.heads := up.cfg.staged.heads };
      (if let (.ok _, v) := readPatterns (asCommitted s) ((portsOn (asCommitted s)).filter (usesPattern (asCommitted s))) s then
        ((if let some _ := commitUnderWay s then (!(pairStaged s) && !s.sys.resetPending && Memory.wf s.mbx.area && decide (commitItemA s (asCommitted s) = none ∧
        commitItemB v (asCommitted s) = none)) else false)) else false)),
    (let s : State := { pairing [[⟨1, 0, 1⟩]] up with cfg := { (pairing [[⟨1, 0, 1⟩]] up).cfg with staged.twin := [] } };
      (if let some _ := commitUnderWay s then ((if let some (_, _) := commitItemA s (asCommitted s) then (!(pairStaged s) && !s.sys.resetPending &&
        Memory.wf s.mbx.area) else false)) else false)),
    (let s : State := { pairing stitched one with cfg := { (pairing stitched one).cfg with staged.twin := [] } };
      (if let (.error _, _) := readPatterns (asCommitted s) ((portsOn (asCommitted s)).filter (usesPattern (asCommitted s))) s then
        ((if let some _ := commitUnderWay s then (!(pairStaged s) && !s.sys.resetPending && Memory.wf s.mbx.area &&
        decide (commitItemA s (asCommitted s) = none)) else false)) else false)),
    (let s : State := { pairing [[⟨1, 0, 1⟩]] one with cfg := { (pairing [[⟨1, 0, 1⟩]] one).cfg with staged.twin := [] } };
      (if let (.ok (_ : List (Nat × List Nat)),
        v) := readPatterns (asCommitted s) ((portsOn (asCommitted s)).filter (usesPattern (asCommitted s))) s then
        ((if let some _ := commitUnderWay s then ((if let some (_, _) := commitItemB v (asCommitted s) then (!(pairStaged s) && !s.sys.resetPending &&
        Memory.wf s.mbx.area && decide (commitItemA s (asCommitted s) = none)) else false)) else false)) else false)),
    (let s : State := { one with sys.transition := some { target := .idle, cause := causeComplete } };
      decide (commitUnderWay s = none) && jobEnding s && !(cyclesRun s) && !s.sys.resetPending),
    (let s : State := { one with sys.mode := .configure, heads := Vector.replicate 16 { present := true, record := some rec8 },
                                  cfg.staged.heads := Vector.ofFn fun p => if p.val = 0 then [] else ⟨1, 0, 1⟩ :: (List.range 8).map fun r => ⟨3, r,
                                  400 + 16 * r⟩ };
      decide (commitUnderWay s = none ∧ (jobEnding s = false ∨ cyclesRun s = true))) ] : List Bool).all id = true := by
  decide +kernel

/-- The hypotheses of each clause of O20 are met. -/
theorem test_ModeCommandsChangeTheMode : (
  [ (let pl : List Byte := [195, 165]; let s := doing 0x0101 pl { up with sys.resetPending := false }; let c := cmd 0x0101 pl;
      isDoing s 0x0101 c && decide (uAt c.payload 0 2 = 0xA5C3)),
    (let s := doing 0x0101 [] { up with sys.resetPending := false }; let c := cmd 0x0101 [];
      isDoing s 0x0101 c && decide (uAt c.payload 0 2 ≠ 0xA5C3)),
    (let pl : List Byte := [195, 165]; let s := doing 0x0103 pl { up with sys.resetPending := false }; let c := cmd 0x0103 pl;
      isDoing s 0x0103 c && axesStill s),
    (let pl : List Byte := [195, 165]; let s := doing 0x0103 pl { one with axes := one.axes.set 0 { one.axes[0] with standstill := false } };
      let c := cmd 0x0103 pl;
      isDoing s 0x0103 c && !(axesStill s)),
    (let pl : List Byte := [63, 0, 197, 94]; let s := doing 0x0104 pl { up with sys.mode := .configure, mem.scrub.running := false };
      let c := cmd 0x0104 pl;
      isDoing s 0x0104 c && decide (s.sys.secVer < uAt c.payload 0 1 ∧ uAt c.payload 0 1 ≤ 63 ∧ uAt c.payload 2 2 = 0x5EC5)),
    (let pl : List Byte := [195, 165]; let s := doing 0x0104 pl { up with sys.mode := .configure, mem.scrub.running := false };
      let c := cmd 0x0104 pl;
      isDoing s 0x0104 c && decide (uAt c.payload 0 1 ≤ s.sys.secVer ∨ 63 < uAt c.payload 0 1)),
    (let pl : List Byte := pay [(0, 1, 63), (2, 2, 24260)];
      let s := doing 0x0104 pl { up with sys.mode := .configure, mem.scrub.running := false }; let c := cmd 0x0104 pl;
      isDoing s 0x0104 c && decide (s.sys.secVer < uAt c.payload 0 1 ∧ uAt c.payload 0 1 ≤ 63 ∧ uAt c.payload 2 2 ≠ 0x5EC5)),
    (let pl : List Byte := [195, 165]; let s := doing 0x1801 pl { up with sys.resetPending := false }; let c := cmd 0x1801 pl;
      isDoing s 0x1801 c && axesStill s),
    (let pl : List Byte := [195, 165]; let s := doing 0x1801 pl { one with axes := one.axes.set 0 { one.axes[0] with standstill := false } };
      let c := cmd 0x1801 pl;
      isDoing s 0x1801 c && !(axesStill s)),
    (let pl : List Byte := [195, 165]; let s := doing 0x1802 pl { up with sys.mode := .service }; let c := cmd 0x1802 pl;
      isDoing s 0x1802 c) ] : List Bool).all id = true := by
  decide +kernel

/-- The hypotheses of each clause of O21 are met. -/
theorem test_JobCommandsOpenRunAndCloseAJob : (
  [ (let pl : List Byte := [1, 0, 0, 0, 1, 0, 0, 0, 0, 0, 0, 0, 0, 0, 0, 0, 0, 0, 3, 0, 0, 0, 0, 0, 1, 0, 0, 0, 0, 0, 0, 0, 0, 0, 0, 0, 3, 0, 0, 0, 100, 0, 0, 0, 0, 0, 0, 0, 11, 0, 0, 0, 1];
      let s := doing 0x0301 pl { one with job.isOpen := false, fbk := one.fbk.set 0 { one.fbk[0] with params := [⟨1, 0, 3⟩] } };
      let c := cmd 0x0301 pl;
      (if let .ok m := judgePace s paceSpecs (uAt c.payload 8 1) [] (listItems c.payload 16) then (isDoing s 0x0301 c &&
        decide (uAt c.payload 0 4 ≠ 0 ∧ uAt c.payload 0 4 ≠ s.job.lastId ∧ 1 ≤ uAt c.payload 4 4 ∧ uAt c.payload 4 4 ≤ 100000 ∧
        uAt c.payload 9 1 ≤ 1 ∧ (uAt c.payload 9 1 = 1 → uAt c.payload 10 1 ≤ 1) ∧ listTarget c.payload 16 = 0 ∧ (uAt c.payload 9 1 = 1 →
        pnat m 3 0 0 ≤ 65535)) && !s.job.isOpen && decide ((uAt c.payload 9 1 = 1 → (nthOr s.fbo (uAt c.payload 10 1) {}).enabled = false) ∧
        capacityError s (uAt c.payload 4 4) = none ∧ paceRateError s m (uAt c.payload 4 4) = none)) else false)),
    (let pl : List Byte := [1, 0, 0, 0, 1, 0, 0, 0, 0, 0, 0, 0, 0, 0, 0, 0, 0, 0, 3, 0, 0, 0, 0, 0, 1, 0, 0, 0, 0, 0, 0, 0, 0, 0, 0, 0, 3, 0, 0, 0, 100, 0, 0, 0, 0, 0, 0, 0, 11, 0, 0, 0, 1];
      let s := doing 0x0301 pl { one with job.isOpen := true, fbk := one.fbk.set 0 { one.fbk[0] with params := [⟨1, 0, 3⟩] } };
      let c := cmd 0x0301 pl;
      (if let .ok m := judgePace s paceSpecs (uAt c.payload 8 1) [] (listItems c.payload 16) then (isDoing s 0x0301 c &&
        decide (uAt c.payload 0 4 ≠ 0 ∧ uAt c.payload 0 4 ≠ s.job.lastId ∧ 1 ≤ uAt c.payload 4 4 ∧ uAt c.payload 4 4 ≤ 100000 ∧
        uAt c.payload 9 1 ≤ 1 ∧ (uAt c.payload 9 1 = 1 → uAt c.payload 10 1 ≤ 1) ∧ listTarget c.payload 16 = 0 ∧ (uAt c.payload 9 1 = 1 →
        pnat m 3 0 0 ≤ 65535)) && s.job.isOpen) else false)),
    (let s := doing 0x0301 [] { one with job.isOpen := true, fbk := one.fbk.set 0 { one.fbk[0] with params := [⟨1, 0, 3⟩] } };
      let c := cmd 0x0301 [];
      isDoing s 0x0301 c && decide (uAt c.payload 0 4 = 0 ∨ uAt c.payload 0 4 = s.job.lastId)),
    (let pl : List Byte := [1, 0, 0, 0, 1, 0, 0, 0, 0, 0, 0, 0, 0, 0, 0, 0, 0, 0, 3, 0, 0, 0, 0, 0, 1, 0, 0, 0, 0, 0, 0, 0, 0, 0, 0, 0, 3, 0, 0, 0, 100, 0, 0, 0, 0, 0, 0, 0, 11, 0, 0, 0, 1];
      let s := doing 0x0302 pl { one with job.isOpen := true, fbk := one.fbk.set 0 { one.fbk[0] with params := [⟨1, 0, 3⟩] } };
      let c := cmd 0x0302 pl;
      isDoing s 0x0302 c && s.job.isOpen && decide (startError s false = none)),
    (let pl : List Byte := [1, 0, 0, 0, 1, 0, 0, 0, 0, 0, 0, 0, 0, 0, 0, 0, 0, 0, 3, 0, 0, 0, 0, 0, 1, 0, 0, 0, 0, 0, 0, 0, 0, 0, 0, 0, 3, 0, 0, 0, 100, 0, 0, 0, 0, 0, 0, 0, 11, 0, 0, 0, 1];
      let s := doing 0x0302 pl { one with job.isOpen := false, fbk := one.fbk.set 0 { one.fbk[0] with params := [⟨1, 0, 3⟩] } };
      let c := cmd 0x0302 pl;
      isDoing s 0x0302 c && !s.job.isOpen),
    (let pl : List Byte := [1, 0, 0, 0, 1, 0, 0, 0, 0, 0, 0, 0, 0, 0, 0, 0, 0, 0, 3, 0, 0, 0, 0, 0, 1, 0, 0, 0, 0, 0, 0, 0, 0, 0, 0, 0, 3, 0, 0, 0, 100, 0, 0, 0, 0, 0, 0, 0, 11, 0, 0, 0, 1];
      let s := doing 0x0302 pl { one with job := { isOpen := true, axes := 1, fMax := 1 } }; let c := cmd 0x0302 pl;
      (if let some (_, _) := startError s false then (isDoing s 0x0302 c && s.job.isOpen) else false)),
    (let pl : List Byte := [1, 0, 0, 0, 1, 0, 0, 0, 0, 0, 0, 0, 0, 0, 0, 0, 0, 0, 3, 0, 0, 0, 0, 0, 1, 0, 0, 0, 0, 0, 0, 0, 0, 0, 0, 0, 3, 0, 0, 0, 100, 0, 0, 0, 0, 0, 0, 0, 11, 0, 0, 0, 1];
      let s := doing 0x0303 pl firing; let c := cmd 0x0303 pl;
      isDoing s 0x0303 c && linesLeft s),
    (let pl : List Byte := [1, 0, 0, 0, 1, 0, 0, 0, 0, 0, 0, 0, 0, 0, 0, 0, 0, 0, 3, 0, 0, 0, 0, 0, 1, 0, 0, 0, 0, 0, 0, 0, 0, 0, 0, 0, 3, 0, 0, 0, 100, 0, 0, 0, 0, 0, 0, 0, 11, 0, 0, 0, 1];
      let s := doing 0x0303 pl { one with sys.mode := .print, swath.active := true, swath.last := true, swath.ls := some 0 };
      let c := cmd 0x0303 pl;
      isDoing s 0x0303 c && !(linesLeft s)),
    (let pl : List Byte := [1, 0, 0, 0, 1, 0, 0, 0, 0, 0, 0, 0, 0, 0, 0, 0, 0, 0, 3, 0, 0, 0, 0, 0, 1, 0, 0, 0, 0, 0, 0, 0, 0, 0, 0, 0, 3, 0, 0, 0, 100, 0, 0, 0, 0, 0, 0, 0, 11, 0, 0, 0, 1];
      let s := doing 0x0304 pl { up with sys.mode := .hold }; let c := cmd 0x0304 pl;
      isDoing s 0x0304 c && decide (startError s true = none)),
    (let pl : List Byte := [1, 0, 0, 0, 1, 0, 0, 0, 0, 0, 0, 0, 0, 0, 0, 0, 0, 0, 3, 0, 0, 0, 0, 0, 1, 0, 0, 0, 0, 0, 0, 0, 0, 0, 0, 0, 3, 0, 0, 0, 100, 0, 0, 0, 0, 0, 0, 0, 11, 0, 0, 0, 1];
      let s := doing 0x0304 pl { one with sys.mode := .hold, job := { isOpen := true, axes := 1, fMax := 1 } }; let c := cmd 0x0304 pl;
      (if let some (_, _) := startError s true then (isDoing s 0x0304 c) else false)),
    (let pl : List Byte := [1, 0, 0, 0, 1, 0, 0, 0, 0, 0, 0, 0, 0, 0, 0, 0, 0, 0, 3, 0, 0, 0, 0, 0, 1, 0, 0, 0, 0, 0, 0, 0, 0, 0, 0, 0, 3, 0, 0, 0, 100, 0, 0, 0, 0, 0, 0, 0, 11, 0, 0, 0, 1];
      let s := doing 0x0305 pl { one with sys.mode := .hold, job := { isOpen := true, axes := 1, fMax := 1 } }; let c := cmd 0x0305 pl;
      isDoing s 0x0305 c),
    (let pl : List Byte := [1, 0, 0, 0, 1, 0, 0, 0, 0, 0, 0, 0, 0, 0, 0, 0, 0, 0, 3, 0, 0, 0, 0, 0, 1, 0, 0, 0, 0, 0, 0, 0, 0, 0, 0, 0, 3, 0, 0, 0, 100, 0, 0, 0, 0, 0, 0, 0, 11, 0, 0, 0, 1];
      let s := doing 0x0306 pl { one with job.isOpen := true, fbk := one.fbk.set 0 { one.fbk[0] with params := [⟨1, 0, 3⟩] } };
      let c := cmd 0x0306 pl;
      isDoing s 0x0306 c && s.job.isOpen),
    (let pl : List Byte := [1, 0, 0, 0, 1, 0, 0, 0, 0, 0, 0, 0, 0, 0, 0, 0, 0, 0, 3, 0, 0, 0, 0, 0, 1, 0, 0, 0, 0, 0, 0, 0, 0, 0, 0, 0, 3, 0, 0, 0, 100, 0, 0, 0, 0, 0, 0, 0, 11, 0, 0, 0, 1];
      let s := doing 0x0306 pl { one with job.isOpen := false, fbk := one.fbk.set 0 { one.fbk[0] with params := [⟨1, 0, 3⟩] } };
      let c := cmd 0x0306 pl;
      isDoing s 0x0306 c && !s.job.isOpen) ] : List Bool).all id = true := by
  decide +kernel

/-- The hypotheses of each clause of O22 are met. -/
theorem test_PacingCommandsSetTheJobsPacing : (
  [ (let pl : List Byte := [0, 0, 3, 0, 0, 0, 0, 0, 1, 0, 0, 0, 0, 0, 0, 0, 0, 0, 0, 0, 3, 0, 0, 0, 100, 0, 0, 0, 0, 0, 0, 0, 11, 0, 0, 0, 1];
      let s := doing 0x0A01 pl { paced with job.inspect := true }; let c := cmd 0x0A01 pl;
      (if let .ok m := judgePace s paceSpecs s.job.axes s.job.params (listItems c.payload 0) then (isDoing s 0x0A01 c && s.job.isOpen &&
        !s.job.started && decide (listTarget c.payload 0 = 0 ∧ (s.job.inspect = false ∨ pnat m 3 0 0 ≤ 65535))) else false)),
    (let pl : List Byte := lst 0 [(3, 0, 65536)]; let s := doing 0x0A01 pl { paced with job.inspect := true }; let c := cmd 0x0A01 pl;
      (if let .ok m := judgePace s paceSpecs s.job.axes s.job.params (listItems c.payload 0) then (isDoing s 0x0A01 c && s.job.isOpen &&
        !s.job.started && decide (listTarget c.payload 0 = 0) && s.job.inspect && decide (65535 < pnat m 3 0 0)) else false)),
    (let pl : List Byte := lst 0 [(3, 0, 65536)];
      let s := doing 0x0A01 pl { one with job.isOpen := true, job.started := false, job.inspect := false,
                                          fbk := one.fbk.set 0 { one.fbk[0] with params := [⟨1, 0, 3⟩] } };
      let c := cmd 0x0A01 pl;
      (if let .error _ := judgePace s paceSpecs s.job.axes s.job.params (listItems c.payload 0) then (isDoing s 0x0A01 c && s.job.isOpen &&
        !s.job.started && decide (listTarget c.payload 0 = 0)) else false)),
    (let pl : List Byte := pay [(0, 8, 140737488355327), (8, 1, 1)]; let s := doing 0x0A01 pl { paced with job.inspect := true };
      let c := cmd 0x0A01 pl;
      isDoing s 0x0A01 c && s.job.isOpen && !s.job.started && decide (listTarget c.payload 0 ≠ 0)),
    (let pl : List Byte := lst 0 [(3, 0, 65536)]; let s := doing 0x0A01 pl { up with job.isOpen := false }; let c := cmd 0x0A01 pl;
      isDoing s 0x0A01 c && decide (s.job.isOpen = false ∨ s.job.started = true)),
    (let pl : List Byte := [0, 0, 3, 0, 0, 0, 0, 0, 1, 0, 0, 0, 0, 0, 0, 0, 0, 0, 0, 0, 3, 0, 0, 0, 100, 0, 0, 0, 0, 0, 0, 0, 11, 0, 0, 0, 1];
      let s := doing 0x0A02 pl { one with sys.mode := .print, job := { isOpen := true, params := [⟨7, 0, 1⟩] },
                                          pace := { queue := List.replicate 16 (0, false) } };
      let c := cmd 0x0A02 pl;
      isDoing s 0x0A02 c && decide (-(2 ^ 47) ≤ iAt c.payload 0 8 ∧ iAt c.payload 0 8 < 2 ^ 47 ∧ uAt c.payload 8 1 ≤ 1) && s.job.isOpen &&
        decide ((pnat s.job.params 7 0 0 = 1 ∨ (pnat s.job.params 7 0 0 = 0 ∧ s.pace.owed = true ∧ s.pace.queue = [])) ∧ 16 ≤ s.pace.queue.length)),
    (let pl : List Byte := [0, 0, 3, 0, 0, 0, 0, 0, 1, 0, 0, 0, 0, 0, 0, 0, 0, 0, 0, 0, 3, 0, 0, 0, 100, 0, 0, 0, 0, 0, 0, 0, 11, 0, 0, 0, 1];
      let s := doing 0x0A02 pl { paced with job.inspect := true }; let c := cmd 0x0A02 pl;
      isDoing s 0x0A02 c && decide (-(2 ^ 47) ≤ iAt c.payload 0 8 ∧ iAt c.payload 0 8 < 2 ^ 47 ∧ uAt c.payload 8 1 ≤ 1) && s.job.isOpen &&
        decide ((pnat s.job.params 7 0 0 = 1 ∨ (pnat s.job.params 7 0 0 = 0 ∧ s.pace.owed = true ∧ s.pace.queue = [])) ∧ s.pace.queue.length < 16 ∧
        (s.pace.armed = true ∨ paceFollows s = false ∨ s.pace.source ≠ .channel))),
    (let s := doing 0x0A02 [] { paced with sys.mode := .print, job.started := true, pace := { source := .channel } }; let c := cmd 0x0A02 [];
      let q : State := { s with pace := { s.pace with queue := s.pace.queue ++ [(iAt c.payload 0 8, uAt c.payload 8 1 == 1)] } };
      isDoing s 0x0A02 c && decide (-(2 ^ 47) ≤ iAt c.payload 0 8 ∧ iAt c.payload 0 8 < 2 ^ 47 ∧ uAt c.payload 8 1 ≤ 1) && s.job.isOpen &&
        decide ((pnat s.job.params 7 0 0 = 1 ∨ (pnat s.job.params 7 0 0 = 0 ∧ s.pace.owed = true ∧ s.pace.queue = [])) ∧ s.pace.queue.length < 16) &&
        !s.pace.armed && paceFollows s && decide (s.pace.source = .channel ∧ paceOriginMode s ≤ 1 ∧ (paceOriginMode s = 1 ∨ s.pace.owed = true) ∧
        s.pace.queue = [] ∧ (armNext q).faults = s.faults)),
    (let pl : List Byte := pay [(0, 8, 140737488355328)];
      let s := doing 0x0A02 pl { paced with sys.mode := .print, job.started := true, pace := { source := .channel } }; let c := cmd 0x0A02 pl;
      isDoing s 0x0A02 c && decide (iAt c.payload 0 8 < -(2 ^ 47) ∨ 2 ^ 47 ≤ iAt c.payload 0 8)),
    (let pl : List Byte := lst 0 [(3, 0, 65536)];
      let s := doing 0x0A02 pl { paced with sys.mode := .print, job.started := true, pace := { source := .channel } }; let c := cmd 0x0A02 pl;
      isDoing s 0x0A02 c && decide (-(2 ^ 47) ≤ iAt c.payload 0 8 ∧ iAt c.payload 0 8 < 2 ^ 47 ∧ 1 < uAt c.payload 8 1)),
    (let pl : List Byte := [0, 0, 3, 0, 0, 0, 0, 0, 1, 0, 0, 0, 0, 0, 0, 0, 0, 0, 0, 0, 3, 0, 0, 0, 100, 0, 0, 0, 0, 0, 0, 0, 11, 0, 0, 0, 1];
      let s := doing 0x0A02 pl { one with job.isOpen := true, job.started := false, job.inspect := false,
                                          fbk := one.fbk.set 0 { one.fbk[0] with params := [⟨1, 0, 3⟩] } };
      let c := cmd 0x0A02 pl;
      isDoing s 0x0A02 c && decide (-(2 ^ 47) ≤ iAt c.payload 0 8 ∧ iAt c.payload 0 8 < 2 ^ 47 ∧ uAt c.payload 8 1 ≤ 1 ∧ (s.job.isOpen = false ∨
        (pnat s.job.params 7 0 0 ≠ 1 ∧ (pnat s.job.params 7 0 0 ≠ 0 ∨ s.pace.owed = false ∨ s.pace.queue ≠ []))))),
    (let pl : List Byte := lst 0 [(3, 0, 65536)];
      let s := doing 0x0A03 pl { paced with sys.mode := .print, job.started := true, pace := { source := .channel } }; let c := cmd 0x0A03 pl;
      isDoing s 0x0A03 c),
    (let pl : List Byte := lst 0 [(3, 0, 65536)]; let k : Nat := 5; let s := doing 0x0B01 pl { paced with job.inspect := true };
      let c := cmd 0x0B01 pl;
      let bad : List (Nat × Bool) := [(0, decide (decide (∃ i : Fin 16, bitOf (uAt c.payload 0 2) i.val = true ∧ portOn s i.val = false))), (2,
        decide (decide (1 < uAt c.payload 2 1))), (3, decide (decide (1 < uAt c.payload 3 1))), (4, decide (decide (uAt c.payload 2 1 = 0 ∧
        ∃ p ∈ portsOn s, uAt c.payload 4 4 < tMin s p))), (8, decide (decide (uAt c.payload 8 4 = 0))), (12, decide (decide (uAt c.payload 12 1 = 0 ∨
        (if s.sys.legacy then 3 else 7) < uAt c.payload 12 1))), (13, decide (decide (uAt c.payload 13 1 = 0 ∨ 64 < uAt c.payload 13 1)))];
      (if let some (_, e) := bad[k]? then (isDoing s 0x0B01 c && e && (bad.take k).all fun x => !x.2) else false)),
    (let pl : List Byte := [0, 0, 0, 1, 0, 0, 0, 0, 1, 0, 0, 0, 1, 64]; let s := doing 0x0B01 pl { paced with job.inspect := true };
      let c := cmd 0x0B01 pl;
      let bad : List (Nat × Bool) := [(0, decide (decide (∃ i : Fin 16, bitOf (uAt c.payload 0 2) i.val = true ∧ portOn s i.val = false))), (2,
        decide (decide (1 < uAt c.payload 2 1))), (3, decide (decide (1 < uAt c.payload 3 1))), (4, decide (decide (uAt c.payload 2 1 = 0 ∧
        ∃ p ∈ portsOn s, uAt c.payload 4 4 < tMin s p))), (8, decide (decide (uAt c.payload 8 4 = 0))), (12, decide (decide (uAt c.payload 12 1 = 0 ∨
        (if s.sys.legacy then 3 else 7) < uAt c.payload 12 1))), (13, decide (decide (uAt c.payload 13 1 = 0 ∨ 64 < uAt c.payload 13 1)))];
      isDoing s 0x0B01 c && bad.all fun x => !x.2 && decide (s.sys.mode = .idle ∧ s.job.isOpen = true)),
    (let pl : List Byte := [0, 0, 0, 1, 0, 0, 0, 0, 1, 0, 0, 0, 1, 64]; let s := doing 0x0B01 pl { up with job.isOpen := false };
      let c := cmd 0x0B01 pl;
      let bad : List (Nat × Bool) := [(0, decide (decide (∃ i : Fin 16, bitOf (uAt c.payload 0 2) i.val = true ∧ portOn s i.val = false))), (2,
        decide (decide (1 < uAt c.payload 2 1))), (3, decide (decide (1 < uAt c.payload 3 1))), (4, decide (decide (uAt c.payload 2 1 = 0 ∧
        ∃ p ∈ portsOn s, uAt c.payload 4 4 < tMin s p))), (8, decide (decide (uAt c.payload 8 4 = 0))), (12, decide (decide (uAt c.payload 12 1 = 0 ∨
        (if s.sys.legacy then 3 else 7) < uAt c.payload 12 1))), (13, decide (decide (uAt c.payload 13 1 = 0 ∨ 64 < uAt c.payload 13 1)))];
      isDoing s 0x0B01 c && bad.all fun x => !x.2 && decide ((s.sys.mode = .idle → s.job.isOpen = false) ∧ (s.sys.mode = .hold → ∀ a : Fin 8,
        jobAxis s a.val = true → s.axes[a].standstill = true))),
    (let pl : List Byte := lst 0 [(3, 0, 65536)]; let s := doing 0x0B02 pl { up with sys.mode := .maintain }; let c := cmd 0x0B02 pl;
      isDoing s 0x0B02 c) ] : List Bool).all id = true := by
  decide +kernel

/-- The hypotheses of each clause of O23 are met. -/
theorem test_SlicePostQueuesASliceOrSaysWhyNot : (
  [ (let pl : List Byte := zeros 8 ++ leBytes 4 161;
      let s := doing 0x0401 pl { posting 0 with mem := { (posting 0).mem with synd := [(4, 3)], init := (posting 0).mem.init } };
      let c := cmd 0x0401 pl; let a : Nat := uAt c.payload 0 8; let n : Nat := uAt c.payload 8 4;
      (if let (none, _) := dramRead 6 a 32 s then (isDoing s 0x0401 c && s.job.isOpen && decide (s.faults.discard = none ∧
        s.codec.posted.length < 256 ∧ a % 64 = 0) && !(beyondFitted s a n) && !(uninitRange s a n)) else false)),
    (let pl : List Byte := zeros 8 ++ leBytes 4 161; let k : Nat := 0;
      let s := doing 0x0401 pl { posting 0 with mem := { (posting 0).mem with dram := Mem.writeN [] 0 (leBytes 4 0x45434C53 ++ [1, 1, 3, 2] ++
                                                                              zeros 16 ++ leBytes 4 160), synd := [(8, 3)] } };
      let c := cmd 0x0401 pl; let a : Nat := uAt c.payload 0 8; let n : Nat := uAt c.payload 8 4;
      (if let (some h, _) := dramRead 6 a 32 s then (let bad : List (Nat × Bool) := [(0x01, decide (decide (n ≠ uAt h 24 4))), (0x02,
        decide (decide (uAt h 0 4 ≠ 0x45434C53))), (0x03, decide (decide (uAt h 4 1 ≠ 1))), (0x0B, decide (decide (uAt h 7 1 = 0 ∨ 32 < uAt h 7 1))), (0x0C,
        decide (decide (n < 32 + 32 * uAt h 7 1 ∨ 67108864 < n ∨ n % 4 ≠ 0)))]; (if let some (_, e) := bad[k]? then (isDoing s 0x0401 c &&
        s.job.isOpen && decide (s.faults.discard = none ∧ s.codec.posted.length < 256 ∧ a % 64 = 0) && !(beyondFitted s a n) &&
        !(uninitRange s a n) && e && (bad.take k).all fun x => !x.2) else false)) else false)),
    (let pl : List Byte := zeros 8 ++ leBytes 4 160;
      let s := doing 0x0401 pl { posting 0 with mem := { (posting 0).mem with dram := Mem.writeN [] 0 (leBytes 4 0x45434C53 ++ [1, 1, 3, 2] ++
                                                                              zeros 16 ++ leBytes 4 160), synd := [(8, 3)] } };
      let c := cmd 0x0401 pl; let a : Nat := uAt c.payload 0 8; let n : Nat := uAt c.payload 8 4;
      (if let (some h, s1) := dramRead 6 a 32 s then (let bad : List (Nat × Bool) := [(0x01, decide (decide (n ≠ uAt h 24 4))), (0x02,
        decide (decide (uAt h 0 4 ≠ 0x45434C53))), (0x03, decide (decide (uAt h 4 1 ≠ 1))), (0x0B, decide (decide (uAt h 7 1 = 0 ∨ 32 < uAt h 7 1))), (0x0C,
        decide (decide (n < 32 + 32 * uAt h 7 1 ∨ 67108864 < n ∨ n % 4 ≠ 0)))]; (if let (none, _) := dramRead 6 (a + 32) (32 * uAt h 7 1) s1 then
        (isDoing s 0x0401 c && s.job.isOpen && decide (s.faults.discard = none ∧ s.codec.posted.length < 256 ∧ a % 64 = 0) && !(beyondFitted s a n) &&
        !(uninitRange s a n) && bad.all fun x => !x.2) else false)) else false)),
    (let pl : List Byte := zeros 8 ++ leBytes 4 160; let s := doing 0x0401 pl (posting 1); let c := cmd 0x0401 pl;
      let a : Nat := uAt c.payload 0 8; let n : Nat := uAt c.payload 8 4;
      (if let (some h, s1) := dramRead 6 a 32 s then (let bad : List (Nat × Bool) := [(0x01, decide (decide (n ≠ uAt h 24 4))), (0x02,
        decide (decide (uAt h 0 4 ≠ 0x45434C53))), (0x03, decide (decide (uAt h 4 1 ≠ 1))), (0x0B, decide (decide (uAt h 7 1 = 0 ∨ 32 < uAt h 7 1))), (0x0C,
        decide (decide (n < 32 + 32 * uAt h 7 1 ∨ 67108864 < n ∨ n % 4 ≠ 0)))]; (if let (some t, s2) := dramRead 6 (a + 32) (32 * uAt h 7 1) s1 then
        (let q := parseSlice a n h t; (if let some _ := sliceError s2 q h t then (isDoing s 0x0401 c && s.job.isOpen &&
        decide (s.faults.discard = none ∧ s.codec.posted.length < 256 ∧ a % 64 = 0) && !(beyondFitted s a n) && !(uninitRange s a n) &&
        bad.all fun x => !x.2) else false)) else false)) else false)),
    (let pl : List Byte := zeros 8 ++ leBytes 4 160; let s := doing 0x0401 pl (posting 0); let c := cmd 0x0401 pl;
      let a : Nat := uAt c.payload 0 8; let n : Nat := uAt c.payload 8 4;
      (if let (some h, s1) := dramRead 6 a 32 s then (let bad : List (Nat × Bool) := [(0x01, decide (decide (n ≠ uAt h 24 4))), (0x02,
        decide (decide (uAt h 0 4 ≠ 0x45434C53))), (0x03, decide (decide (uAt h 4 1 ≠ 1))), (0x0B, decide (decide (uAt h 7 1 = 0 ∨ 32 < uAt h 7 1))), (0x0C,
        decide (decide (n < 32 + 32 * uAt h 7 1 ∨ 67108864 < n ∨ n % 4 ≠ 0)))]; (if let (some t, s2) := dramRead 6 (a + 32) (32 * uAt h 7 1) s1 then
        (let q := parseSlice a n h t; isDoing s 0x0401 c && s.job.isOpen && decide (s.faults.discard = none ∧ s.codec.posted.length < 256 ∧
        a % 64 = 0) && !(beyondFitted s a n) && !(uninitRange s a n) && bad.all fun x => !x.2 &&
        decide (sliceError s2 q h t = none)) else false)) else false)),
    (let pl : List Byte := zeros 8 ++ leBytes 4 161; let s := doing 0x0401 pl { up with job.isOpen := false }; let c := cmd 0x0401 pl;
      isDoing s 0x0401 c && !s.job.isOpen),
    (let pl : List Byte := zeros 8 ++ leBytes 4 161;
      let s := doing 0x0401 pl { up with job.isOpen := true, faults.discard := some { byCommand := true, cause := 0 } }; let c := cmd 0x0401 pl;
      isDoing s 0x0401 c && s.job.isOpen && decide (s.faults.discard ≠ none)),
    (let pl : List Byte := zeros 8 ++ leBytes 4 161;
      let s := doing 0x0401 pl { up with job.isOpen := true, faults.discard := none, codec.posted := List.replicate 256 slice0 };
      let c := cmd 0x0401 pl;
      isDoing s 0x0401 c && s.job.isOpen && decide (s.faults.discard = none ∧ 256 ≤ s.codec.posted.length)),
    (let pl : List Byte := zeros 8 ++ leBytes 4 161; let s := doing 0x0401 pl { up with job.isOpen := true, faults.discard := none };
      let c := cmd 0x0401 pl;
      isDoing s 0x0401 c && s.job.isOpen && decide (s.faults.discard = none ∧ s.codec.posted.length < 256 ∧ (uAt c.payload 0 8 % 64 ≠ 0 ∨
        beyondFitted s (uAt c.payload 0 8) (uAt c.payload 8 4) = true))),
    (let pl : List Byte := [0, 0, 0, 8, 0, 0, 0, 0, 32];
      let s := doing 0x0401 pl { posting 0 with mem := { (posting 0).mem with dram := Mem.writeN [] 0 (leBytes 4 0x45434C53 ++ [1, 1, 3, 2] ++
                                                                              zeros 16 ++ leBytes 4 160), synd := [(8, 3)] } };
      let c := cmd 0x0401 pl;
      isDoing s 0x0401 c && s.job.isOpen && decide (s.faults.discard = none ∧ s.codec.posted.length < 256 ∧ uAt c.payload 0 8 % 64 = 0) &&
        !(beyondFitted s (uAt c.payload 0 8) (uAt c.payload 8 4)) && uninitRange s (uAt c.payload 0 8) (uAt c.payload 8 4)) ] : List Bool).all id = true := by
  decide +kernel

/-- The hypotheses of each clause of O24 are met. -/
theorem test_SlicesOpenAndDecode : (
  [ (let s : State := { slicing strm1 storedBytes with codec.posted := [slice0] };
      decodes s && decide ((standbyOf s = none ∨ 8 ≤ inService s ∨ (((if let some d := standbyOf s then
        decide ((decoder s d).testing = true) else false)) = true)))),
    (let s : State := { slicing strm1 storedBytes with job := { isOpen := true, fMax := 100000 },
                                                        heads := Vector.replicate 16 { present := true, record := some rec8, committed := some rec8 },
                                                        cfg.live.heads := Vector.replicate 16 [⟨1, 0, 1⟩],
                                                        codec := { posted := [slice0], decoders := Vector.ofFn fun i => { use := if i.val = 8 then .standby else if i.val = 0 then .inService else .out } } };
      (if let some d := standbyOf s then (decodes s && decide (inService s < 8) && !((decoder s d).testing)) else false)),
    (let s : State := { slicing strm1 storedBytes with job := { isOpen := true, fMax := 100000 },
                                                        heads := Vector.replicate 16 { present := true, record := some rec8, committed := some rec8 },
                                                        cfg.live.heads := Vector.replicate 16 [⟨1, 0, 1⟩],
                                                        codec := { posted := [slice0], decoders := Vector.ofFn fun i => { use := if i.val = 8 then .standby else if i.val = 0 then .inService else .out } } };
      let v := standbyEnters s;
      decodes s && decide (nextToOpen v = none)),
    (let s : State := { slicing strm1 storedBytes with codec := { posted := [{ slice0 with streams := List.replicate 8 strm0 },
                                                                   { slice0 with no := 1 }],
                                                                   decoders := Vector.ofFn fun i => { use := if i.val = 8 then .standby else if i.val = 0 then .inService else .out } } };
      let v := standbyEnters s;
      (if let some _ := nextToOpen v then decodes s else false)),
    (let s : State := { slicing strm1 storedBytes with codec := { posted := [{ slice0 with streams := List.replicate 8 strm0 },
                                                                   { slice0 with no := 1 }],
                                                                   decoders := Vector.ofFn fun i => { use := if i.val = 8 then .standby else if i.val = 0 then .inService else .out } } };
      let e : WordErr := { bank := 0, word := 0, synd := 7 }; let (bad, _) := ownerFinds codecSource 3 (319 * 8192 + e.word.val) e.synd s;
      decodes s && decide (openable s ≠ none) && !bad),
    (let s : State := { slicing strm1 storedBytes with codec := { posted := [{ slice0 with streams := List.replicate 8 strm0 },
                                                                   { slice0 with no := 1 }],
                                                                   decoders := Vector.ofFn fun i => { use := if i.val = 8 then .standby else if i.val = 0 then .inService else .out } } };
      let e : WordErr := { bank := 0, word := 0, synd := 3 }; let (bad, _) := ownerFinds codecSource 3 (319 * 8192 + e.word.val) e.synd s;
      decodes s && decide (openable s ≠ none) && bad),
    (let s : State := slicing strm1 [7, 0, 0, 0, 0, 0];
      decide (decodes s = false ∨ openable s = none)),
    (let s : State := slicing strm1 [7, 0, 0, 0, 0, 0]; let d : Fin 9 := 1;
      decodes s && decide (workOf s d.val = none)),
    (let s : State := { slicing { strm1 with compCv := (crc32c storedBytes).toNat } storedBytes with codec.posted := [{ slice0 with streams := [{ strm1 with input := storedBytes, compCv := (crc32c storedBytes).toNat }, strm0], isOpen := true }] };
      let d : Fin 9 := 0; let n : Fin 4097 := 0;
      (if let some (q, _, x) := workOf s d.val then (let (y, r) := runStream x (reach s q x n.val); decodes s && decide (r = .needOutput ∨
        r = .build ∨ ((r = .needInput ∨ r = .finished) ∧ leftForInput s q x n.val y r = true))) else false)),
    (let s : State := slicing strm1 [7, 0, 0, 0, 0, 0]; let d : Fin 9 := 0; let n : Fin 4097 := 0;
      (if let some (q, _, x) := workOf s d.val then (let (y, r) := runStream x (reach s q x n.val); decodes s &&
        decide (((r matches .err _) = true) ∨ r = .limit ∨ ((r = .needInput ∨ r = .finished) ∧ leftForInput s q x n.val y r = false))) else false)),
    (let s : State := up;
      !(decodes s)),
    (let s : State := slicing { strm2 with dec := some 0 } dynBytes; let no : Nat := 0; let i : Fin 32 := 0;
      (if let some (q, x) := findStream s no i.val then (let (y, _) := runStream { x with built := x.built + 1 } x.produced; x.building &&
        decodes s && !x.ended && !q.aborted && decide (x.built < y.dyn)) else false)),
    (let s : State := slicing { strm2 with good := 10, dec := some 0 } dynBytes; let no : Nat := 0; let i : Fin 32 := 0;
      (if let some (q, x) := findStream s no i.val then (let (y, r) := runStream { x with built := x.built + 1 } x.produced; x.building &&
        decodes s && !x.ended && !q.aborted && decide (y.dyn ≤ x.built ∧ r = .needInput ∧ x.dec ≠ none) &&
        leftForInput s q x 0 y .needInput) else false)),
    (let s : State := slicing { strm2 with good := 10, dec := some 0, bad := 13 } dynBytes; let no : Nat := 0; let i : Fin 32 := 0;
      (if let some (q, x) := findStream s no i.val then (let (y, r) := runStream { x with built := x.built + 1 } x.produced; x.building &&
        decodes s && !x.ended && !q.aborted && decide (y.dyn ≤ x.built ∧ x.dec ≠ none ∧ ((r = .needInput ∧
        leftForInput s q x 0 y .needInput = false) ∨ (r matches .err _) = true))) else false)),
    (let s : State := slicing { strm2 with good := 10 } dynBytes; let no : Nat := 0; let i : Fin 32 := 0;
      (if let some (q, x) := findStream s no i.val then (let (y, r) := runStream { x with built := x.built + 1 } x.produced; x.building &&
        decodes s && !x.ended && !q.aborted && decide (y.dyn ≤ x.built ∧ (x.dec = none ∨ (r ≠ .needInput ∧
        (r matches .err _) = false)))) else false)),
    (let s : State := slicing strm1 [7, 0, 0, 0, 0, 0]; let no : Nat := 0; let i : Fin 32 := 0;
      ((if let some (q, x) := findStream s no i.val then decide (x.building = false ∨ decodes s = false ∨ x.ended = true ∨
        q.aborted = true) else true))),
    (let s : State := slicing { strm2 with dec := some 0 } dynBytes; let d : Fin 9 := 0;
      (if let some (q, _, x) := workOf s d.val then (let (y, r) := runStream x (reach s q x 4096); decodes s && decide (r = .needOutput ∨
        r = .build ∨ leftForInput s q x 4096 y r = true)) else false)),
    (let s : State := slicing strm1 storedBytes; let d : Fin 9 := 0;
      (if let some (q, i, x) := workOf s d.val then (let (y, r) := runStream x (reach s q x 4096); decodes s && decide (r ≠ .needOutput ∧
        r ≠ .build) && !(leftForInput s q x 4096 y r) && decide (streamCause x y r = none ∧ (∀ j : Fin q.streams.length, j.val ≠ i →
        q.streams[j].ended = true))) else false)),
    (let s : State := { slicing { strm1 with compCv := (crc32c storedBytes).toNat } storedBytes with codec.posted := [{ slice0 with streams := [{ strm1 with input := storedBytes, compCv := (crc32c storedBytes).toNat }, strm0], isOpen := true }] };
      let d : Fin 9 := 0;
      (if let some (q, i, x) := workOf s d.val then (let (y, r) := runStream x (reach s q x 4096); decodes s && decide (r ≠ .needOutput ∧
        r ≠ .build) && !(leftForInput s q x 4096 y r) && decide (streamCause x y r = none ∧ (∃ j : Fin q.streams.length, j.val ≠ i ∧
        q.streams[j].ended = false))) else false)),
    (let s : State := slicing strm1 [7, 0, 0, 0, 0, 0]; let d : Fin 9 := 0;
      (if let some (q, _, x) := workOf s d.val then (let (y, r) := runStream x (reach s q x 4096); (if let some _ := streamCause x y r then
        (decodes s && decide (r ≠ .needOutput ∧ r ≠ .build) && !(leftForInput s q x 4096 y r)) else false)) else false)) ] : List Bool).all id = true := by
  decide +kernel

/-- The hypotheses of each clause of O25 are met. -/
theorem test_DecodersLeaveAndEnterService : (
  [ (let s : State := { one with codec.decoders := Vector.ofFn fun _ => { use := .out } }; let d : Fin 9 := 0;
      decide ((decoder s d.val).use = .out)),
    (let s : State := { one with codec.requests := [{ owner := .audit, unit := 0x10, deflate := true, ctx := 0, inAddr := 0, inLen := 0,
                                                       outAddr := 0, outCap := 0, limit := 0, entry := 0, start := true, final := false,
                                                       tag := 0 }] };
      let d : Fin 9 := 0;
      !((decoder s d.val).testing)),
    (let s : State := { one with codec.decoders := one.codec.decoders.set 0 { one.codec.decoders[0] with testing := true } };
      let d : Fin 9 := 0;
      (decoder s d.val).testing && decide ((decoder s d.val).use ≠ .standby)),
    (let s : State := { one with codec.decoders := one.codec.decoders.set 8 { use := .standby, testing := true } }; let d : Fin 9 := 8;
      (decoder s d.val).testing && decide ((decoder s d.val).use = .standby ∧ (openSlices s ≠ [] ∨ 8 ≤ inService s))),
    (let s : State := { one with codec.decoders := Vector.ofFn fun i => { use := if i.val < 7 then .inService else if i.val = 7 then .out else .standby,
                                                                           testing := i.val = 8 } };
      let d : Fin 9 := 8;
      (decoder s d.val).testing && decide ((decoder s d.val).use = .standby ∧ openSlices s = [] ∧ inService s < 8 ∧ standbyOf s = some d.val)),
    (let s : State := { one with codec.decoders := Vector.ofFn fun i => { use := if i.val < 7 then .inService else if i.val = 7 then .out else .standby,
                                                                           testing := i.val = 8 } };
      let d : Fin 9 := 8;
      (decoder s d.val).testing && decide ((decoder s d.val).use ≠ .out)),
    (let s : State := { one with codec.requests := [{ owner := .audit, unit := 0x10, deflate := true, ctx := 0, inAddr := 0, inLen := 0,
                                                       outAddr := 0, outCap := 0, limit := 0, entry := 0, start := true, final := false,
                                                       tag := 0 }] };
      (if let some d := standbyOf s then (decide (s.sys.phase = .running) && !((decoder s d).testing)) else false)),
    (let s : State := { one with codec.decoders := Vector.ofFn fun _ => { use := .out } };
      ((if let some d := standbyOf s then decide (s.sys.phase ≠ .running ∨ (decoder s d).testing = true) else true))),
    (let pl : List Byte := pay [(0, 8, 1), (48, 2, 1)];
      let s := doing 0x0503 pl { one with codec.requests := [{ owner := .audit, unit := 0x10, deflate := true, ctx := 0, inAddr := 0, inLen := 0,
                                                               outAddr := 0, outCap := 0, limit := 0, entry := 0, start := true, final := false,
                                                               tag := 0 }] };
      let c := cmd 0x0503 pl;
      isDoing s 0x0503 c && decide (listTarget c.payload 0 ≠ 0)),
    (let pl : List Byte := pay [(0, 8, 0), (40, 8, 64)];
      let s := doing 0x0503 pl { one with codec.requests := [{ owner := .audit, unit := 0x10, deflate := true, ctx := 0, inAddr := 0, inLen := 0,
                                                               outAddr := 0, outCap := 0, limit := 0, entry := 0, start := true, final := false,
                                                               tag := 0 }] };
      let c := cmd 0x0503 pl;
      (if let .ok _ := judgeList codecSpecs codecRelation s.codec.params (listItems c.payload 0) then (isDoing s 0x0503 c &&
        decide (listTarget c.payload 0 = 0)) else false)),
    (let pl : List Byte := pay [(0, 8, 1073741824), (40, 8, 64), (48, 2, 1)];
      let s := doing 0x0503 pl { one with codec.requests := [{ owner := .audit, unit := 0x10, deflate := true, ctx := 0, inAddr := 0, inLen := 0,
                                                               outAddr := 0, outCap := 0, limit := 0, entry := 0, start := true, final := false,
                                                               tag := 0 }] };
      let c := cmd 0x0503 pl;
      (if let .error _ := judgeList codecSpecs codecRelation s.codec.params (listItems c.payload 0) then (isDoing s 0x0503 c &&
        decide (listTarget c.payload 0 = 0)) else false)),
    (let pl : List Byte := pay [(0, 8, 0), (40, 8, 64)]; let deflate : Bool := false; let op : Nat := (if deflate then 0x0502 else 0x0501);
      let s := doing op pl up; let c := cmd op pl; let r : CodecReq := requestOf deflate c.payload;
      let (_, _) := (if r.start then (some (freshSave s), s) else resumeFrom r s);
      (if let some _ := requestRange s r (uAt c.payload 48 2) (uAt c.payload 40 8) then (isDoing s op c) else false)),
    (let pl : List Byte := pay [(0, 8, 1073741824), (40, 8, 64), (48, 2, 1)]; let deflate : Bool := false;
      let op : Nat := (if deflate then 0x0502 else 0x0501);
      let s := doing op pl { one with codec.requests := [{ owner := .audit, unit := 0x10, deflate := true, ctx := 0, inAddr := 0, inLen := 0,
                                                           outAddr := 0, outCap := 0, limit := 0, entry := 0, start := true, final := false,
                                                           tag := 0 }] };
      let c := cmd op pl; let r : CodecReq := requestOf deflate c.payload;
      let (_, _) := (if r.start then (some (freshSave s), s) else resumeFrom r s);
      isDoing s op c && decide (requestRange s r (uAt c.payload 48 2) (uAt c.payload 40 8) = none) && requestUninit s r),
    (let pl : List Byte := pay [(0, 8, 0), (40, 8, 64)]; let deflate : Bool := false; let op : Nat := (if deflate then 0x0502 else 0x0501);
      let s := doing op pl { one with codec.requests := [{ owner := .audit, unit := 0x10, deflate := true, ctx := 0, inAddr := 0, inLen := 0,
                                                           outAddr := 0, outCap := 0, limit := 0, entry := 0, start := true, final := false,
                                                           tag := 0 }] };
      let c := cmd op pl; let r : CodecReq := requestOf deflate c.payload;
      let (o, _) := (if r.start then (some (freshSave s), s) else resumeFrom r s);
      isDoing s op c && decide (requestRange s r (uAt c.payload 48 2) (uAt c.payload 40 8) = none) && !(requestUninit s r) && decide (o = none)),
    (let pl : List Byte := pay [(0, 8, 0), (40, 8, 64), (48, 2, 1)]; let deflate : Bool := false;
      let op : Nat := (if deflate then 0x0502 else 0x0501);
      let s := doing op pl { one with codec.decoders := Vector.ofFn fun _ => { use := .out } }; let c := cmd op pl;
      let r : CodecReq := requestOf deflate c.payload; let (o, v) := (if r.start then (some (freshSave s), s) else resumeFrom r s);
      (if let some _ := o then (isDoing s op c && decide (requestRange s r (uAt c.payload 48 2) (uAt c.payload 40 8) = none) &&
        !(requestUninit s r) && decide ((if deflate then deflateUnit v else inflateUnit v) = none)) else false)),
    (let pl : List Byte := pay [(0, 8, 0), (40, 8, 64), (48, 2, 1)]; let deflate : Bool := false;
      let op : Nat := (if deflate then 0x0502 else 0x0501);
      let s := doing op pl { one with codec.requests := [{ owner := .audit, unit := 0x10, deflate := true, ctx := 0, inAddr := 0, inLen := 0,
                                                           outAddr := 0, outCap := 0, limit := 0, entry := 0, start := true, final := false,
                                                           tag := 0 }] };
      let c := cmd op pl; let r : CodecReq := requestOf deflate c.payload;
      let (o, v) := (if r.start then (some (freshSave s), s) else resumeFrom r s);
      (if let some _ := o then ((if let some _ := (if deflate then deflateUnit v else inflateUnit v) then (isDoing s op c &&
        decide (requestRange s r (uAt c.payload 48 2) (uAt c.payload 40 8) = none) && !(requestUninit s r)) else false)) else false)),
    (let s : State := { one with codec.requests := [{ owner := .audit, unit := 0x10, deflate := true, ctx := 0, inAddr := 0, inLen := 0,
                                                       outAddr := 0, outCap := 0, limit := 0, entry := 0, start := true, final := false,
                                                       tag := 0 }] };
      let unit : Nat := 8;
      decide (s.codec.requests.find? (fun q_ => q_.unit == unit) = none)),
    (let s : State := { one with codec.requests := [{ owner := .lifeExport, unit := 0x10, deflate := true, ctx := 0, inAddr := 0, inLen := 0,
                                                       outAddr := 0, outCap := 0, limit := 0, entry := 0, start := true, final := false,
                                                       tag := 0 }] };
      let unit : Nat := 16;
      (if let some r := s.codec.requests.find? (fun q_ => q_.unit == unit) then (let ((_, _), _) := readInput r s;
        decide (isStopped s (if r.deflate then 0x12 else codecSource) = true ∨ r.owner = .lifeExport)) else false)),
    (let s : State := { one with codec.requests := [{ unit := 16, deflate := true, ctx := 0, inAddr := 0, inLen := 0, outAddr := 0, outCap := 0,
                                                       limit := 0, entry := 0, start := true, final := false, tag := 0 },
                                  { unit := 17, deflate := true, ctx := 0, inAddr := 0, inLen := 0, outAddr := 0, outCap := 0, limit := 0, entry := 0,
                                    start := true, final := false, tag := 0 }], mbx.current := some (cmd 0x0502 [0, 0, 0, 0, 0, 0, 0, 0, 0, 0, 16, 0, 0, 0, 0, 0, 64, 0, 0, 0, 0, 0, 0, 0, 0, 0, 32, 0, 0, 0, 0, 0, 64, 0, 0, 0, 0, 0, 0, 0, 0, 0, 0, 0, 0, 0, 0, 0,
                                  1]) };
      let unit : Nat := 16;
      (if let some r := s.codec.requests.find? (fun q_ => q_.unit == unit) then (let ((_, _), _) := readInput r s; !(isStopped s (if r.deflate then
        0x12 else codecSource)) && decide (r.owner = .host)) else false)),
    (let s : State := { one with codec.requests := [{ owner := .audit, unit := 0x10, deflate := true, ctx := 0, inAddr := 0, inLen := 0,
                                                       outAddr := 0, outCap := 0, limit := 0, entry := 0, start := true, final := false,
                                                       tag := 0 }] };
      let unit : Nat := 16;
      (if let some r := s.codec.requests.find? (fun q_ => q_.unit == unit) then (let ((_, _), _) := readInput r s; !(isStopped s (if r.deflate then
        0x12 else codecSource)) && decide (r.owner = .audit)) else false)) ] : List Bool).all id = true := by
  decide +kernel

/-- The hypotheses of each clause of O26 are met. -/
theorem test_TablesLoadSwapAndAreBuilt : (
  [ (let pl : List Byte := pay [(0, 1, 16)];
      let s := doing 0x0601 pl { one with sys.mode := .idle, swath.subst := { shadow := .ready, built := some {} } }; let c := cmd 0x0601 pl;
      let p : Nat := uAt c.payload 0 1;
      isDoing s 0x0601 c && decide (16 ≤ p ∨ portSet s p = false)),
    (let pl : List Byte := pay [(8, 8, 1)];
      let s := doing 0x0601 pl { one with sys.mode := .idle, swath.subst := { shadow := .ready, built := some {} } }; let c := cmd 0x0601 pl;
      let p : Nat := uAt c.payload 0 1; let a : Nat := uAt c.payload 8 8;
      isDoing s 0x0601 c && decide (p < 16) && portSet s p && decide (badImage s a 32 = some .badArg)),
    (let pl : List Byte := pay [(8, 8, 1073741824)];
      let s := doing 0x0601 pl { one with sys.mode := .idle, swath.subst := { shadow := .ready, built := some {} } }; let c := cmd 0x0601 pl;
      let p : Nat := uAt c.payload 0 1; let a : Nat := uAt c.payload 8 8;
      isDoing s 0x0601 c && decide (p < 16) && portSet s p && decide (badImage s a 32 = some .uninit)),
    (let s := doing 0x0601 [] { one with sys.mode := .idle, swath.subst := { shadow := .ready, built := some {} } }; let c := cmd 0x0601 [];
      let p : Nat := uAt c.payload 0 1; let a : Nat := uAt c.payload 8 8;
      isDoing s 0x0601 c && decide (p < 16) && portSet s p && decide (badImage s a 32 = none)),
    (let pl : List Byte := pay [(0, 1, 16)];
      let s := doing 0x0602 pl { one with sys.mode := .idle, swath.subst := { shadow := .ready, built := some {} } }; let c := cmd 0x0602 pl;
      isDoing s 0x0602 c && decide (uAt c.payload 0 2 ≠ (((List.range 16).filter (portSet s)).map fun i => 2 ^ i).sum)),
    (let pl : List Byte := pay [(0, 2, 1), (8, 8, 1)];
      let s := doing 0x0602 pl { one with sys.mode := .idle, swath.subst := { shadow := .ready, built := some {} } }; let c := cmd 0x0602 pl;
      (if let some (st, d) := substAddrError s c.payload then (isDoing s 0x0602 c &&
        decide (uAt c.payload 0 2 = (((List.range 16).filter (portSet s)).map fun i => 2 ^ i).sum)) else false)),
    (let pl : List Byte := pay [(0, 2, 1)];
      let s := doing 0x0602 pl { one with sys.mode := .idle, swath.subst := { shadow := .ready, built := some {} } }; let c := cmd 0x0602 pl;
      isDoing s 0x0602 c && decide (uAt c.payload 0 2 = (((List.range 16).filter (portSet s)).map fun i => 2 ^ i).sum ∧
        substAddrError s c.payload = none)),
    (let pl : List Byte := pay [(0, 2, 1)];
      let s := doing 0x0603 pl { one with sys.mode := .idle, swath.subst := { shadow := .ready, built := some {} } }; let c := cmd 0x0603 pl;
      let t : Nat := uAt c.payload 0 1;
      isDoing s 0x0603 c && decide (0x10 < t ∨ (t < 16 ∧ portSet s t = false))),
    (let pl : List Byte := pay [(0, 1, 16), (1, 1, 4)];
      let s := doing 0x0603 pl { one with sys.mode := .idle, swath.subst := { shadow := .ready, built := some {} } }; let c := cmd 0x0603 pl;
      let t : Nat := uAt c.payload 0 1; let f : Nat := uAt c.payload 1 1; let rq : SwapReq := { required := bitOf f 0, link := bitOf f 1 };
      isDoing s 0x0603 c && decide ((t = 0x10 ∨ (t < 16 ∧ portSet s t = true)) ∧ (3 < f ∨ (t = 0x10 ∧ rq.link = true)))),
    (let pl : List Byte := pay [(0, 1, 16)];
      let s := doing 0x0603 pl { one with sys.mode := .idle, swath.grey := one.swath.grey.set 0 { shadow := .ready,
                                                                                                  built := some { codes := [], energy := [], cv := 0 } } };
      let c := cmd 0x0603 pl; let t : Nat := uAt c.payload 0 1; let f : Nat := uAt c.payload 1 1;
      let rq : SwapReq := { required := bitOf f 0, link := bitOf f 1 };
      let sh : Shadow := (if t = 0x10 then s.swath.subst.shadow else (greyPair s t).shadow);
      isDoing s 0x0603 c && decide ((t = 0x10 ∨ (t < 16 ∧ portSet s t = true)) ∧ f ≤ 3 ∧ (t = 0x10 → rq.link = false) ∧ (sh = .empty ∨
        sh = .failed))),
    (let pl : List Byte := pay [(8, 8, 1)];
      let s := doing 0x0603 pl { one with sys.mode := .print,
                                          swath.grey := one.swath.grey.set 0 { one.swath.grey[0] with shadow := .ready, pending := some { required := true, link := false } } };
      let c := cmd 0x0603 pl; let t : Nat := uAt c.payload 0 1; let f : Nat := uAt c.payload 1 1;
      let rq : SwapReq := { required := bitOf f 0, link := bitOf f 1 };
      let sh : Shadow := (if t = 0x10 then s.swath.subst.shadow else (greyPair s t).shadow);
      let pend : Option SwapReq := (if t = 0x10 then s.swath.subst.pending else (greyPair s t).pending);
      isDoing s 0x0603 c && decide ((t = 0x10 ∨ (t < 16 ∧ portSet s t = true)) ∧ f ≤ 3 ∧ (t = 0x10 → rq.link = false) ∧ (sh = .ready ∨
        sh = .building) ∧ pend ≠ none)),
    (let pl : List Byte := pay [(0, 1, 16)]; let s := doing 0x0603 pl { firing with swath.subst := { shadow := .ready }, swath.active := true };
      let c := cmd 0x0603 pl; let t : Nat := uAt c.payload 0 1; let f : Nat := uAt c.payload 1 1;
      let rq : SwapReq := { required := bitOf f 0, link := bitOf f 1 };
      let sh : Shadow := (if t = 0x10 then s.swath.subst.shadow else (greyPair s t).shadow);
      let pend : Option SwapReq := (if t = 0x10 then s.swath.subst.pending else (greyPair s t).pending);
      isDoing s 0x0603 c && decide ((t = 0x10 ∨ (t < 16 ∧ portSet s t = true)) ∧ f ≤ 3 ∧ (t = 0x10 → rq.link = false) ∧ (sh = .ready ∨
        sh = .building) ∧ pend = none ∧ s.sys.mode ≠ .idle ∧ s.sys.mode ≠ .hold ∧ s.sys.mode ≠ .home ∧ s.sys.mode ≠ .safestop ∧
        s.sys.mode ≠ .service)),
    (let pl : List Byte := pay [(8, 8, 1)];
      let s := doing 0x0603 pl { one with sys.mode := .idle, swath.grey := one.swath.grey.set 0 { shadow := .ready,
                                                                                                  built := some { codes := [], energy := [], cv := 0 } } };
      let c := cmd 0x0603 pl; let t : Nat := uAt c.payload 0 1; let f : Nat := uAt c.payload 1 1;
      let rq : SwapReq := { required := bitOf f 0, link := bitOf f 1 };
      let sh : Shadow := (if t = 0x10 then s.swath.subst.shadow else (greyPair s t).shadow);
      let pend : Option SwapReq := (if t = 0x10 then s.swath.subst.pending else (greyPair s t).pending);
      (if let some _ := (greyPair s t).built then (isDoing s 0x0603 c && decide ((t = 0x10 ∨ (t < 16 ∧ portSet s t = true)) ∧ f ≤ 3 ∧ (t = 0x10 →
        rq.link = false) ∧ (sh = .ready ∨ sh = .building) ∧ pend = none ∧ t < 16) && !rq.link && decide (sh = .ready) &&
        tableMoment s .atOnce) else false)),
    (let pl : List Byte := pay [(0, 1, 16)];
      let s := doing 0x0603 pl { one with sys.mode := .idle, swath.subst := { shadow := .ready, built := some {} } }; let c := cmd 0x0603 pl;
      let t : Nat := uAt c.payload 0 1; let f : Nat := uAt c.payload 1 1; let rq : SwapReq := { required := bitOf f 0, link := bitOf f 1 };
      let sh : Shadow := (if t = 0x10 then s.swath.subst.shadow else (greyPair s t).shadow);
      let pend : Option SwapReq := (if t = 0x10 then s.swath.subst.pending else (greyPair s t).pending);
      (if let some _ := s.swath.subst.built then (isDoing s 0x0603 c && decide ((t = 0x10 ∨ (t < 16 ∧ portSet s t = true)) ∧ f ≤ 3 ∧ (t = 0x10 →
        rq.link = false) ∧ (sh = .ready ∨ sh = .building) ∧ pend = none ∧ t = 0x10 ∧ sh = .ready) && tableMoment s .atOnce) else false)),
    (let s : State := { one with mem.synd := [], faults.stopped := [], mem.dram := Mem.writeN [] 0 (withCv (zeros 16)),
                                  swath.grey := one.swath.grey.set 0 { one.swath.grey[0] with shadow := .building, pending := none } };
      let p : Fin 16 := 0; let (o, _) := dramRead 1 s.swath.grey[p].addr 32 s;
      let r : Except Nat GreyMap := (match o with | none => .error 0x0D | some b => judgeGrey s.sys.legacy b);
      (if let .ok _ := r then (decide (s.swath.grey[p].shadow = .building)) else false)),
    (let s : State := { one with mem.synd := [], faults.stopped := [], mem.dram := Mem.writeN [] 0 [1],
                                  swath.grey := one.swath.grey.set 0 { one.swath.grey[0] with shadow := .building, pending := none } };
      let p : Fin 16 := 0; let (o, _) := dramRead 1 s.swath.grey[p].addr 32 s;
      let r : Except Nat GreyMap := (match o with | none => .error 0x0D | some b => judgeGrey s.sys.legacy b);
      (if let .error _ := r then (decide (s.swath.grey[p].shadow = .building)) else false)),
    (let s : State := { up with swath.subst.shadow := .building, swath.subst.byAudit := false, swath.subst.pending := none, audit.edits := [] };
      (if let (.ok _, _) := readSubst ((List.range 16).filter (portSet s)) (bgEnd .subst s) then (decide (s.swath.subst.shadow = .building) &&
        !s.swath.subst.byAudit && decide (s.audit.edits = [])) else false)),
    (let s : State := { one with swath.subst := { shadow := .building } };
      (if let (.error _, _) := readSubst ((List.range 16).filter (portSet s)) (bgEnd .subst s) then (decide (s.swath.subst.shadow = .building) &&
        !s.swath.subst.byAudit && decide (s.audit.edits = [])) else false)),
    (let s : State := { one with sys.mode := .idle, swath.subst := { shadow := .ready, built := some {} } }; let n : Nat := 0;
      decide ((n = 0x10 ∧ s.swath.subst.shadow ≠ .building) ∨ (n ≠ 0x10 ∧ (16 ≤ n ∨ (greyPair s n).shadow ≠ .building)))) ] : List Bool).all id = true := by
  decide +kernel

/-- The hypotheses of each clause of O27 are met. -/
theorem test_WaveformsLoadBuildAndSwap : (
  [ (let pl : List Byte := pay [(2, 2, 24576), (8, 8, 1073741824)];
      let s := doing 0x0701 pl { up with wave := up.wave.set 0 { up.wave[0] with shadow := .empty } }; let c := cmd 0x0701 pl;
      let p : Nat := uAt c.payload 0 1;
      isDoing s 0x0701 c && decide (16 ≤ p ∨ portSet s p = false)),
    (let pl : List Byte := [0, 1]; let s := doing 0x0701 pl one; let c := cmd 0x0701 pl; let p : Nat := uAt c.payload 0 1;
      let trim : Nat := uAt c.payload 2 2;
      isDoing s 0x0701 c && decide (p < 16) && portSet s p && decide (trim < 8192 ∨ 24576 < trim)),
    (let pl : List Byte := pay [(2, 2, 8192), (8, 8, 1)]; let s := doing 0x0701 pl one; let c := cmd 0x0701 pl;
      let p : Nat := uAt c.payload 0 1; let a : Nat := uAt c.payload 8 8; let trim : Nat := uAt c.payload 2 2;
      isDoing s 0x0701 c && decide (p < 16) && portSet s p && decide (8192 ≤ trim ∧ trim ≤ 24576 ∧ badBank s a = some .badArg)),
    (let pl : List Byte := pay [(2, 2, 24576), (8, 8, 1073741824)]; let s := doing 0x0701 pl one; let c := cmd 0x0701 pl;
      let p : Nat := uAt c.payload 0 1; let a : Nat := uAt c.payload 8 8; let trim : Nat := uAt c.payload 2 2;
      isDoing s 0x0701 c && decide (p < 16) && portSet s p && decide (8192 ≤ trim ∧ trim ≤ 24576 ∧ badBank s a = some .uninit)),
    (let pl : List Byte := [0, 0, 0, 96]; let s := doing 0x0701 pl one; let c := cmd 0x0701 pl; let p : Nat := uAt c.payload 0 1;
      let a : Nat := uAt c.payload 8 8; let trim : Nat := uAt c.payload 2 2;
      isDoing s 0x0701 c && decide (p < 16) && portSet s p && decide (8192 ≤ trim ∧ trim ≤ 24576 ∧ badBank s a = none) &&
        (nthOr s.heads p {}).record.isSome && decide ((nthOr s.wave p {}).shadow ≠ .building ∧ (nthOr s.wave p {}).pending = none)),
    (let pl : List Byte := [0, 0, 0, 96]; let s := doing 0x0701 pl { one with wave := one.wave.set 0 { one.wave[0] with shadow := .building } };
      let c := cmd 0x0701 pl; let p : Nat := uAt c.payload 0 1; let a : Nat := uAt c.payload 8 8; let trim : Nat := uAt c.payload 2 2;
      isDoing s 0x0701 c && decide (p < 16) && portSet s p && decide (8192 ≤ trim ∧ trim ≤ 24576 ∧ badBank s a = none) &&
        (nthOr s.heads p {}).record.isSome && decide ((nthOr s.wave p {}).shadow = .building ∨ (nthOr s.wave p {}).pending.isSome = true)),
    (let pl : List Byte := [0, 0, 0, 96]; let s := doing 0x0701 pl { one with heads := one.heads.set 0 { one.heads[0] with record := none } };
      let c := cmd 0x0701 pl; let p : Nat := uAt c.payload 0 1; let a : Nat := uAt c.payload 8 8; let trim : Nat := uAt c.payload 2 2;
      isDoing s 0x0701 c && decide (p < 16) && portSet s p && decide (8192 ≤ trim ∧ trim ≤ 24576 ∧ badBank s a = none ∧
        (nthOr s.heads p {}).record = none)),
    (let pl : List Byte := pay [(0, 1, 16)]; let s := doing 0x0702 pl one; let c := cmd 0x0702 pl;
      isDoing s 0x0702 c && decide (16 ≤ uAt c.payload 0 1)),
    (let pl : List Byte := [15, 3]; let s := doing 0x0702 pl one; let c := cmd 0x0702 pl;
      isDoing s 0x0702 c && decide (uAt c.payload 0 1 < 16 ∧ 1 < uAt c.payload 1 1)),
    (let pl : List Byte := pay [(2, 2, 24576), (8, 8, 1073741824)]; let p : Fin 16 := 0; let s := doing 0x0702 pl one; let c := cmd 0x0702 pl;
      isDoing s 0x0702 c && decide (uAt c.payload 0 1 = p.val ∧ uAt c.payload 1 1 ≤ 1 ∧ (s.wave[p].shadow = .empty ∨ s.wave[p].shadow = .failed))),
    (let pl : List Byte := pay [(2, 2, 24576), (8, 8, 1073741824)]; let p : Fin 16 := 0;
      let s := doing 0x0702 pl { up with wave := up.wave.set 0 { up.wave[0] with shadow := .ready, pending := some true } };
      let c := cmd 0x0702 pl;
      isDoing s 0x0702 c && decide (uAt c.payload 0 1 = p.val ∧ uAt c.payload 1 1 ≤ 1 ∧ (s.wave[p].shadow = .ready ∨ s.wave[p].shadow = .building) ∧
        s.wave[p].pending ≠ none)),
    (let pl : List Byte := pay [(2, 2, 24576), (8, 8, 1073741824)]; let p : Fin 16 := 0;
      let s := doing 0x0702 pl { up with sys.mode := .print, wave := up.wave.set 0 { up.wave[0] with shadow := .ready, pending := none } };
      let c := cmd 0x0702 pl;
      isDoing s 0x0702 c && decide (uAt c.payload 0 1 = p.val ∧ uAt c.payload 1 1 ≤ 1 ∧ (s.wave[p].shadow = .ready ∨ s.wave[p].shadow = .building) ∧
        s.wave[p].pending = none ∧ s.sys.mode ≠ .idle ∧ s.sys.mode ≠ .hold ∧ s.sys.mode ≠ .home ∧ s.sys.mode ≠ .safestop ∧ s.sys.mode ≠ .service)),
    (let pl : List Byte := pay [(2, 2, 24576), (8, 8, 1073741824)]; let p : Fin 16 := 0;
      let s := doing 0x0702 pl { up with sys.mode := .idle, wave := up.wave.set 0 { up.wave[0] with shadow := .ready, pending := none,
                                                                                                    banks := Vector.replicate 2 (some bank0) } };
      let c := cmd 0x0702 pl;
      (if let some _ := shadowBank s.wave[p] then (isDoing s 0x0702 c && decide (uAt c.payload 0 1 = p.val ∧ uAt c.payload 1 1 ≤ 1 ∧
        (s.wave[p].shadow = .ready ∨ s.wave[p].shadow = .building) ∧ s.wave[p].pending = none ∧ s.wave[p].shadow = .ready) &&
        waveMoment s p.val .atOnce && !(isLinked s p.val)) else false)),
    (let pl : List Byte := pay [(0, 1, 16)]; let s := doing 0x0703 pl { up with sys.mode := .configure }; let c := cmd 0x0703 pl;
      isDoing s 0x0703 c && decide (16 ≤ listTarget c.payload 0)),
    (let pl : List Byte := [0, 1]; let s := doing 0x0703 pl { up with sys.mode := .configure }; let c := cmd 0x0703 pl;
      (if let .ok _ := judgeList waveSpecs noRelation (nthOr s.cfg.staged.waves (listTarget c.payload 0) []) (listItems c.payload 0) then
        (isDoing s 0x0703 c && decide (listTarget c.payload 0 < 16)) else false)),
    (let pl : List Byte := pay [(2, 2, 24576), (8, 8, 1073741824)]; let s := doing 0x0703 pl { up with sys.mode := .configure };
      let c := cmd 0x0703 pl;
      (if let .error _ := judgeList waveSpecs noRelation (nthOr s.cfg.staged.waves (listTarget c.payload 0) []) (listItems c.payload 0) then
        (isDoing s 0x0703 c && decide (listTarget c.payload 0 < 16)) else false)),
    (let pl : List Byte := pay [(0, 1, 16)]; let s := doing 0x0704 pl { up with sys.mode := .service }; let c := cmd 0x0704 pl;
      let p : Nat := uAt c.payload 0 1;
      isDoing s 0x0704 c && decide (16 ≤ p)),
    (let pl : List Byte := pay [(0, 1, 15), (1, 1, 4)]; let s := doing 0x0704 pl { up with sys.mode := .service }; let c := cmd 0x0704 pl;
      let p : Nat := uAt c.payload 0 1;
      isDoing s 0x0704 c && decide (p < 16 ∧ 3 < uAt c.payload 1 1)),
    (let pl : List Byte := pay [(2, 2, 24576), (8, 8, 1073741824)]; let s := doing 0x0704 pl { up with sys.mode := .service };
      let c := cmd 0x0704 pl; let p : Nat := uAt c.payload 0 1;
      isDoing s 0x0704 c && decide (p < 16 ∧ uAt c.payload 1 1 ≤ 3)),
    (let s : State := one; let p : Fin 16 := 0;
      decide (s.wave[p].shadow ≠ .building ∨ oldBankWaits s p.val = true)),
    (let s : State := { one with mem.synd := [], faults.stopped := [], mem.dram := Mem.writeN [] 0 image0,
                                  wave := one.wave.set 0 { one.wave[0] with shadow := .building, pending := none, trim := 16384 },
                                  heads := one.heads.set 0 { one.heads[0] with tPort := 1000 } };
      let p : Fin 16 := 0; let (o, _) := dramRead 1 s.wave[p].addr (68 + 2 * uAt (Mem.readN s.mem.dram s.wave[p].addr 64) 6 2) s;
      let r : Except (Nat × Nat) Bank := (match o with | none => .error (13, 0) | some b => buildBank s.sys.legacy (tPortCheck s p.val) (s.heads[p].record.elim 0 (·.rankScale)) s.wave[p].trim b);
      (if let .ok _ := r then (decide (s.wave[p].shadow = .building) && !(oldBankWaits s p.val)) else false)),
    (let s : State := { one with wave := one.wave.set 0 { one.wave[0] with shadow := .building } }; let p : Fin 16 := 0;
      let (o, _) := dramRead 1 s.wave[p].addr (68 + 2 * uAt (Mem.readN s.mem.dram s.wave[p].addr 64) 6 2) s;
      let r : Except (Nat × Nat) Bank := (match o with | none => .error (13, 0) | some b => buildBank s.sys.legacy (tPortCheck s p.val) (s.heads[p].record.elim 0 (·.rankScale)) s.wave[p].trim b);
      (if let .error _ := r then (decide (s.wave[p].shadow = .building) && !(oldBankWaits s p.val)) else false)) ] : List Bool).all id = true := by
  decide +kernel

/-- The hypotheses of each clause of O28 are met. -/
theorem test_WaveformCyclesAndFrames : (
  [ (let s : State := { firing with wave := firing.wave.set 0 { firing.wave[0] with token := some line0, drive := 8,
                                                                                     banks := Vector.replicate 2 (some bank0) } };
      let p : Fin 16 := 0;
      (if let some _ := s.wave[p].token then (cycleReady s p.val) else false)),
    (let s : State := { firing with wave := firing.wave.set 0 { on := true, banks := Vector.replicate 2 (some bank0),
                                                                 cycles := [{ line := line0, bank := 0, startAt := 0 }] } };
      let p : Fin 16 := 0;
      !(cycleReady s p.val)),
    (let s : State := { firing with wave := firing.wave.set 0 { on := true, banks := Vector.replicate 2 (some bank0),
                                                                 cycles := [{ line := line0, bank := 0, startAt := 0 }] } };
      let p : Fin 16 := 1;
      decide (s.wave[p].cycles = []) && !(oldBankWaits s p.val)),
    (let s : State := { firing with wave := firing.wave.set 0 { on := true, banks := Vector.replicate 2 (some bank0),
                                                                 cycles := [{ line := line0, bank := 0, startAt := 0 }] } };
      let p : Fin 16 := 0;
      decide (s.wave[p].cycles ≠ [] ∨ oldBankWaits s p.val = true)),
    (let s : State := { firing with wave := firing.wave.set 0 { on := true, banks := Vector.replicate 2 (some bank0),
                                                                 cycles := [{ line := line0, bank := 0, startAt := 0 }] } };
      let p : Fin 16 := 0; let e : Option WaveErr := some { bank := 0, word := 0, synd := 3, at_ := 0 };
      (if let some e' := e then ((if let some b := s.wave[p].banks[e'.bank] then (s.wave[p].on &&
        decide (storedErrors p.val (s.clock - 2048) s = []) && !b.bad &&
        (ownerFinds (0x30 + p.val) 6 (bankBase p.val e'.bank.val + e'.word.val) e'.synd s).1 &&
        decide (latchedAt s (regionInst (0x30 + p.val)) = none) && canArise .wavEcc s && decide (s.sys.mode ≠ .follow)) else false)) else false)),
    (let s : State := { firing with wave := firing.wave.set 0 { on := true, banks := Vector.replicate 2 (some bank0),
                                                                 cycles := [{ line := line0, bank := 0, startAt := 0 }] } };
      let p : Fin 16 := 1;
      !(s.wave[p].on)) ] : List Bool).all id = true := by
  decide +kernel

/-- The hypotheses of each clause of O29 are met. -/
theorem test_LinesAreShiftedLatchedAndFired : (
  [ (let s : State := { firing with swath.line := firing.swath.line.set 0 { firing.swath.line[0] with ready := some line0, shifting := none } };
      let p : Fin 16 := 0;
      (if let some h := s.swath.line[p].ready then (let free : Bool := decide (((((if let some h := s.swath.line[p].ready then
        decide (h.first = true) else true)) = true)) ∨ (((((if let some g := s.swath.line[p].shifted then
        decide (neverLatched s p.val g.1 = true) else true)) = true)) ∧ s.swath.line[p].latchFall + 8 ≤ s.clock));
        decide (s.swath.line[p].shifting = none) && portFires s p.val && decide (free)) else false)),
    (let s : State := cycling { line := line0, bank := 0, startAt := 0, latched := true, open_ := some 0 }; let p : Fin 16 := 0;
      let free : Bool := decide (((((if let some h := s.swath.line[p].ready then decide (h.first = true) else true)) = true)) ∨
        (((((if let some g := s.swath.line[p].shifted then decide (neverLatched s p.val g.1 = true) else true)) = true)) ∧
        s.swath.line[p].latchFall + 8 ≤ s.clock));
      decide (s.swath.line[p].ready = none ∨ s.swath.line[p].shifting ≠ none ∨ portFires s p.val = false ∨ ¬ free)),
    (let s : State := { firing with pace.gateHeld := false,
                                     swath.line := firing.swath.line.set 0 { firing.swath.line[0] with shifting := some (line0, 0) } };
      let p : Fin 16 := 0;
      (if let some (_, _) := s.swath.line[p].shifting then (true) else false)),
    (let s : State := cycling { line := line0, bank := 0, startAt := 0, latched := true, open_ := some 0 }; let p : Fin 16 := 0;
      decide (((if let c :: _ := s.wave[p].cycles then decide (c.latched = true ∨ c.cut = true ∨ portFires s p.val = false ∨
        s.clock + 64 < c.startAt + 32 * ampLatencyOf s p.val + 8) else true)) = true)),
    (let s : State := { cycling { line := line0, bank := 0, startAt := 0 } with sys.profile := .markhor }; let p : Fin 16 := 0;
      let ok : Bool := true;
      (if let c :: cs := s.wave[p].cycles then (let whole : Bool := decide (((if let some (h, at_) := s.swath.line[p].shifted then
        decide (h.f = c.line.f ∧ at_ + 32 ≤ s.clock) else false)) = true); !c.latched && !c.cut && portFires s p.val &&
        decide (c.startAt + 32 * ampLatencyOf s p.val + 8 ≤ s.clock + 64 ∧ whole ∧ (s.sys.profile = .markhor → ok = true) ∧
        0 < (cycleBank s.wave[p] c).elim 0 (·.nwin))) else false)),
    (let s : State := { cycling { line := line0, bank := 0,
                                   startAt := 0 } with wave := firing.wave.set 0 { banks := Vector.replicate 2 (some { bank0 with nwin := 0 }),
                                                                                   cycles := [{ line := line0, bank := 0, startAt := 0 }] } };
      let p : Fin 16 := 0; let ok : Bool := true;
      (if let c :: cs := s.wave[p].cycles then (let whole : Bool := decide (((if let some (h, at_) := s.swath.line[p].shifted then
        decide (h.f = c.line.f ∧ at_ + 32 ≤ s.clock) else false)) = true); !c.latched && !c.cut && portFires s p.val &&
        decide (c.startAt + 32 * ampLatencyOf s p.val + 8 ≤ s.clock + 64 ∧ whole ∧ (s.sys.profile = .markhor → ok = true) ∧
        (cycleBank s.wave[p] c).elim 0 (·.nwin) = 0)) else false)),
    (let s : State := { cycling { line := line0, bank := 0, startAt := 0 } with swath := {} }; let p : Fin 16 := 0;
      (if let c :: cs := s.wave[p].cycles then (let whole : Bool := decide (((if let some (h, at_) := s.swath.line[p].shifted then
        decide (h.f = c.line.f ∧ at_ + 32 ≤ s.clock) else false)) = true); !c.latched && !c.cut && portFires s p.val &&
        decide (c.startAt + 32 * ampLatencyOf s p.val + 8 ≤ s.clock + 64 ∧ ¬ whole)) else false)),
    (let s : State := { cycling { line := line0, bank := 0, startAt := 0 } with sys.profile := .markhor }; let p : Fin 16 := 0;
      (if let c :: cs := s.wave[p].cycles then (let whole : Bool := decide (((if let some (h, at_) := s.swath.line[p].shifted then
        decide (h.f = c.line.f ∧ at_ + 32 ≤ s.clock) else false)) = true); !c.latched && !c.cut && portFires s p.val &&
        decide (c.startAt + 32 * ampLatencyOf s p.val + 8 ≤ s.clock + 64 ∧ whole ∧ s.sys.profile = .markhor)) else false)),
    (let s : State := cycling { line := line0, bank := 0, startAt := 0, latched := true, next := 1 }; let p : Fin 16 := 0; let w : Fin 7 := 1;
      (if let c :: _ := s.wave[p].cycles then (let may : Bool := decide (c.latched = true ∧ c.cut = false ∧ c.open_ = none ∧ c.next = w.val ∧
        w.val < (cycleBank s.wave[p] c).elim 0 (·.nwin) ∧ portFires s p.val = true ∧
        (headSampleAt s p.val c (windowOf s.wave[p] c w.val).1 + (if w.val ≠ 0 ∧
        (windowOf s.wave[p] c (w.val - 1)).2 = (windowOf s.wave[p] c w.val).1 then 4 else 0)) / 4 < s.clock / 4); decide (may ∧ (w.val ≠ 0 ∨
        recordOf s p.val = none))) else false)),
    (let s : State := cycling { line := line0, bank := 0, startAt := 0, latched := true }; let p : Fin 16 := 0; let w : Fin 7 := 0;
      (if let c :: _ := s.wave[p].cycles then (let may : Bool := decide (c.latched = true ∧ c.cut = false ∧ c.open_ = none ∧ c.next = w.val ∧
        w.val < (cycleBank s.wave[p] c).elim 0 (·.nwin) ∧ portFires s p.val = true ∧
        (headSampleAt s p.val c (windowOf s.wave[p] c w.val).1 + (if w.val ≠ 0 ∧
        (windowOf s.wave[p] c (w.val - 1)).2 = (windowOf s.wave[p] c w.val).1 then 4 else 0)) / 4 < s.clock / 4); decide (may ∧ w.val = 0) &&
        (recordOf s p.val).isSome) else false)),
    (let s : State := cycling { line := line0, bank := 0, startAt := 0, latched := true, open_ := some 0 }; let p : Fin 16 := 0;
      let w : Fin 7 := 1;
      (if let c :: _ := s.wave[p].cycles then (let may : Bool := decide (c.latched = true ∧ c.cut = false ∧ c.open_ = none ∧ c.next = w.val ∧
        w.val < (cycleBank s.wave[p] c).elim 0 (·.nwin) ∧ portFires s p.val = true ∧
        (headSampleAt s p.val c (windowOf s.wave[p] c w.val).1 + (if w.val ≠ 0 ∧
        (windowOf s.wave[p] c (w.val - 1)).2 = (windowOf s.wave[p] c w.val).1 then 4 else 0)) / 4 < s.clock / 4); decide (¬ may)) else false)),
    (let s : State := cycling { line := line0, bank := 0, startAt := 0, latched := true, open_ := some 0 }; let p : Fin 16 := 0;
      let w : Fin 7 := 0;
      (if let c :: _ := s.wave[p].cycles then (decide (c.open_ = some w.val ∧
        headSampleAt s p.val c (windowOf s.wave[p] c w.val).2 ≤ s.clock)) else false)),
    (let s : State := cycling { line := line0, bank := 0, startAt := 0, latched := true, open_ := some 0 }; let p : Fin 16 := 0;
      let w : Fin 7 := 1;
      (if let c :: _ := s.wave[p].cycles then (decide (c.open_ ≠ some w.val ∨
        s.clock < headSampleAt s p.val c (windowOf s.wave[p] c w.val).2)) else false)),
    (let s : State := cycling { line := line0, bank := 0, startAt := 0, latched := true, open_ := some 0 }; let p : Fin 16 := 1;
      decide (s.wave[p].cycles = [])),
    (let s : State := up; let p : Fin 16 := 0;
      !(portFires s p.val)) ] : List Bool).all id = true := by
  decide +kernel

/-- The hypotheses of each clause of O30 are met. -/
theorem test_TokensPaceTheLines : (
  [ (let s : State := { firing with swath := { active := true, kind := .maint, line := firing.swath.line.set 0 { shifted := some (line0, 0) } },
                                     clock := 32, sys := { firing.sys with mode := .maintain },
                                     pace := { source := .timer, mLines := 5, mDue := 1, mPorts := 1,
                                               port := firing.pace.port.set 0 { dueAt := some 0 } } };
      let p : Fin 16 := 0;
      (if let some _ := headLineOf s.swath.line[p] s.pace.port[p].next then (tokenReady s p.val) else false)),
    (let s : State := { firing with sys.mode := .maintain, pace.source := .timer, pace.mLines := 1 }; let p : Fin 16 := 0;
      !(tokenReady s p.val)),
    (let s : State := { firing with swath := { active := true, kind := .maint, line := firing.swath.line.set 0 { shifted := some (line0, 0) } },
                                     clock := 32, sys := { firing.sys with mode := .maintain },
                                     pace := { source := .timer, mLines := 5, mDue := 1, mPorts := 1,
                                               port := firing.pace.port.set 0 { dueAt := some 0 } } };
      let now : Bool := decide (s.pace.source = .timer ∧ s.swath.active = true ∧ ((s.pace.mT0 = none ∧ frame0Shifted 32 s = true) ∨
        (((if let some t0 := s.pace.mT0 then decide (5 * t0 + 4 * (s.pace.mDue * s.pace.mPeriod) ≤ 5 * s.clock) else false)) = true)));
      decide (now ∧ s.sys.mode = .maintain ∧ s.pace.mDue < s.pace.mLines) && !s.pace.mStop),
    (let s : State := { firing with swath.active := true, pace := { source := .timer, mStop := true, mT0 := some 0 } };
      let now : Bool := decide (s.pace.source = .timer ∧ s.swath.active = true ∧ ((s.pace.mT0 = none ∧ frame0Shifted 32 s = true) ∨
        (((if let some t0 := s.pace.mT0 then decide (5 * t0 + 4 * (s.pace.mDue * s.pace.mPeriod) ≤ 5 * s.clock) else false)) = true)));
      decide (now ∧ (s.sys.mode ≠ .maintain ∨ s.pace.mLines ≤ s.pace.mDue ∨ s.pace.mStop = true))),
    (let s : State := { firing with sys.mode := .maintain, pace.source := .timer, pace.mLines := 1 };
      let now : Bool := decide (s.pace.source = .timer ∧ s.swath.active = true ∧ ((s.pace.mT0 = none ∧ frame0Shifted 32 s = true) ∨
        (((if let some t0 := s.pace.mT0 then decide (5 * t0 + 4 * (s.pace.mDue * s.pace.mPeriod) ≤ 5 * s.clock) else false)) = true)));
      decide (¬ now)),
    (let s : State := { firing with swath.active := false, parked := none, sys.mode := .maintain, pace.ended := true };
      maintComplete s && !s.sys.resetPending),
    (let s : State := { firing with sys.mode := .maintain, pace.source := .timer, pace.mLines := 1 };
      !(maintComplete s)),
    (let s : State := { firing with sys.mode := .maintain, pace.source := .timer, pace.mLines := 1 }; let _ : Fin 16 := 0;
      let v := (portsOn s).foldl noteStale (swapSubstDue .permission ((portsOn s).foldl (fun s p => swapPort .permission 0 p s) ((portsOn s).foldl noteStale s)));
      (if let some (_, _) := permissionBase s then (decide (∃ n ∈ portsOn s, bankReady v n = false)) else false)),
    (let s : State := { firing with sys.profile := .impala, swath.subst.pending := none, sys.mode := .maintain, pace.source := .timer,
                                     pace.mLines := 1,
                                     wave := firing.wave.set 0 { firing.wave[0] with drive := 8, banks := Vector.replicate 2 (some bank0) } };
      let _ : Fin 16 := 0;
      let v := (portsOn s).foldl noteStale (swapSubstDue .permission ((portsOn s).foldl (fun s p => swapPort .permission 0 p s) ((portsOn s).foldl noteStale s)));
      (if let some (_, _) := permissionBase s then (decide (∀ n ∈ portsOn s, bankReady v n = true)) else false)),
    (let s : State := { firing with swath.active := true, pace := { source := .timer, mStop := true, mT0 := some 0 } };
      decide (permissionBase s = none)) ] : List Bool).all id = true := by
  decide +kernel

/-- The hypotheses of each clause of O31 are met. -/
theorem test_HeadsComeAndGo : (
  [ (let s : State := { firing with heads := firing.heads.set 0 { firing.heads[0] with firingTicks := 720000000000 }, sys.pwrFailN := false };
      let p : Fin 16 := 1;
      filtersRun s p.val && !(s.heads[p].present)),
    (let s : State := { firing with heads := firing.heads.set 0 { firing.heads[0] with firingTicks := 720000000000 }, sys.pwrFailN := false };
      let p : Fin 16 := 0;
      filtersRun s p.val && s.heads[p].present),
    (let s : State := { firing with heads := firing.heads.set 0 { firing.heads[0] with firingTicks := 720000000000 }, sys.pwrFailN := false };
      let p : Fin 16 := 0;
      filtersRun s p.val && !(s.heads[p].fault)),
    (let s : State := { one with heads := one.heads.set 0 { one.heads[0] with fault := true } }; let p : Fin 16 := 0;
      filtersRun s p.val && s.heads[p].fault),
    (let s : State := State.reset; let p : Fin 16 := 0;
      !(filtersRun s p.val)),
    (let s : State := { one with heads := one.heads.set 0 { one.heads[0] with reading := true, present := true } }; let p : Fin 16 := 0;
      s.heads[p].reading && s.heads[p].present),
    (let s : State := { firing with heads := firing.heads.set 0 { firing.heads[0] with firingTicks := 720000000000 }, sys.pwrFailN := false };
      let p : Fin 16 := 0;
      decide (s.heads[p].reading = false ∨ s.heads[p].present = false)),
    (let s : State := { firing with heads := firing.heads.set 0 { firing.heads[0] with firingTicks := 720000000000, usageRead := true } }; let p : Fin 16 := 0;
      portFires s p.val && usageDue p.val s && mayWriteUsage s p.val),
    (let s : State := { firing with heads := firing.heads.set 0 { firing.heads[0] with firingTicks := 720000000000 }, sys.pwrFailN := false };
      let p : Fin 16 := 0;
      portFires s p.val && usageDue p.val s && !(mayWriteUsage s p.val)),
    (let s : State := { firing with heads := firing.heads.set 0 { firing.heads[0] with firingTicks := 720000000000 }, sys.pwrFailN := false };
      let p : Fin 16 := 1;
      decide (portFires s p.val = false ∨ usageDue p.val s = false)),
    (let s : State := { one with sys.mode := .follow, twin.fit := true }; let p : Fin 16 := 0;
      filtersRun s p.val && s.heads[p].present && portOn s p.val && decide (s.sys.mode = .follow) && s.twin.fit && !(s.heads[p].fault)) ] : List Bool).all id = true := by
  decide +kernel

/-- The hypotheses of each clause of O32 are met. -/
theorem test_HeadMemoryAndBarOwnership : (
  [ (let pl : List Byte := pay [(0, 1, 16)];
      let s := doing 0x0801 pl { one with bar := { committed := true, peer := true, own := true }, clock := 1000 }; let c := cmd 0x0801 pl;
      isDoing s 0x0801 c && decide (16 ≤ uAt c.payload 0 1)),
    (let pl : List Byte := [15, 4]; let p : Fin 16 := 15;
      let s := doing 0x0801 pl { one with bar := { committed := true, peer := true, own := true }, clock := 1000 }; let c := cmd 0x0801 pl;
      let k : Nat := uAt c.payload 1 1;
      isDoing s 0x0801 c && decide (uAt c.payload 0 1 = p.val ∧ 3 < k)),
    (let pl : List Byte := zeros 8 ++ withCv (zeros 252); let p : Fin 16 := 0; let s := doing 0x0801 pl up; let c := cmd 0x0801 pl;
      let k : Nat := uAt c.payload 1 1;
      isDoing s 0x0801 c && decide (uAt c.payload 0 1 = p.val ∧ k ≤ 3) && !(s.heads[p].present)),
    (let pl : List Byte := [0, 2]; let p : Fin 16 := 0;
      let s := doing 0x0801 pl { one with bar := { committed := true, peer := true, own := true }, clock := 1000 }; let c := cmd 0x0801 pl;
      let k : Nat := uAt c.payload 1 1;
      isDoing s 0x0801 c && decide (uAt c.payload 0 1 = p.val ∧ 2 ≤ k ∧ k ≤ 3) && s.heads[p].present),
    (let pl : List Byte := zeros 8 ++ withCv (zeros 252); let p : Fin 16 := 0;
      let s := doing 0x0801 pl { one with bar := { committed := true, peer := true, own := true }, clock := 1000 }; let c := cmd 0x0801 pl;
      let k : Nat := uAt c.payload 1 1;
      isDoing s 0x0801 c && decide (uAt c.payload 0 1 = p.val ∧ k < 2) && s.heads[p].present),
    (let pl : List Byte := pay [(0, 1, 16)]; let s := doing 0x0802 pl { up with sys.mode := .configure }; let c := cmd 0x0802 pl;
      isDoing s 0x0802 c && decide (16 ≤ uAt c.payload 0 1)),
    (let pl : List Byte := [15, 4]; let p : Fin 16 := 15; let s := doing 0x0802 pl { up with sys.mode := .configure }; let c := cmd 0x0802 pl;
      let k : Nat := uAt c.payload 1 1;
      isDoing s 0x0802 c && decide (uAt c.payload 0 1 = p.val ∧ 2 < k)),
    (let pl : List Byte := zeros 64; let p : Fin 16 := 0; let s := doing 0x0802 pl { up with sys.mode := .configure }; let c := cmd 0x0802 pl;
      let b : List Byte := (c.payload.drop 8).take 256; let k : Nat := uAt c.payload 1 1;
      isDoing s 0x0802 c && decide (uAt c.payload 0 1 = p.val ∧ k ≤ 2) && !(blockCvOk b)),
    (let pl : List Byte := zeros 8 ++ withCv (zeros 252); let p : Fin 16 := 0; let s := doing 0x0802 pl { up with sys.mode := .configure };
      let c := cmd 0x0802 pl; let b : List Byte := (c.payload.drop 8).take 256; let k : Nat := uAt c.payload 1 1;
      isDoing s 0x0802 c && decide (uAt c.payload 0 1 = p.val ∧ k ≤ 2) && blockCvOk b && !(s.heads[p].present)),
    (let pl : List Byte := zeros 8 ++ withCv (zeros 252); let p : Fin 16 := 0; let s := doing 0x0802 pl { up with sys.mode := .configure };
      let c := cmd 0x0802 pl; let b : List Byte := (c.payload.drop 8).take 256;
      isDoing s 0x0802 c && decide (uAt c.payload 0 1 = p.val ∧ b.length = 256)),
    (let pl : List Byte := zeros 8 ++ withCv (zeros 252); let tries : List BusTry := []; let back : List Byte := withCv (zeros 252);
      let p : Fin 16 := 0; let s := doing 0x0802 pl { one with sys.mode := .configure }; let c := cmd 0x0802 pl;
      let b : List Byte := (c.payload.drop 8).take 256; let k : Nat := uAt c.payload 1 1;
      let w : Nat × List BusTry × State := writePages p (0x100 * k) b tries s;
      let x : Nat × List BusTry × State := (if w.1 = 0 then readHead p [k] w.2.1 w.2.2 else w);
      isDoing s 0x0802 c && decide (uAt c.payload 0 1 = p.val ∧ k ≤ 2) && blockCvOk b && s.heads[p].present && s.sys.pwrFailN && decide (x.1 = 0 ∧
        headBlock back k = b)),
    (let pl : List Byte := zeros 8 ++ withCv (zeros 252); let tries : List BusTry := []; let back : List Byte := []; let p : Fin 16 := 0;
      let cause : Nat := 3; let s := doing 0x0802 pl { one with sys.mode := .configure }; let c := cmd 0x0802 pl;
      let b : List Byte := (c.payload.drop 8).take 256; let k : Nat := uAt c.payload 1 1;
      let w : Nat × List BusTry × State := writePages p (0x100 * k) b tries s;
      let x : Nat × List BusTry × State := (if w.1 = 0 then readHead p [k] w.2.1 w.2.2 else w);
      isDoing s 0x0802 c && decide (uAt c.payload 0 1 = p.val ∧ k ≤ 2) && blockCvOk b && s.heads[p].present && s.sys.pwrFailN && decide ((x.1 ≠ 0 ∧
        cause = recordCause s.sys.legacy (readHead p [0, 1, 2, 3] x.2.1 x.2.2).1 back) ∨ (x.1 = 0 ∧ headBlock back k ≠ b ∧
        cause = recordCause s.sys.legacy 0 back))),
    (let s : State := { one with bar := { committed := true, peer := true, own := true }, clock := 1000 };
      decide (s.sys.mode ≠ .keepalive ∧ s.sys.mode ≠ .boot)),
    (let s : State := State.reset;
      decide (s.sys.mode = .keepalive ∨ s.sys.mode = .boot)),
    (let s : State := { one with bar := { committed := true, peer := true, own := true }, clock := 1000 };
      contending s && decide (s.bar.contention = false ∨ s.bar.contAt < s.bar.peerSince)),
    (let s : State := up;
      decide (contending s = false ∨ (s.bar.contention = true ∧ s.bar.peerSince ≤ s.bar.contAt))),
    (let pl : List Byte := zeros 8 ++ withCv (zeros 252); let p : Fin 16 := 0; let s := doing 0x0802 pl { one with sys := { one.sys with mode := .configure, pwrFailN := false } };
      let c := cmd 0x0802 pl; let b : List Byte := (c.payload.drop 8).take 256; let k : Nat := uAt c.payload 1 1;
      isDoing s 0x0802 c && decide (uAt c.payload 0 1 = p.val ∧ k ≤ 2) && blockCvOk b && s.heads[p].present && !s.sys.pwrFailN) ] : List Bool).all id = true := by
  decide +kernel

/-- The hypotheses of each clause of O33 are met. -/
theorem test_FeedbackCountsAndCaptures : (
  [ (let f : Fbk := { params := [⟨1, 0, 3⟩], a := false, b := false };
      decide (f.mode = 3) && !f.a && !f.b),
    (let f : Fbk := { params := [⟨1, 0, 3⟩], a := true, b := false };
      decide (f.mode = 3) && f.a && !f.b),
    (let f : Fbk := { params := [⟨1, 0, 3⟩], a := true, b := true };
      decide (f.mode = 3) && f.a && f.b),
    (let f : Fbk := { params := [⟨1, 0, 3⟩], a := false, b := true };
      decide (f.mode = 3) && !f.a && f.b),
    (let s : State := { up with fbk := up.fbk.set 0 { params := [⟨1, 0, 1⟩], fa := { sample := true, run := 1 } } }; let c : Fin 8 := 0;
      let a : Bool := true; let b : Bool := true; let n : Nat := 0; let f : Fbk := s.fbk[c]; let x : Option Nat := f.fa.takesAt f.filter f.a a n;
      let y : Option Nat := f.fb.takesAt f.filter f.b b n; let _ : Bool := (if x.isSome then a else f.a);
      let _ : Bool := (if y.isSome then b else f.b);
      decide (feedbackOn s = false ∨ (x = none ∧ y = none))),
    (let s : State := { up with fbk := up.fbk.set 0 { params := [⟨1, 0, 1⟩], fa := { sample := true, run := 1 } } }; let c : Fin 8 := 0;
      let a : Bool := true; let b : Bool := true; let n : Nat := 3; let f : Fbk := s.fbk[c]; let x : Option Nat := f.fa.takesAt f.filter f.a a n;
      let y : Option Nat := f.fb.takesAt f.filter f.b b n; let a' : Bool := (if x.isSome then a else f.a);
      let b' : Bool := (if y.isSome then b else f.b);
      (if let some d := decodeCount f a' b' then (feedbackOn s && decide ((x = none ∨ y = none ∨ x = y) ∧ d ≠ 0)) else false)),
    (let s : State := { up with fbk := up.fbk.set 0 { up.fbk[0] with params := [⟨1, 0, 3⟩] } }; let c : Fin 8 := 0; let a : Bool := true;
      let b : Bool := true; let n : Nat := 4; let f : Fbk := s.fbk[c]; let x : Option Nat := f.fa.takesAt f.filter f.a a n;
      let y : Option Nat := f.fb.takesAt f.filter f.b b n; let a' : Bool := (if x.isSome then a else f.a);
      let b' : Bool := (if y.isSome then b else f.b);
      feedbackOn s && decide ((x = none ∨ y = none ∨ x = y) ∧ decodeCount f a' b' = none)),
    (let s : State := { up with fbk := up.fbk.set 0 { params := [⟨1, 0, 1⟩], fa := { sample := true, run := 1 } } }; let c : Fin 8 := 0;
      let a : Bool := true; let b : Bool := true; let n : Nat := 0; let f : Fbk := s.fbk[c]; let x : Option Nat := f.fa.takesAt f.filter f.a a n;
      let y : Option Nat := f.fb.takesAt f.filter f.b b n; let a' : Bool := (if x.isSome then a else f.a);
      let b' : Bool := (if y.isSome then b else f.b);
      feedbackOn s && decide ((x = none ∨ y = none ∨ x = y) ∧ decodeCount f a' b' = some 0)),
    (let s : State := { up with fbk := up.fbk.set 0 { params := [⟨1, 0, 1⟩], fa := { sample := true, run := 1 } } }; let c : Fin 8 := 0;
      let a : Bool := true; let b : Bool := true; let n : Nat := 4; let f : Fbk := s.fbk[c]; let x : Option Nat := f.fa.takesAt f.filter f.a a n;
      let y : Option Nat := f.fb.takesAt f.filter f.b b n;
      (if let some i := x then ((if let some j := y then (let h := (if i < j then { f with a := a } else { f with b := b });
        let _ : Bool := (if x.isSome then a else f.a); let _ : Bool := (if y.isSome then b else f.b); (if let some _ := decodeCount f h.a h.b then
        ((if let some _ := decodeCount h a b then (feedbackOn s && decide (i ≠ j)) else false)) else false)) else false)) else false)),
    (let s : State := { up with fbk := up.fbk.set 0 { params := [⟨1, 0, 1⟩], fa := { sample := true, run := 1 } } }; let c : Fin 8 := 0;
      decide (feedbackOn s = false ∨ s.fbk[c].mode ≠ 6)),
    (let s : State := { up with fbk := up.fbk.set 0 { params := [⟨1, 0, 6⟩], badBefore := true } }; let c : Fin 8 := 0;
      feedbackOn s && decide (s.fbk[c].mode = 6 ∧ hallSector s.fbk[c].hall = none) && s.fbk[c].badBefore),
    (let s : State := { up with fbk := up.fbk.set 0 { params := [⟨1, 0, 6⟩] } }; let c : Fin 8 := 0;
      feedbackOn s && decide (s.fbk[c].mode = 6 ∧ hallSector s.fbk[c].hall = none) && !(s.fbk[c].badBefore)),
    (let s : State := { up with fbk := up.fbk.set 0 { params := [⟨1, 0, 6⟩], a := true } }; let c : Fin 8 := 0;
      (if let some k := hallSector s.fbk[c].hall then (feedbackOn s && decide (s.fbk[c].mode = 6 ∧ (s.fbk[c].sector = none ∨
        ((((if let some o := s.fbk[c].sector then decide (hallMove o k = some 0) else false)) = true))))) else false)),
    (let s : State := { up with fbk := up.fbk.set 0 { params := [⟨1, 0, 6⟩], a := true, sector := some 3 } }; let c : Fin 8 := 0;
      (if let some k := hallSector s.fbk[c].hall then ((if let some o := s.fbk[c].sector then (feedbackOn s && decide (s.fbk[c].mode = 6 ∧
        hallMove o k = none)) else false)) else false)),
    (let s : State := { up with fbk := up.fbk.set 0 { up.fbk[0] with sector := some 0, params := [⟨1, 0, 6⟩], a := true, b := true } };
      let c : Fin 8 := 0;
      (if let some k := hallSector s.fbk[c].hall then ((if let some o := s.fbk[c].sector then ((if let some d := hallMove o k then (feedbackOn s &&
        decide (s.fbk[c].mode = 6 ∧ d ≠ 0)) else false)) else false)) else false)),
    (let s : State := { up with fbk := up.fbk.set 0 { params := [⟨1, 0, 1⟩], fa := { sample := true, run := 1 } } }; let c : Fin 8 := 0;
      let h : Bool := true; let n : Nat := 0; let f : Fbk := s.fbk[c];
      decide (f.fc.takesAt f.filter f.c h n = none)),
    (let s : State := { up with fbk := up.fbk.set 0 { params := [⟨1, 0, 1⟩], fa := { sample := true, run := 1 } } }; let c : Fin 8 := 0;
      let h : Bool := true; let n : Nat := 4; let f : Fbk := s.fbk[c];
      decide (f.fc.takesAt f.filter f.c h n ≠ none ∧ (feedbackOn s = false ∨ f.mode = 0 ∨ f.mode = 6 ∨ f.capt = none ∨ ((((if let some (_,
        _) := f.capt then decide (True) else false)) = true))))),
    (let s : State := { up with fbk := up.fbk.set 0 { up.fbk[0] with capt := some (false, false), params := [⟨1, 0, 5⟩] } }; let c : Fin 8 := 0;
      let h : Bool := true; let n : Nat := 4; let f : Fbk := s.fbk[c];
      decide (f.fc.takesAt f.filter f.c h n ≠ none) && feedbackOn s && decide (f.mode ≠ 0 ∧ f.mode ≠ 6 ∧ f.capt.map (·.1) = some (!h))),
    (let s : State := { up with clock := 800000, fbk := up.fbk.set 0 { params := [⟨1, 0, 1⟩], fa := { sample := true, run := 1 } } }; let c : Fin 8 := 0;
      feedbackOn s && decide (s.fbk[c].mode ≠ 0 ∧ s.fbk[c].winAt + s.fbk[c].window ≤ s.clock)),
    (let s : State := { up with clock := 799999, fbk := up.fbk.set 0 { params := [⟨1, 0, 1⟩] } }; let c : Fin 8 := 0;
      decide (s.fbk[c].mode ≠ 0 ∧ s.clock < s.fbk[c].winAt + s.fbk[c].window)),
    (let s : State := { up with fbk := up.fbk.set 0 { params := [⟨1, 0, 1⟩], fa := { sample := true, run := 1 } } }; let c : Fin 8 := 1;
      decide (feedbackOn s = false ∨ s.fbk[c].mode = 0)),
    (let s : State := { up with clock := 100000, fbo := up.fbo.set 0 ({ params := [⟨1, 0, 1⟩], backlog := 1 }) }; let i : Fin 2 := 0;
      s.fbo[i].enabled && decide (s.fbo[i].backlog ≠ 0 ∧ (s.fbo[i].stepAt = 0 ∨ s.fbo[i].stepAt + 4 * s.fbo[i].spacing ≤ s.clock))),
    (let s : State := { up with fbk := up.fbk.set 0 { params := [⟨1, 0, 1⟩], fa := { sample := true, run := 1 } } }; let i : Fin 2 := 0;
      decide (s.fbo[i].enabled = false ∨ s.fbo[i].backlog = 0 ∨ (s.fbo[i].stepAt ≠ 0 ∧ s.clock < s.fbo[i].stepAt + 4 * s.fbo[i].spacing))) ] : List Bool).all id = true := by
  decide +kernel

/-- The hypotheses of each clause of O34 are met. -/
theorem test_FeedbackCommandsSetChannels : (
  [ (let pl : List Byte := [8];
      let s := doing 0x0902 pl { up with fbk := up.fbk.set 0 { params := [⟨1, 0, 1⟩] }, fbo := up.fbo.set 0 { params := [⟨1, 0, 1⟩] } };
      let c := cmd 0x0902 pl;
      decide (8 ≤ uAt c.payload 0 1) && isDoing s 0x0902 c),
    (let pl : List Byte := [8];
      let s := doing 0x0903 pl { up with fbk := up.fbk.set 0 { params := [⟨1, 0, 1⟩] }, fbo := up.fbo.set 0 { params := [⟨1, 0, 1⟩] } };
      let c := cmd 0x0903 pl;
      decide (8 ≤ uAt c.payload 0 1) && isDoing s 0x0903 c),
    (let pl : List Byte := [8];
      let s := doing 0x0904 pl { up with fbk := up.fbk.set 0 { params := [⟨1, 0, 1⟩] }, fbo := up.fbo.set 0 { params := [⟨1, 0, 1⟩] } };
      let c := cmd 0x0904 pl;
      decide (8 ≤ uAt c.payload 0 1) && isDoing s 0x0904 c),
    (let pl : List Byte := [8];
      let s := doing 0x0901 pl { up with fbk := up.fbk.set 0 { params := [⟨1, 0, 1⟩] }, fbo := up.fbo.set 0 { params := [⟨1, 0, 1⟩] } };
      let c := cmd 0x0901 pl;
      decide (8 ≤ listTarget c.payload 0) && isDoing s 0x0901 c),
    (let pl : List Byte := [8];
      let s := doing 0x0905 pl { up with fbk := up.fbk.set 0 { params := [⟨1, 0, 1⟩] }, fbo := up.fbo.set 0 { params := [⟨1, 0, 1⟩] } };
      let c := cmd 0x0905 pl;
      decide (2 ≤ listTarget c.payload 0) && isDoing s 0x0905 c),
    (let pl : List Byte := lst 0 [(5, 0, 4)]; let n : Fin 8 := 0;
      let s := doing 0x0901 pl { up with job := { isOpen := true, params := [⟨1, 0, 0⟩, ⟨7, 0, 2⟩] }, fbk := up.fbk.set 0 { params := [⟨1, 0, 1⟩] } };
      let c := cmd 0x0901 pl;
      (if let .ok _ := judgeList fbkSpecs noRelation s.fbk[n].params (listItems c.payload 0) then (isDoing s 0x0901 c &&
        decide (listTarget c.payload 0 = n.val) && channelClaimed s n.val) else false)),
    (let pl : List Byte := lst 0 [(5, 0, 4)]; let n : Fin 8 := 0;
      let s := doing 0x0901 pl { up with fbk := up.fbk.set 0 { params := [⟨1, 0, 1⟩] }, fbo := up.fbo.set 0 { params := [⟨1, 0, 1⟩] } };
      let c := cmd 0x0901 pl;
      (if let .ok _ := judgeList fbkSpecs noRelation s.fbk[n].params (listItems c.payload 0) then (isDoing s 0x0901 c &&
        decide (listTarget c.payload 0 = n.val) && !(channelClaimed s n.val)) else false)),
    (let pl : List Byte := lst 0 [(8, 0, 100)]; let n : Fin 8 := 0;
      let s := doing 0x0901 pl { up with fbk := up.fbk.set 0 { params := [⟨1, 0, 1⟩] }, fbo := up.fbo.set 0 { params := [⟨1, 0, 1⟩] } };
      let c := cmd 0x0901 pl;
      (if let .error _ := judgeList fbkSpecs noRelation s.fbk[n].params (listItems c.payload 0) then (isDoing s 0x0901 c &&
        decide (listTarget c.payload 0 = n.val)) else false)),
    (let pl : List Byte := lst 0 [(8, 0, 100)]; let n : Fin 8 := 0;
      let s := doing 0x0902 pl { up with job := { isOpen := true, params := [⟨1, 0, 0⟩, ⟨7, 0, 2⟩] }, fbk := up.fbk.set 0 { params := [⟨1, 0, 1⟩] } };
      let c := cmd 0x0902 pl;
      isDoing s 0x0902 c && decide (uAt c.payload 0 1 = n.val) && channelClaimed s n.val && decide (-(2 ^ 47) ≤ iAt c.payload 8 8 ∧
        iAt c.payload 8 8 < 2 ^ 47)),
    (let pl : List Byte := pay [(8, 8, 140737488355328)]; let n : Fin 8 := 0;
      let s := doing 0x0902 pl { up with fbk := up.fbk.set 0 { params := [⟨1, 0, 1⟩] }, fbo := up.fbo.set 0 { params := [⟨1, 0, 1⟩] } };
      let c := cmd 0x0902 pl;
      isDoing s 0x0902 c && decide (uAt c.payload 0 1 = n.val) && decide (iAt c.payload 8 8 < -(2 ^ 47) ∨
        2 ^ 47 ≤ iAt c.payload 8 8)),
    (let pl : List Byte := lst 0 [(8, 0, 100)]; let n : Fin 8 := 0;
      let s := doing 0x0902 pl { up with fbk := up.fbk.set 0 { params := [⟨1, 0, 1⟩] }, fbo := up.fbo.set 0 { params := [⟨1, 0, 1⟩] } };
      let c := cmd 0x0902 pl;
      isDoing s 0x0902 c && decide (uAt c.payload 0 1 = n.val) && !(channelClaimed s n.val) && decide (-(2 ^ 47) ≤ iAt c.payload 8 8 ∧
        iAt c.payload 8 8 < 2 ^ 47)),
    (let pl : List Byte := pay [(1, 1, 2)]; let n : Fin 8 := 0;
      let s := doing 0x0903 pl { up with fbk := up.fbk.set 0 { params := [⟨1, 0, 1⟩] }, fbo := up.fbo.set 0 { params := [⟨1, 0, 1⟩] } };
      let c := cmd 0x0903 pl;
      isDoing s 0x0903 c && decide (uAt c.payload 0 1 = n.val ∧ 1 < uAt c.payload 1 1)),
    (let pl : List Byte := pay [(1, 1, 1), (2, 1, 3)]; let n : Fin 8 := 0;
      let s := doing 0x0903 pl { up with fbk := up.fbk.set 0 { params := [⟨1, 0, 1⟩] }, fbo := up.fbo.set 0 { params := [⟨1, 0, 1⟩] } };
      let c := cmd 0x0903 pl;
      isDoing s 0x0903 c && decide (uAt c.payload 0 1 = n.val ∧ uAt c.payload 1 1 ≤ 1 ∧ 2 < uAt c.payload 2 1)),
    (let pl : List Byte := lst 0 [(8, 0, 100)]; let n : Fin 8 := 0;
      let s := doing 0x0903 pl { up with fbo := up.fbo.set 0 { params := [⟨1, 0, 1⟩] } }; let c := cmd 0x0903 pl;
      isDoing s 0x0903 c && decide (uAt c.payload 0 1 = n.val ∧ uAt c.payload 1 1 ≤ 1 ∧ uAt c.payload 2 1 ≤ 2 ∧ (s.fbk[n].mode = 0 ∨
        s.fbk[n].mode = 6))),
    (let pl : List Byte := lst 0 [(8, 0, 100)]; let n : Fin 8 := 0;
      let s := doing 0x0903 pl { up with job := { isOpen := true, params := [⟨1, 0, 0⟩, ⟨7, 0, 2⟩] }, fbk := up.fbk.set 0 { params := [⟨1, 0, 1⟩] } };
      let c := cmd 0x0903 pl;
      let paces : Bool := decide ((s.job.isOpen = true ∧ pnat s.job.params 1 0 0 = n.val ∧ pnat s.job.params 7 0 0 = 2) ∨
        (((if let some q := s.audit.pass then decide (pnat q.params 1 0 0 = n.val ∧ pnat q.params 7 0 0 = 2) else false)) = true));
      isDoing s 0x0903 c && decide (uAt c.payload 0 1 = n.val ∧ uAt c.payload 1 1 ≤ 1 ∧ uAt c.payload 2 1 ≤ 2 ∧ s.fbk[n].mode ≠ 0 ∧
        s.fbk[n].mode ≠ 6 ∧ paces)),
    (let pl : List Byte := lst 0 [(8, 0, 100)]; let n : Fin 8 := 0;
      let s := doing 0x0903 pl { up with fbk := up.fbk.set 0 { params := [⟨1, 0, 1⟩] }, fbo := up.fbo.set 0 { params := [⟨1, 0, 1⟩] } };
      let c := cmd 0x0903 pl;
      let paces : Bool := decide ((s.job.isOpen = true ∧ pnat s.job.params 1 0 0 = n.val ∧ pnat s.job.params 7 0 0 = 2) ∨
        (((if let some q := s.audit.pass then decide (pnat q.params 1 0 0 = n.val ∧ pnat q.params 7 0 0 = 2) else false)) = true));
      isDoing s 0x0903 c && decide (uAt c.payload 0 1 = n.val ∧ uAt c.payload 1 1 ≤ 1 ∧ uAt c.payload 2 1 ≤ 2 ∧ s.fbk[n].mode ≠ 0 ∧
        s.fbk[n].mode ≠ 6 ∧ ¬ paces)),
    (let pl : List Byte := lst 0 [(8, 0, 100)]; let n : Fin 8 := 0;
      let s := doing 0x0904 pl { up with fbk := up.fbk.set 0 { params := [⟨1, 0, 1⟩] }, fbo := up.fbo.set 0 { params := [⟨1, 0, 1⟩] } };
      let c := cmd 0x0904 pl;
      isDoing s 0x0904 c && decide (uAt c.payload 0 1 = n.val)),
    (let pl : List Byte := lst 0 [(8, 0, 100)]; let i : Fin 2 := 0;
      let s := doing 0x0905 pl { up with fbo := up.fbo.set 0 { params := [⟨1, 0, 1⟩] } }; let c := cmd 0x0905 pl;
      let off : Bool := decide (((if let [it] := listItems c.payload 0 then it.id == 1 && it.value == 0 else false)) = true);
      let r : Except Nat ParamSet := (if off then
        judgeList fboSpecs noRelation s.fbo[i].params (listItems c.payload 0) else judgeList fboSpecs (fboRelation s (listItems c.payload 0)) s.fbo[i].params (listItems c.payload 0));
      (if let .error _ := r then (isDoing s 0x0905 c && decide (listTarget c.payload 0 = i.val)) else false)),
    (let pl : List Byte := lst 0 [(8, 0, 100)]; let i : Fin 2 := 0;
      let s := doing 0x0905 pl { up with fbk := up.fbk.set 0 { params := [⟨1, 0, 1⟩] }, fbo := up.fbo.set 0 { params := [⟨1, 0, 1⟩] } };
      let c := cmd 0x0905 pl;
      let off : Bool := decide (((if let [it] := listItems c.payload 0 then it.id == 1 && it.value == 0 else false)) = true);
      let r : Except Nat ParamSet := (if off then
        judgeList fboSpecs noRelation s.fbo[i].params (listItems c.payload 0) else judgeList fboSpecs (fboRelation s (listItems c.payload 0)) s.fbo[i].params (listItems c.payload 0));
      (if let .ok _ := r then (isDoing s 0x0905 c && decide (listTarget c.payload 0 = i.val) && s.fbo[i].enabled && decide (¬ off)) else false)),
    (let pl : List Byte := [0, 0, 1, 0, 0, 0, 0, 0, 1, 0, 0, 0, 1]; let i : Fin 2 := 0;
      let s := doing 0x0905 pl { up with job := { isOpen := true, params := [⟨1, 0, 0⟩, ⟨7, 0, 2⟩] }, fbk := up.fbk.set 0 { params := [⟨1, 0, 1⟩] } };
      let c := cmd 0x0905 pl;
      let off : Bool := decide (((if let [it] := listItems c.payload 0 then it.id == 1 && it.value == 0 else false)) = true);
      let r : Except Nat ParamSet := (if off then
        judgeList fboSpecs noRelation s.fbo[i].params (listItems c.payload 0) else judgeList fboSpecs (fboRelation s (listItems c.payload 0)) s.fbo[i].params (listItems c.payload 0));
      (if let .ok m := r then (isDoing s 0x0905 c && decide (listTarget c.payload 0 = i.val) && !(s.fbo[i].enabled) && pon m 1 0 false) else false)),
    (let pl : List Byte := lst 0 [(8, 0, 100)]; let i : Fin 2 := 0;
      let s := doing 0x0905 pl { up with job := { isOpen := true, params := [⟨1, 0, 0⟩, ⟨7, 0, 2⟩] }, fbk := up.fbk.set 0 { params := [⟨1, 0, 1⟩] } };
      let c := cmd 0x0905 pl;
      let off : Bool := decide (((if let [it] := listItems c.payload 0 then it.id == 1 && it.value == 0 else false)) = true);
      let r : Except Nat ParamSet := (if off then
        judgeList fboSpecs noRelation s.fbo[i].params (listItems c.payload 0) else judgeList fboSpecs (fboRelation s (listItems c.payload 0)) s.fbo[i].params (listItems c.payload 0));
      (if let .ok m := r then (isDoing s 0x0905 c && decide (listTarget c.payload 0 = i.val) && !(s.fbo[i].enabled) &&
        !(pon m 1 0 false)) else false)),
    (let pl : List Byte := [0, 0, 1, 0, 0, 0, 0, 0, 1]; let i : Fin 2 := 0;
      let s := doing 0x0905 pl { up with fbk := up.fbk.set 0 { params := [⟨1, 0, 1⟩] }, fbo := up.fbo.set 0 { params := [⟨1, 0, 1⟩] } };
      let c := cmd 0x0905 pl;
      let off : Bool := decide (((if let [it] := listItems c.payload 0 then it.id == 1 && it.value == 0 else false)) = true);
      let r : Except Nat ParamSet := (if off then
        judgeList fboSpecs noRelation s.fbo[i].params (listItems c.payload 0) else judgeList fboSpecs (fboRelation s (listItems c.payload 0)) s.fbo[i].params (listItems c.payload 0));
      (if let .ok _ := r then (isDoing s 0x0905 c && decide (listTarget c.payload 0 = i.val) && s.fbo[i].enabled && decide (off)) else false)) ] : List Bool).all id = true := by
  decide +kernel

/-- The hypotheses of each clause of O35 are met. -/
theorem test_AuditPassesStartAndEnd : (
  [ (let pl : List Byte := lst 1 [(1, 0, 0)]; let s := doing 0x0C02 pl { up with audit.laneUp := 0 }; let c := cmd 0x0C02 pl;
      isDoing s 0x0C02 c && decide (s.audit.laneUp = 0)),
    (let pl : List Byte := lst 1 [(1, 0, 0)];
      let s := doing 0x0C02 pl { one with audit.laneUp := 3, fbk := up.fbk.set 0 { params := [⟨1, 0, 3⟩], chFault := true } };
      let c := cmd 0x0C02 pl;
      isDoing s 0x0C02 c && decide (s.audit.laneUp ≠ 0 ∧ listTarget c.payload 0 ≠ 0)),
    (let pl : List Byte := lst 0 [(1, 0, 0), (3, 0, 60000), (11, 0, 1), (15, 0, 0), (26, 0, 0), (7, 0, 2), (23, 0, 0), (27, 0, 1099511627000)];
      let s := doing 0x0C02 pl { one with audit.laneUp := 3, fbk := up.fbk.set 0 { params := [⟨1, 0, 3⟩], chFault := true } };
      let c := cmd 0x0C02 pl;
      (if let .error _ := judgeAudit s (listItems c.payload 0) then (isDoing s 0x0C02 c && decide (s.audit.laneUp ≠ 0 ∧
        listTarget c.payload 0 = 0)) else false)),
    (let pl : List Byte := lst 0 [(1, 0, 0), (3, 0, 60000), (11, 0, 1), (15, 0, 0), (26, 0, 0), (7, 0, 2), (23, 0, 0), (27, 0, 1048576), (30, 0, 0)];
      let s := doing 0x0C02 pl { one with audit.laneUp := 3, fbk := up.fbk.set 0 { params := [⟨1, 0, 3⟩] },
                                          fbo := up.fbo.set 0 { params := [⟨1, 0, 1⟩] } };
      let c := cmd 0x0C02 pl;
      (if let .ok m := judgeAudit s (listItems c.payload 0) then (isDoing s 0x0C02 c && decide (s.audit.laneUp ≠ 0 ∧ listTarget c.payload 0 = 0) &&
        (nthOr s.fbo (pnat m 14 0 0) {}).enabled && !(nthOr s.fbo (pnat m 14 0 0) {}).byAudit) else false)),
    (let pl : List Byte := lst 0 [(1, 0, 0), (3, 0, 60000), (11, 0, 1), (15, 0, 0), (26, 0, 0), (7, 0, 2), (23, 0, 0), (27, 0, 1048576), (30, 0, 0)];
      let s := doing 0x0C02 pl { one with audit.laneUp := 3, fbk := up.fbk.set 0 { params := [⟨1, 0, 3⟩] },
                                          mem := { one.mem with init := Vector.replicate 2 0 } };
      let c := cmd 0x0C02 pl;
      (if let .ok m := judgeAudit s (listItems c.payload 0) then (isDoing s 0x0C02 c && decide (s.audit.laneUp ≠ 0 ∧ listTarget c.payload 0 = 0 ∧
        ((nthOr s.fbo (pnat m 14 0 0) {}).enabled = false ∨ (nthOr s.fbo (pnat m 14 0 0) {}).byAudit = true)) && auditUninit s m) else false)),
    (let pl : List Byte := lst 0 [(1, 0, 0), (3, 0, 60000), (11, 0, 1), (15, 0, 0), (26, 0, 0), (7, 0, 2), (23, 0, 0), (27, 0, 1048576), (30, 0, 0)];
      let s := doing 0x0C02 pl { one with audit.laneUp := 3, fbk := up.fbk.set 0 { params := [⟨1, 0, 3⟩], chFault := true } };
      let c := cmd 0x0C02 pl;
      (if let .ok m := judgeAudit s (listItems c.payload 0) then ((if let some _ := auditCapacity s m then (isDoing s 0x0C02 c &&
        decide (s.audit.laneUp ≠ 0 ∧ listTarget c.payload 0 = 0 ∧ ((nthOr s.fbo (pnat m 14 0 0) {}).enabled = false ∨ (nthOr s.fbo (pnat m 14 0 0) {}).byAudit = true)) &&
        !(auditUninit s m)) else false)) else false)),
    (let pl : List Byte := lst 0 [(1, 0, 0), (3, 0, 60000), (11, 0, 1), (15, 0, 0), (26, 0, 0), (7, 0, 2), (23, 0, 0), (27, 0, 1048576), (30, 0, 0)];
      let s := doing 0x0C02 pl { one with audit.laneUp := 3, fbk := up.fbk.set 0 { params := [⟨1, 0, 3⟩] } }; let c := cmd 0x0C02 pl;
      (if let .ok m := judgeAudit s (listItems c.payload 0) then (let a : Nat := pnat m 30 0 255; isDoing s 0x0C02 c && decide (s.audit.laneUp ≠ 0 ∧
        listTarget c.payload 0 = 0 ∧ ((nthOr s.fbo (pnat m 14 0 0) {}).enabled = false ∨ (nthOr s.fbo (pnat m 14 0 0) {}).byAudit = true)) && !(auditUninit s m) && decide (auditCapacity s m = none ∧
        a < 8 ∧ (nthOr s.axes a {}).referenced = false)) else false)),
    (let pl : List Byte := lst 0 [(1, 0, 0), (3, 0, 60000), (11, 0, 1), (15, 0, 0), (26, 0, 0), (7, 0, 2), (23, 0, 0), (27, 0, 1048576)];
      let s := doing 0x0C02 pl { one with audit.laneUp := 3, fbk := up.fbk.set 0 { params := [⟨1, 0, 3⟩] } }; let c := cmd 0x0C02 pl;
      (if let .ok m := judgeAudit s (listItems c.payload 0) then (let a : Nat := pnat m 30 0 255; isDoing s 0x0C02 c && decide (s.audit.laneUp ≠ 0 ∧
        listTarget c.payload 0 = 0 ∧ ((nthOr s.fbo (pnat m 14 0 0) {}).enabled = false ∨ (nthOr s.fbo (pnat m 14 0 0) {}).byAudit = true)) && !(auditUninit s m) && decide (auditCapacity s m = none ∧
        (a < 8 → (nthOr s.axes a {}).referenced = true))) else false)),
    (let pl : List Byte := lst 1 [(1, 0, 0)]; let s := doing 0x0C03 pl { up with sys.mode := .audit }; let c := cmd 0x0C03 pl;
      isDoing s 0x0C03 c && decide (s.audit.pass = none)),
    (let pl : List Byte := lst 1 [(1, 0, 0)];
      let s := doing 0x0C03 pl { one with sys.mode := .audit, clock := 1000000000,
                                          audit.pass := some { params := [⟨25, 0, 1⟩], lastToken := some 0 } };
      let c := cmd 0x0C03 pl;
      (if let some _ := s.audit.pass then (isDoing s 0x0C03 c) else false)),
    (let s : State := { up with sys.mode := .audit, audit.pass := some { params := [⟨23, 0, 0⟩], lastToken := some 0 }, clock := 800000000 };
      (if let some a := s.audit.pass then ((if let some t := a.lastToken then (decide (s.sys.mode = .audit ∧ a.result = none ∧
        t + pnat a.params 29 0 1000 * 800000 ≤ s.clock ∧ s.sys.resetPending = false) && !(auditCompress a.params)) else false)) else false)),
    (let s : State := { one with sys.mode := .audit, clock := 1000000000, audit.pass := some { params := [⟨25, 0, 1⟩], lastToken := some 0 } };
      (if let some a := s.audit.pass then ((if let some t := a.lastToken then (decide (s.sys.mode = .audit ∧ a.result = none ∧
        t + pnat a.params 29 0 1000 * 800000 ≤ s.clock ∧ s.sys.resetPending = false) && auditCompress a.params) else false)) else false)),
    (let s : State := { one with audit.laneUp := 3, fbk := up.fbk.set 0 { params := [⟨1, 0, 3⟩], chFault := true } };
      decide (((if let some a := s.audit.pass then decide ((((if let some t := a.lastToken then decide (s.sys.mode ≠ .audit ∨ a.result ≠ none ∨
        s.clock < t + pnat a.params 29 0 1000 * 800000) else true)) = true)) else true)) = true)),
    (let s : State := { up with sys.mode := .audit, audit.pass := some { params := [],
                                                                          result := some { status := 0, incomplete := false, stamp := 0, lines := 0,
                                                                                           entries := [], heads := [], raw := [], edits := [] },
                                                                          waiting := some 0 }, clock := 80000000 };
      (if let some a := s.audit.pass then ((if let some _ := a.result then ((if let some t := a.waiting then (decide (s.sys.mode = .audit ∧
        t + 80000000 ≤ s.clock ∧ s.sys.resetPending = false)) else false)) else false)) else false)),
    (let s : State := { one with sys.mode := .audit, clock := 1000000000, audit.pass := some { params := [⟨25, 0, 1⟩], lastToken := some 0 } };
      decide (((if let some a := s.audit.pass then decide ((((if let some t := a.waiting then decide (s.sys.mode ≠ .audit ∨ a.result = none ∨
        s.clock < t + 80000000) else true)) = true)) else true)) = true)),
    (let s : State := { up with sys.mode := .audit, audit.pass := some { params := [] }, clock := 80000,
                                 fbo := up.fbo.set 0 { up.fbo[0] with byAudit := true } };
      let i : Fin 2 := 0;
      let due : Bool := decide ((s.sys.mode = .audit → passRuns s = true) ∧ (s.sys.mode ≠ .audit → s.job.started = true) ∧
        triggerOutput s = some i.val ∧ s.fbo[i].byAudit = true ∧ s.fbo[i].enabled = false ∧ (s.fbo[i].disabledAt = 0 ∨
        s.fbo[i].disabledAt + 80000 ≤ s.clock));
      decide (due)),
    (let s : State := { one with sys.mode := .audit, clock := 1000000000, audit.pass := some { params := [⟨25, 0, 1⟩], lastToken := some 0 } };
      let i : Fin 2 := 0;
      let due : Bool := decide ((s.sys.mode = .audit → passRuns s = true) ∧ (s.sys.mode ≠ .audit → s.job.started = true) ∧
        triggerOutput s = some i.val ∧ s.fbo[i].byAudit = true ∧ s.fbo[i].enabled = false ∧ (s.fbo[i].disabledAt = 0 ∨
        s.fbo[i].disabledAt + 80000 ≤ s.clock));
      decide (¬ due)),
    (let pl : List Byte := lst 0 [(1, 0, 0), (3, 0, 60000), (11, 0, 1), (15, 0, 0), (26, 0, 0), (7, 0, 2), (23, 0, 0), (27, 0, 1048576)];
      let s := doing 0x0C02 pl { one with audit.laneUp := 3, fbk := up.fbk.set 0 { params := [⟨1, 0, 3⟩] },
                                          fbo := up.fbo.set 0 { params := [⟨1, 0, 1⟩], byAudit := true } }; let c := cmd 0x0C02 pl;
      (if let .ok m := judgeAudit s (listItems c.payload 0) then (let a : Nat := pnat m 30 0 255; isDoing s 0x0C02 c && decide (s.audit.laneUp ≠ 0 ∧
        listTarget c.payload 0 = 0 ∧ (nthOr s.fbo (pnat m 14 0 0) {}).enabled = true ∧ (nthOr s.fbo (pnat m 14 0 0) {}).byAudit = true) &&
        !(auditUninit s m) && decide (auditCapacity s m = none ∧ (a < 8 → (nthOr s.axes a {}).referenced = true))) else false)) ] : List Bool).all id = true := by
  decide +kernel

/-- The hypotheses of each clause of O36 are met. -/
theorem test_CameraLinkAndFrames : (
  [ (let pl : List Byte := lst 1 [(1, 0, 2)]; let s := doing 0x0C01 pl { up with sys.legacy := true }; let c := cmd 0x0C01 pl;
      isDoing s 0x0C01 c && decide (listTarget c.payload 0 ≠ 0)),
    (let pl : List Byte := lst 0 [(1, 0, 9)]; let s := doing 0x0C01 pl { up with sys.legacy := true }; let c := cmd 0x0C01 pl;
      (if let .error _ := judgeList auditConfigSpecs auditConfigRelation s.audit.params (spoil auditConfigBad (listItems c.payload 0)) then
        (isDoing s 0x0C01 c && decide (listTarget c.payload 0 = 0)) else false)),
    (let s := doing 0x0C01 [] { up with sys.legacy := true }; let c := cmd 0x0C01 [];
      (if let .ok _ := judgeList auditConfigSpecs auditConfigRelation s.audit.params (spoil auditConfigBad (listItems c.payload 0)) then
        (isDoing s 0x0C01 c && decide (listTarget c.payload 0 = 0 ∧ (∀ i ∈ listItems c.payload 0, i.id ≠ 1 ∧ i.id ≠ 2))) else false)),
    (let pl : List Byte := [0, 0, 1, 0, 0, 0, 0, 0, 1, 0, 0, 0, 5]; let s := doing 0x0C01 pl { up with sys.legacy := true };
      let c := cmd 0x0C01 pl;
      (if let .ok _ := judgeList auditConfigSpecs auditConfigRelation s.audit.params (spoil auditConfigBad (listItems c.payload 0)) then
        (isDoing s 0x0C01 c && decide (listTarget c.payload 0 = 0 ∧ (∃ i ∈ listItems c.payload 0, i.id = 1 ∨ i.id = 2))) else false)),
    (let s : State := { up with clock := 2000000, audit := { configured := true, params := [⟨2, 0, 1⟩],
                                                              lanes := Vector.replicate 2 { lock := true } } };
      let n : Fin 2 := 0;
      cameraPassed n.val s && !(bitOf s.audit.laneUp n.val)),
    (let s : State := { up with sys.legacy := true }; let n : Fin 2 := 0;
      decide (cameraPassed n.val s = false ∨ bitOf s.audit.laneUp n.val = true)),
    (let s : State := { up with audit.laneUp := 1 }; let lock : Option (Fin 2) := some 0;
      auditPresent s && decide (((((if let some i := lock then decide (bitOf s.audit.laneUp i.val = true) else false)) = true)) ∨ (lock = none ∧
        cameraErrors s = true))),
    (let s : State := { up with clock := 2000000, audit := { configured := true, params := [⟨2, 0, 1⟩],
                                                              lanes := Vector.replicate 2 { lock := true } } };
      let lock : Option (Fin 2) := some 0;
      (if let some i := lock then (auditPresent s && !(bitOf s.audit.laneUp i.val)) else false)),
    (let s : State := { up with clock := 2000000, audit := { configured := true, params := [⟨2, 0, 1⟩],
                                                              lanes := Vector.replicate 2 { lock := true } } };
      auditPresent s && !(cameraErrors s)),
    (let s : State := { up with sys.legacy := true };
      !(auditPresent s)),
    (let s : State := { up with audit.lostAt := some 0, clock := 800000 };
      (if let some t := s.audit.lostAt then (decide (t + 800000 ≤ s.clock)) else false)),
    (let s : State := { up with audit.lostAt := some 0 };
      (if let some t := s.audit.lostAt then (decide (s.clock < t + 800000)) else false)),
    (let s : State := { up with sys.legacy := true };
      decide (s.audit.lostAt = none)),
    (let s : State := { up with sys.legacy := true };
      let takes : Bool := decide (auditPresent s = true ∧ s.audit.laneUp ≠ 0 ∧ s.audit.rxDiscard = false ∧ isStopped s auditSource = false ∧
        (passRuns s = true ∨ inspecting s = true));
      decide (¬ takes)),
    (let s : State := { up with audit.laneUp := 3, sys.mode := .audit, audit.pass := some { params := [] }, audit.params := [⟨3, 0, 64⟩] };
      let err : Option AuditErr := some ⟨0, 3⟩;
      let takes : Bool := decide (auditPresent s = true ∧ s.audit.laneUp ≠ 0 ∧ s.audit.rxDiscard = false ∧ isStopped s auditSource = false ∧
        (passRuns s = true ∨ inspecting s = true));
      let r : Bool × State := ((if let some e := err then ownerFinds auditSource 6 (464 * 8192 + e.word.val) e.synd s else (false, s)));
      let bad : Bool := decide (r.1 = true);
      decide (takes ∧ bad)),
    (let s : State := { up with audit.laneUp := 3, sys.mode := .audit, audit.pass := some { params := [] }, audit.params := [⟨3, 0, 64⟩] };
      let f : List Byte := []; let err : Option AuditErr := none;
      let takes : Bool := decide (auditPresent s = true ∧ s.audit.laneUp ≠ 0 ∧ s.audit.rxDiscard = false ∧ isStopped s auditSource = false ∧
        (passRuns s = true ∨ inspecting s = true));
      let r : Bool × State := ((if let some e := err then ownerFinds auditSource 6 (464 * 8192 + e.word.val) e.synd s else (false, s)));
      let bad : Bool := decide (r.1 = true);
      decide (takes ∧ ¬ bad ∧ checkFrame s f = .framing)),
    (let s : State := { up with audit.laneUp := 3, sys.mode := .audit, audit.pass := some { params := [] }, audit.params := [⟨3, 0, 64⟩] };
      let f : List Byte := [0x10]; let err : Option AuditErr := none;
      let takes : Bool := decide (auditPresent s = true ∧ s.audit.laneUp ≠ 0 ∧ s.audit.rxDiscard = false ∧ isStopped s auditSource = false ∧
        (passRuns s = true ∨ inspecting s = true));
      let r : Bool × State := ((if let some e := err then ownerFinds auditSource 6 (464 * 8192 + e.word.val) e.synd s else (false, s)));
      let bad : Bool := decide (r.1 = true);
      decide (takes ∧ ¬ bad ∧ checkFrame s f = .crc)),
    (let s : State := { up with audit.laneUp := 3, sys.mode := .audit, audit.pass := some { params := [] }, audit.params := [⟨3, 0, 64⟩] };
      let f : List Byte := camFrame 1 64 2; let err : Option AuditErr := none;
      let takes : Bool := decide (auditPresent s = true ∧ s.audit.laneUp ≠ 0 ∧ s.audit.rxDiscard = false ∧ isStopped s auditSource = false ∧
        (passRuns s = true ∨ inspecting s = true));
      let r : Bool × State := ((if let some e := err then ownerFinds auditSource 6 (464 * 8192 + e.word.val) e.synd s else (false, s)));
      let bad : Bool := decide (r.1 = true);
      decide (takes ∧ ¬ bad ∧ checkFrame s f = .format)),
    (let s : State := { up with audit.laneUp := 3, sys.mode := .audit, audit.pass := some { params := [] }, audit.params := [⟨3, 0, 64⟩] };
      let f : List Byte := camFrame 0 64 0; let err : Option AuditErr := none;
      let takes : Bool := decide (auditPresent s = true ∧ s.audit.laneUp ≠ 0 ∧ s.audit.rxDiscard = false ∧ isStopped s auditSource = false ∧
        (passRuns s = true ∨ inspecting s = true));
      let r : Bool × State := ((if let some e := err then ownerFinds auditSource 6 (464 * 8192 + e.word.val) e.synd s else (false, s)));
      let bad : Bool := decide (r.1 = true);
      decide (takes ∧ ¬ bad ∧ checkFrame s f = .dup)),
    (let s : State := { up with audit.laneUp := 3, sys.mode := .audit, audit.pass := some { params := [] }, audit.params := [⟨3, 0, 64⟩] };
      let f : List Byte := camFrame 1 64 1; let err : Option AuditErr := none; let g : Nat := 1;
      let takes : Bool := decide (auditPresent s = true ∧ s.audit.laneUp ≠ 0 ∧ s.audit.rxDiscard = false ∧ isStopped s auditSource = false ∧
        (passRuns s = true ∨ inspecting s = true));
      let r : Bool × State := ((if let some e := err then ownerFinds auditSource 6 (464 * 8192 + e.word.val) e.synd s else (false, s)));
      let bad : Bool := decide (r.1 = true);
      decide (takes ∧ ¬ bad ∧ checkFrame s f = .accepted g)),
    (let s : State := { up with audit.windows := [{ first := 0, len := 1, closed := true }] };
      let w : InlineWin := { first := 0, len := 1, closed := true };
      decide (s.audit.windows.find? (fun w => w.closed || w.lastCommit.any fun t => decide (t + 800000000 ≤ s.clock)) = some w)),
    (let s : State := { up with sys.legacy := true };
      decide (s.audit.windows.find? (fun w => w.closed || w.lastCommit.any fun t => decide (t + 800000000 ≤ s.clock)) = none)) ] : List Bool).all id = true := by
  decide +kernel

/-- The hypotheses of each clause of O37 are met. -/
theorem test_AxisCommandsSetAndMoveAxes : (
  [ (let pl : List Byte := pay [(0, 1, 8)]; let s := doing 0x0D01 pl { up with sys.mode := .configure }; let c := cmd 0x0D01 pl;
      decide (8 ≤ listTarget c.payload 0) && isDoing s 0x0D01 c),
    (let pl : List Byte := pay [(0, 1, 8)]; let s := doing 0x0D02 pl { axis0 {} with sys.mode := .service }; let c := cmd 0x0D02 pl;
      decide (8 ≤ listTarget c.payload 0) && isDoing s 0x0D02 c),
    (let pl : List Byte := lst 0 [(3, 0, 10000)]; let a : Fin 8 := 0; let s := doing 0x0D01 pl { up with sys.mode := .configure };
      let c := cmd 0x0D01 pl;
      (if let .error _ := judgeList (axisSpecs a.val) (axisRelation s a.val) s.cfg.staged.axes[a] (listItems c.payload 0) then (isDoing s 0x0D01 c &&
        decide (listTarget c.payload 0 = a.val)) else false)),
    (let pl : List Byte := [1]; let a : Fin 8 := 1; let s := doing 0x0D01 pl { up with sys.mode := .configure }; let c := cmd 0x0D01 pl;
      (if let .ok _ := judgeList (axisSpecs a.val) (axisRelation s a.val) s.cfg.staged.axes[a] (listItems c.payload 0) then (isDoing s 0x0D01 c &&
        decide (listTarget c.payload 0 = a.val)) else false)),
    (let pl : List Byte := lst 0 [(99, 0, 1)]; let a : Fin 8 := 0; let s := doing 0x0D02 pl { up with sys.mode := .configure };
      let c := cmd 0x0D02 pl;
      (if let .error _ := judgeList limitSpecs (limitRelation s.cfg.staged.axes[a] a.val) s.axes[a].staged.items (listItems c.payload 0) then
        (isDoing s 0x0D02 c && decide (listTarget c.payload 0 = a.val ∧ s.sys.mode = .configure)) else false)),
    (let pl : List Byte := [1]; let a : Fin 8 := 1; let s := doing 0x0D02 pl { up with sys.mode := .configure }; let c := cmd 0x0D02 pl;
      (if let .ok _ := judgeList limitSpecs (limitRelation s.cfg.staged.axes[a] a.val) s.axes[a].staged.items (listItems c.payload 0) then
        (isDoing s 0x0D02 c && decide (listTarget c.payload 0 = a.val ∧ s.sys.mode = .configure)) else false)),
    (let pl : List Byte := lst 0 [(99, 0, 1)]; let a : Fin 8 := 0; let s := doing 0x0D02 pl { axis0 {} with sys.mode := .service };
      let c := cmd 0x0D02 pl; let x : Axis := s.axes[a]; let now : Limits := limitsNow x;
      (if let .error _ := judgeList limitSpecs (limitRelation (axisCfg s a.val) a.val) now.items (listItems c.payload 0) then (isDoing s 0x0D02 c &&
        decide (listTarget c.payload 0 = a.val ∧ s.sys.mode ≠ .configure)) else false)),
    (let pl : List Byte := lst 0 [(8, 0, 10)]; let a : Fin 8 := 0;
      let s := doing 0x0D02 pl (axis0 { standstill := false, referenced := true, v := 3000 * 2 ^ 32, move := some (.target 100 0),
                                        lim := { lo := -1000, hi := 100 } });
      let c := cmd 0x0D02 pl; let x : Axis := s.axes[a]; let now : Limits := limitsNow x;
      (if let .ok m := judgeList limitSpecs (limitRelation (axisCfg s a.val) a.val) now.items (listItems c.payload 0) then
        (let l : Limits := limitsOf m; let blocked : Bool := decide (x.standstill = false ∧ limitsOn s a.val = true ∧ s.sys.mode ≠ .follow ∧
        (((if let some v := x.pending.or x.move then
        decide (pathOk x { l with d := x.lim.d, j := x.lim.j } v = false) else false)) = true)); isDoing s 0x0D02 c &&
        decide (listTarget c.payload 0 = a.val ∧ s.sys.mode ≠ .configure ∧ blocked)) else false)),
    (let pl : List Byte := [1]; let a : Fin 8 := 1; let s := doing 0x0D02 pl { axis0 {} with sys.mode := .service }; let c := cmd 0x0D02 pl;
      let x : Axis := s.axes[a]; let now : Limits := limitsNow x;
      (if let .ok m := judgeList limitSpecs (limitRelation (axisCfg s a.val) a.val) now.items (listItems c.payload 0) then
        (let l : Limits := limitsOf m; let blocked : Bool := decide (x.standstill = false ∧ limitsOn s a.val = true ∧ s.sys.mode ≠ .follow ∧
        (((if let some v := x.pending.or x.move then
        decide (pathOk x { l with d := x.lim.d, j := x.lim.j } v = false) else false)) = true)); let atOnce : Bool := decide (x.standstill = true ∨ s.sys.mode = .follow ∨
        lowerFits s a.val l = true ∨ (x.lim.d ≤ l.d ∧ x.lim.j ≤ l.j)); isDoing s 0x0D02 c && decide (listTarget c.payload 0 = a.val ∧
        s.sys.mode ≠ .configure ∧ ¬ blocked ∧ atOnce)) else false)),
    (let pl : List Byte := lst 0 [(3, 0, 10000)]; let a : Fin 8 := 0;
      let s := doing 0x0D02 pl (axis0 { standstill := false, referenced := true, v := 3000 * 2 ^ 32, move := some (.target 100 0),
                                        lim := { lo := -1000, hi := 100 } });
      let c := cmd 0x0D02 pl; let x : Axis := s.axes[a]; let now : Limits := limitsNow x;
      (if let .ok m := judgeList limitSpecs (limitRelation (axisCfg s a.val) a.val) now.items (listItems c.payload 0) then
        (let l : Limits := limitsOf m; let blocked : Bool := decide (x.standstill = false ∧ limitsOn s a.val = true ∧ s.sys.mode ≠ .follow ∧
        (((if let some v := x.pending.or x.move then
        decide (pathOk x { l with d := x.lim.d, j := x.lim.j } v = false) else false)) = true)); let atOnce : Bool := decide (x.standstill = true ∨ s.sys.mode = .follow ∨
        lowerFits s a.val l = true ∨ (x.lim.d ≤ l.d ∧ x.lim.j ≤ l.j)); isDoing s 0x0D02 c && decide (listTarget c.payload 0 = a.val ∧
        s.sys.mode ≠ .configure ∧ ¬ blocked ∧ ¬ atOnce)) else false)),
    (let pl : List Byte := [1]; let k : Nat := 4; let s := doing 0x0D03 pl one; let c := cmd 0x0D03 pl;
      let a : Nat := uAt c.payload 0 1; let mode : Nat := uAt c.payload 1 1; let speed : Nat := uAt c.payload 4 4;
      let value : Int := iAt c.payload 8 8; let x : Axis := nthOr s.axes a {};
      let bad : List (Reply × Bool) := [({ status := .badArg }, decide (8 ≤ a)), ({ status := .badArg, detail := 1 }, decide (2 < mode)),
        ({ status := .badArg, detail := 4 }, decide (x.lim.v < speed)),
        ({ status := .badArg, detail := 8 }, decide (value < -(2 ^ 47) ∨ 2 ^ 47 ≤ value ∨ (mode = 2 ∧ (x.lim.v : Int) < value.natAbs))),
        ({ status := .badState }, decide (motionLegal s a = false))];
      (if let some (_, e) := bad[k]? then (isDoing s 0x0D03 c && e && decide (∀ j < k, (((if let some y := bad[j]? then
        decide (¬ y.2) else true)) = true))) else false)),
    (let pl : List Byte := lst 0 [(8, 0, 10)]; let s := doing 0x0D03 pl (homes [⟨17, 0, 3⟩]); let c := cmd 0x0D03 pl;
      let a : Nat := uAt c.payload 0 1; let mode : Nat := uAt c.payload 1 1; let speed : Nat := uAt c.payload 4 4;
      let value : Int := iAt c.payload 8 8; let x : Axis := nthOr s.axes a {};
      let bad : List (Reply × Bool) := [({ status := .badArg }, decide (8 ≤ a)), ({ status := .badArg, detail := 1 }, decide (2 < mode)),
        ({ status := .badArg, detail := 4 }, decide (x.lim.v < speed)),
        ({ status := .badArg, detail := 8 }, decide (value < -(2 ^ 47) ∨ 2 ^ 47 ≤ value ∨ (mode = 2 ∧ (x.lim.v : Int) < value.natAbs))),
        ({ status := .badState }, decide (motionLegal s a = false))];
      (if let .error (_, _) := namedMove s a mode speed value then (isDoing s 0x0D03 c && decide (∀ y ∈ bad, ¬ y.2)) else false)),
    (let pl : List Byte := lst 0 [(8, 0, 10)];
      let s := doing 0x0D03 pl (axis0 { referenced := true, lim := { lo := 2 }, holds := [.host], heldMove := some (.target 0 0) });
      let c := cmd 0x0D03 pl; let a : Nat := uAt c.payload 0 1; let mode : Nat := uAt c.payload 1 1; let speed : Nat := uAt c.payload 4 4;
      let value : Int := iAt c.payload 8 8; let x : Axis := nthOr s.axes a {};
      let bad : List (Reply × Bool) := [({ status := .badArg }, decide (8 ≤ a)), ({ status := .badArg, detail := 1 }, decide (2 < mode)),
        ({ status := .badArg, detail := 4 }, decide (x.lim.v < speed)),
        ({ status := .badArg, detail := 8 }, decide (value < -(2 ^ 47) ∨ 2 ^ 47 ≤ value ∨ (mode = 2 ∧ (x.lim.v : Int) < value.natAbs))),
        ({ status := .badState }, decide (motionLegal s a = false))];
      (if let .ok m := namedMove s a mode speed value then (isDoing s 0x0D03 c && decide (∀ y ∈ bad, ¬ y.2) && !(moveOk s a m)) else false)),
    (let pl : List Byte := lst 0 [(8, 0, 10)];
      let s := doing 0x0D03 pl (axis0 { standstill := false, referenced := true, move := some (.target 50 0) }); let c := cmd 0x0D03 pl;
      let a : Nat := uAt c.payload 0 1; let mode : Nat := uAt c.payload 1 1; let speed : Nat := uAt c.payload 4 4;
      let value : Int := iAt c.payload 8 8; let x : Axis := nthOr s.axes a {};
      let bad : List (Reply × Bool) := [({ status := .badArg }, decide (8 ≤ a)), ({ status := .badArg, detail := 1 }, decide (2 < mode)),
        ({ status := .badArg, detail := 4 }, decide (x.lim.v < speed)),
        ({ status := .badArg, detail := 8 }, decide (value < -(2 ^ 47) ∨ 2 ^ 47 ≤ value ∨ (mode = 2 ∧ (x.lim.v : Int) < value.natAbs))),
        ({ status := .badState }, decide (motionLegal s a = false))];
      (if let .ok m := namedMove s a mode speed value then (isDoing s 0x0D03 c && decide (∀ y ∈ bad, ¬ y.2) && moveOk s a m && decide (x.holds = [] ∨
        x.holds = [.host])) else false)),
    (let pl : List Byte := lst 0 [(8, 0, 10)];
      let s := doing 0x0D03 pl { one with axes := one.axes.set 0 { one.axes[0] with referenced := true, holds := [.safestop] } };
      let c := cmd 0x0D03 pl; let a : Nat := uAt c.payload 0 1; let mode : Nat := uAt c.payload 1 1; let speed : Nat := uAt c.payload 4 4;
      let value : Int := iAt c.payload 8 8; let x : Axis := nthOr s.axes a {};
      let bad : List (Reply × Bool) := [({ status := .badArg }, decide (8 ≤ a)), ({ status := .badArg, detail := 1 }, decide (2 < mode)),
        ({ status := .badArg, detail := 4 }, decide (x.lim.v < speed)),
        ({ status := .badArg, detail := 8 }, decide (value < -(2 ^ 47) ∨ 2 ^ 47 ≤ value ∨ (mode = 2 ∧ (x.lim.v : Int) < value.natAbs))),
        ({ status := .badState }, decide (motionLegal s a = false))];
      (if let .ok m := namedMove s a mode speed value then (isDoing s 0x0D03 c && decide (∀ y ∈ bad, ¬ y.2) && moveOk s a m && decide (x.holds ≠ [] ∧
        x.holds ≠ [.host])) else false)),
    (let pl : List Byte := pay [(0, 1, 8)]; let s := doing 0x0D04 pl one; let c := cmd 0x0D04 pl;
      let a : Nat := uAt c.payload 0 1;
      isDoing s 0x0D04 c && decide (8 ≤ a ∧ a ≠ 0xFF)),
    (let pl : List Byte := [0, 2, 0, 0, 16, 39, 0, 0, 16, 39]; let s := doing 0x0D04 pl one;
      let c := cmd 0x0D04 pl; let a : Nat := uAt c.payload 0 1; let kind : Nat := uAt c.payload 1 1;
      isDoing s 0x0D04 c && decide ((a < 8 ∨ a = 0xFF) ∧ 1 < kind)),
    (let pl : List Byte := [1]; let s := doing 0x0D04 pl { up with sys.mode := .home }; let c := cmd 0x0D04 pl;
      let a : Nat := uAt c.payload 0 1; let kind : Nat := uAt c.payload 1 1;
      isDoing s 0x0D04 c && decide ((a < 8 ∨ a = 0xFF) ∧ kind ≤ 1 ∧ s.sys.mode = .home)),
    (let pl : List Byte := [1]; let s := doing 0x0D04 pl one; let c := cmd 0x0D04 pl;
      let a : Nat := uAt c.payload 0 1; let kind : Nat := uAt c.payload 1 1;
      let legal : Nat → Bool := fun b => motionLegal s b || decide (s.sys.mode = .safestop ∧ axisOn s b = true ∧ kind = 1);
      isDoing s 0x0D04 c && decide ((a < 8 ∨ a = 0xFF) ∧ kind ≤ 1 ∧ s.sys.mode ≠ .home ∧ a < 8 ∧ ¬ legal a)),
    (let pl : List Byte := pay [(0, 1, 255)]; let s := doing 0x0D04 pl { one with sys.mode := .safestop };
      let c := cmd 0x0D04 pl; let a : Nat := uAt c.payload 0 1; let kind : Nat := uAt c.payload 1 1;
      isDoing s 0x0D04 c && decide ((a < 8 ∨ a = 0xFF) ∧ kind ≤ 1 ∧ s.sys.mode ≠ .home ∧ a = 0xFF ∧ s.sys.mode ∉ [.idle, .maintain, .print, .hold] ∧
        ¬ (s.sys.mode = .safestop ∧ kind = 1))),
    (let pl : List Byte := lst 0 [(8, 0, 10)]; let s := doing 0x0D04 pl (homes [⟨17, 0, 3⟩]); let c := cmd 0x0D04 pl;
      let a : Nat := uAt c.payload 0 1; let kind : Nat := uAt c.payload 1 1;
      let legal : Nat → Bool := fun b => motionLegal s b || decide (s.sys.mode = .safestop ∧ axisOn s b = true ∧ kind = 1);
      isDoing s 0x0D04 c && decide ((a < 8 ∨ a = 0xFF) ∧ kind ≤ 1 ∧ s.sys.mode ≠ .home ∧ ((a < 8 ∧ legal a) ∨ (a = 0xFF ∧ (s.sys.mode ∈ [.idle, .maintain, .print,
        .hold] ∨ (s.sys.mode = .safestop ∧ kind = 1)))))),
    (let pl : List Byte := pay [(0, 1, 8)]; let s := doing 0x0D05 pl one; let c := cmd 0x0D05 pl;
      isDoing s 0x0D05 c && decide (8 ≤ uAt c.payload 0 1)),
    (let pl : List Byte := [1]; let a : Fin 8 := 1; let s := doing 0x0D05 pl one; let c := cmd 0x0D05 pl;
      isDoing s 0x0D05 c && decide (uAt c.payload 0 1 = a.val) && !(motionLegal s a.val)),
    (let pl : List Byte := lst 0 [(8, 0, 10)]; let a : Fin 8 := 0; let s := doing 0x0D05 pl (homes [⟨17, 0, 3⟩]); let c := cmd 0x0D05 pl;
      let x : Axis := s.axes[a];
      isDoing s 0x0D05 c && decide (uAt c.payload 0 1 = a.val) && motionLegal s a.val && decide (HoldSrc.host ∉ x.holds)),
    (let pl : List Byte := lst 0 [(8, 0, 10)]; let a : Fin 8 := 0; let s := doing 0x0D05 pl (axis0 { holds := [.host] });
      let c := cmd 0x0D05 pl; let x : Axis := s.axes[a]; let left : List HoldSrc := x.holds.filter (· ≠ .host);
      isDoing s 0x0D05 c && decide (uAt c.payload 0 1 = a.val) && motionLegal s a.val && decide (HoldSrc.host ∈ x.holds ∧ (left ≠ [] ∨
        x.heldMove = none))),
    (let pl : List Byte := lst 0 [(8, 0, 10)]; let a : Fin 8 := 0;
      let s := doing 0x0D05 pl { one with axes := one.axes.set 0 { one.axes[0] with holds := [.host], heldMove := some (.target 0 0) } };
      let c := cmd 0x0D05 pl; let x : Axis := s.axes[a]; let left : List HoldSrc := x.holds.filter (· ≠ .host);
      (if let some m := x.heldMove then (isDoing s 0x0D05 c && decide (uAt c.payload 0 1 = a.val) && motionLegal s a.val &&
        decide (HoldSrc.host ∈ x.holds ∧ left = [] ∧ x.stopping = false) && moveOk s a.val m) else false)),
    (let pl : List Byte := lst 0 [(8, 0, 10)]; let a : Fin 8 := 0;
      let s := doing 0x0D05 pl (axis0 { referenced := true, lim := { lo := 2 }, holds := [.host], heldMove := some (.target 0 0) });
      let c := cmd 0x0D05 pl; let x : Axis := s.axes[a]; let left : List HoldSrc := x.holds.filter (· ≠ .host);
      (if let some m := x.heldMove then (isDoing s 0x0D05 c && decide (uAt c.payload 0 1 = a.val) && motionLegal s a.val &&
        decide (HoldSrc.host ∈ x.holds ∧ left = []) && !(moveOk s a.val m)) else false)),
    (let pl : List Byte := lst 0 [(8, 0, 10)]; let s := doing 0x0D06 pl (homes [⟨17, 0, 3⟩]); let c := cmd 0x0D06 pl;
      isDoing s 0x0D06 c && decide (uAt c.payload 0 1 = 0)),
    (let pl : List Byte := [1]; let a : Fin 8 := 0; let s := doing 0x0D06 pl (homes [⟨3, 0, 1⟩, ⟨17, 0, 1⟩]); let c := cmd 0x0D06 pl;
      let named : Fin 8 → Bool := fun b => bitOf (uAt c.payload 0 1) b.val; let method : Fin 8 → Nat := fun b => pnat (axisCfg s b.val) 17 0 0;
      (if let some _ := missingParam [20, 21] (axisCfg s a.val) then (isDoing s 0x0D06 c && decide (∀ b, named b = true → homeable s b.val = true) &&
        named a && decide (method a = 1 ∧ (∀ b < a, named b = true → method b = 1 → missingParam [20, 21] (axisCfg s b.val) = none))) else false)),
    (let pl : List Byte := [1]; let s := doing 0x0D06 pl (homes [⟨17, 0, 3⟩]); let c := cmd 0x0D06 pl;
      let named : Fin 8 → Bool := fun b => bitOf (uAt c.payload 0 1) b.val; let method : Fin 8 → Nat := fun b => pnat (axisCfg s b.val) 17 0 0;
      isDoing s 0x0D06 c && decide (uAt c.payload 0 1 ≠ 0 ∧ (∀ a, named a = true → homeable s a.val = true ∧ (method a = 1 → missingParam [20,
        21] (axisCfg s a.val) = none)))),
    (let pl : List Byte := pay [(4, 4, 4294967295)]; let k : Nat := 2; let s := doing 0x0D03 pl one;
      let c := cmd 0x0D03 pl; let a : Nat := uAt c.payload 0 1; let mode : Nat := uAt c.payload 1 1; let speed : Nat := uAt c.payload 4 4;
      let value : Int := iAt c.payload 8 8; let x : Axis := nthOr s.axes a {};
      let bad : List (Reply × Bool) := [({ status := .badArg }, decide (8 ≤ a)), ({ status := .badArg, detail := 1 }, decide (2 < mode)),
        ({ status := .badArg, detail := 4 }, decide (x.lim.v < speed)),
        ({ status := .badArg, detail := 8 }, decide (value < -(2 ^ 47) ∨ 2 ^ 47 ≤ value ∨ (mode = 2 ∧ (x.lim.v : Int) < value.natAbs))),
        ({ status := .badState }, decide (motionLegal s a = false))];
      (if let some (_, e) := bad[k]? then (isDoing s 0x0D03 c && e && decide (∀ j < k, (((if let some y := bad[j]? then
        decide (¬ y.2) else true)) = true))) else false)),
    (let pl : List Byte := pay [(8, 8, 9000000000000000000)]; let k : Nat := 3; let s := doing 0x0D03 pl one;
      let c := cmd 0x0D03 pl; let a : Nat := uAt c.payload 0 1; let mode : Nat := uAt c.payload 1 1; let speed : Nat := uAt c.payload 4 4;
      let value : Int := iAt c.payload 8 8; let x : Axis := nthOr s.axes a {};
      let bad : List (Reply × Bool) := [({ status := .badArg }, decide (8 ≤ a)), ({ status := .badArg, detail := 1 }, decide (2 < mode)),
        ({ status := .badArg, detail := 4 }, decide (x.lim.v < speed)),
        ({ status := .badArg, detail := 8 }, decide (value < -(2 ^ 47) ∨ 2 ^ 47 ≤ value ∨ (mode = 2 ∧ (x.lim.v : Int) < value.natAbs))),
        ({ status := .badState }, decide (motionLegal s a = false))];
      (if let some (_, e) := bad[k]? then (isDoing s 0x0D03 c && e && decide (∀ j < k, (((if let some y := bad[j]? then
        decide (¬ y.2) else true)) = true))) else false)),
    (let pl : List Byte := [8]; let k : Nat := 0; let s := doing 0x0D03 pl one;
      let c := cmd 0x0D03 pl; let a : Nat := uAt c.payload 0 1; let mode : Nat := uAt c.payload 1 1; let speed : Nat := uAt c.payload 4 4;
      let value : Int := iAt c.payload 8 8; let x : Axis := nthOr s.axes a {};
      let bad : List (Reply × Bool) := [({ status := .badArg }, decide (8 ≤ a)), ({ status := .badArg, detail := 1 }, decide (2 < mode)),
        ({ status := .badArg, detail := 4 }, decide (x.lim.v < speed)),
        ({ status := .badArg, detail := 8 }, decide (value < -(2 ^ 47) ∨ 2 ^ 47 ≤ value ∨ (mode = 2 ∧ (x.lim.v : Int) < value.natAbs))),
        ({ status := .badState }, decide (motionLegal s a = false))];
      (if let some (_, e) := bad[k]? then (isDoing s 0x0D03 c && e && decide (∀ j < k, (((if let some y := bad[j]? then
        decide (¬ y.2) else true)) = true))) else false)),
    (let pl : List Byte := [0, 3]; let k : Nat := 1; let s := doing 0x0D03 pl one;
      let c := cmd 0x0D03 pl; let a : Nat := uAt c.payload 0 1; let mode : Nat := uAt c.payload 1 1; let speed : Nat := uAt c.payload 4 4;
      let value : Int := iAt c.payload 8 8; let x : Axis := nthOr s.axes a {};
      let bad : List (Reply × Bool) := [({ status := .badArg }, decide (8 ≤ a)), ({ status := .badArg, detail := 1 }, decide (2 < mode)),
        ({ status := .badArg, detail := 4 }, decide (x.lim.v < speed)),
        ({ status := .badArg, detail := 8 }, decide (value < -(2 ^ 47) ∨ 2 ^ 47 ≤ value ∨ (mode = 2 ∧ (x.lim.v : Int) < value.natAbs))),
        ({ status := .badState }, decide (motionLegal s a = false))];
      (if let some (_, e) := bad[k]? then (isDoing s 0x0D03 c && e && decide (∀ j < k, (((if let some y := bad[j]? then
        decide (¬ y.2) else true)) = true))) else false)),
    (let pl : List Byte := lst 0 [(8, 0, 10)]; let a : Fin 8 := 0;
      let s := doing 0x0D05 pl (axis0 { holds := [.host], heldMove := some (.target 0 0), stopping := true });
      let c := cmd 0x0D05 pl; let x : Axis := s.axes[a]; let left : List HoldSrc := x.holds.filter (· ≠ .host);
      (if let some m := x.heldMove then (isDoing s 0x0D05 c && decide (uAt c.payload 0 1 = a.val) && motionLegal s a.val &&
        decide (HoldSrc.host ∈ x.holds ∧ left = [] ∧ x.stopping = true) && moveOk s a.val m) else false)),
    (let pl : List Byte := [1]; let s := doing 0x0D06 pl (homes [⟨3, 0, 1⟩, ⟨17, 0, 1⟩, ⟨20, 0, 10⟩, ⟨21, 0, 100⟩]); let c := cmd 0x0D06 pl;
      let named : Fin 8 → Bool := fun b => bitOf (uAt c.payload 0 1) b.val; let method : Fin 8 → Nat := fun b => pnat (axisCfg s b.val) 17 0 0;
      isDoing s 0x0D06 c && decide (uAt c.payload 0 1 ≠ 0 ∧ (∀ a, named a = true → homeable s a.val = true ∧ (method a = 1 → missingParam [20,
        21] (axisCfg s a.val) = none)) ∧ method 0 = 1 ∧ s.axes[0].holds = [])),
    (let pl : List Byte := [1]; let s := doing 0x0D06 pl ({ homes [⟨3, 0, 1⟩, ⟨17, 0, 1⟩, ⟨20, 0, 10⟩, ⟨21, 0, 100⟩] with axes := one.axes.set 0 { one.axes[0] with holds := [.host] } }); let c := cmd 0x0D06 pl;
      let named : Fin 8 → Bool := fun b => bitOf (uAt c.payload 0 1) b.val; let method : Fin 8 → Nat := fun b => pnat (axisCfg s b.val) 17 0 0;
      isDoing s 0x0D06 c && decide (uAt c.payload 0 1 ≠ 0 ∧ (∀ a, named a = true → homeable s a.val = true ∧ (method a = 1 → missingParam [20,
        21] (axisCfg s a.val) = none)) ∧ method 0 = 1 ∧ s.axes[0].holds ≠ [])),
    (let pl : List Byte := [1]; let s := doing 0x0D06 pl (homes [⟨3, 0, 1⟩, ⟨17, 0, 2⟩]); let c := cmd 0x0D06 pl;
      let named : Fin 8 → Bool := fun b => bitOf (uAt c.payload 0 1) b.val; let method : Fin 8 → Nat := fun b => pnat (axisCfg s b.val) 17 0 0;
      isDoing s 0x0D06 c && decide (uAt c.payload 0 1 ≠ 0 ∧ (∀ a, named a = true → homeable s a.val = true ∧ (method a = 1 → missingParam [20,
        21] (axisCfg s a.val) = none)) ∧ method 0 = 2)) ] : List Bool).all id = true := by
  decide +kernel

/-- The hypotheses of each clause of O38 are met. -/
theorem test_ServoPeriodsAndDriveReplies : (
  [ (let s : State := State.reset; let u : Fin 4 := 0;
      decide (outputsOn s = false ∨ boundaryDue s ([0, 3, 6, 7].getD u.val 0) = false)),
    (let s : State := { one with sys.mode := .home, axes := one.axes.set 0 { homing := .drive }, clock := 48000000001 }; let u : Fin 4 := 2;
      let a : Fin 8 := 6; let n0 : ServoNext := { p := 0, v := 0, a := 0 };
      decide (2 ≤ u.val ∧ a.val = u.val + 4) && outputsOn s && boundaryDue s a.val && decide (mayChoose s a.val n0 = false ∨
        axisOn s a.val = false)),
    (let s : State := { one with cfg.live.axes := up.cfg.live.axes.set 6 [⟨1, 0, 1⟩] }; let u : Fin 4 := 2; let a : Fin 8 := 6;
      let n0 : ServoNext := { p := 0, v := 0, a := 0 };
      decide (2 ≤ u.val ∧ a.val = u.val + 4) && outputsOn s && boundaryDue s a.val && mayChoose s a.val n0 && axisOn s a.val),
    (let s : State := { one with drive := one.drive.set 0 ({ running := true, startup := 9 }) }; let u : Fin 4 := 0;
      let n0 : ServoNext := { p := 1, v := 0, a := 0 }; let n1 : ServoNext := { p := 0, v := 0, a := 0 };
      let n2 : ServoNext := { p := 0, v := 0, a := 0 }; let dl : Fin 2 := 0;
      let w : State := linkBoundary dl s;
      decide (u.val = dl.val ∧ (framesOn s = false ∨ isStopped s (0x50 + dl.val) = true ∨ mayChoose w (3 * dl.val) n0 = false ∨
        mayChoose w (3 * dl.val + 1) n1 = false ∨ mayChoose w (3 * dl.val + 2) n2 = false) ∧ outputsOn s ∧ boundaryDue s (3 * dl.val))),
    (let s : State := { one with sys.mode := .home, axes := one.axes.set 0 { homing := .drive }, clock := 48000000001 }; let u : Fin 4 := 0;
      let n0 : ServoNext := { p := 0, v := 0, a := 0 }; let n1 : ServoNext := { p := 0, v := 0, a := 0 };
      let n2 : ServoNext := { p := 0, v := 0, a := 0 }; let dl : Fin 2 := 0;
      let w : State := linkBoundary dl s; decide (u.val = dl.val) && framesOn s && boundaryDue s (3 * dl.val) && decide (isStopped s (0x50 + dl.val) = false) &&
        mayChoose w (3 * dl.val) n0 && mayChoose w (3 * dl.val + 1) n1 && mayChoose w (3 * dl.val + 2) n2),
    (let s : State := { one with sys.mode := .home, axes := one.axes.set 0 { homing := .drive }, clock := 48000000001 }; let dl : Fin 2 := 0;
      decide (s.drive[dl].running = false ∨ framesOn s = false)),
    (let s : State := { one with drive := one.drive.set 0 ({ running := true, startup := 9 }) }; let dl : Fin 2 := 0; let k : Fin 3 := 0;
      let rx : List Bool := uartLine (let b := leBytes 1 0xA7 ++ leBytes 1 0x80 ++ leBytes 2 0xFFFF ++ zeros 9; b ++ leBytes 2 (crc16 b).toNat);
      let a : Fin 8 := 0; let f : List Byte := windowBytes rx;
      decide (a.val = 3 * dl.val + k.val) && s.drive[dl].running && framesOn s && replyOk s dl k.val f),
    (let s : State := { one with drive := one.drive.set 0 ({ running := true, startup := 9 }) }; let dl : Fin 2 := 0; let k : Fin 3 := 0;
      let a : Fin 8 := 0;
      decide (a.val = 3 * dl.val + k.val) && s.drive[dl].running && framesOn s),
    (let s : State := { one with sys.mode := .home, axes := one.axes.set 0 { homing := .drive }, clock := 48000000001 }; let a : Fin 8 := 0;
      let due : Bool := decide (homingOf s a.val = .drive ∧ s.axes[a].homeAt + 800000000 * pnat (axisCfg s a.val) 24 0 60 < s.clock);
      decide (due)),
    (let s : State := { one with sys.mode := .home, axes := one.axes.set 0 { homing := .drive }, clock := 48000000001 }; let a : Fin 8 := 1;
      let due : Bool := decide (homingOf s a.val = .drive ∧ s.axes[a].homeAt + 800000000 * pnat (axisCfg s a.val) 24 0 60 < s.clock);
      decide (¬ due)),
    (let s : State := { one with cfg.live.axes := up.cfg.live.axes.set 6 [⟨1, 0, 1⟩] }; let i : Fin 2 := 0; let a : Fin 8 := 6;
      decide (a.val = 6 + i.val) && axisOn s a.val && outputsOn s && s.sys.resetN),
    (let s : State := { one with sys.mode := .home, axes := one.axes.set 0 { homing := .drive }, clock := 48000000001 }; let i : Fin 2 := 0;
      let a : Fin 8 := 6;
      decide (a.val = 6 + i.val ∧ (axisOn s a.val = false ∨ outputsOn s = false ∨ s.sys.resetN = false))),
    (let s : State := { one with sys.mode := .home, axes := one.axes.set 0 { homing := .drive }, clock := 48000000001 }; let a : Fin 8 := 0;
      let due : Bool := decide (axisOn s a.val = true ∧ s.axes[a].standstill = true ∧ s.axes[a].pending = none ∧
        pnat (axisCfg s a.val) 16 0 500 ≠ 0 ∧ s.axes[a].stillAt + 800000 * pnat (axisCfg s a.val) 16 0 500 ≤ s.clock);
      decide (due)),
    (let s : State := { one with sys.mode := .home, axes := one.axes.set 0 { homing := .drive }, clock := 48000000001 }; let a : Fin 8 := 1;
      let due : Bool := decide (axisOn s a.val = true ∧ s.axes[a].standstill = true ∧ s.axes[a].pending = none ∧
        pnat (axisCfg s a.val) 16 0 500 ≠ 0 ∧ s.axes[a].stillAt + 800000 * pnat (axisCfg s a.val) 16 0 500 ≤ s.clock);
      decide (¬ due)),
    (let s : State := { one with drive := one.drive.set 0 ({ running := true, startup := 9 }), axes := one.axes.set 0 { one.axes[0] with missRun := 2 } };
      let dl : Fin 2 := 0; let k : Fin 3 := 0; let a : Fin 8 := 0;
      decide (a.val = 3 * dl.val + k.val) && s.drive[dl].running && framesOn s && axisOn s a.val &&
        decide (s.axes[a].missRun + 1 = pnat (axisCfg s a.val) 11 0 3 ∧ latchedAt s (blockInst (0x48 + a.val)) = none)),
    (let s : State := { one with twin := { one.twin with hand := some { trigger := 2, step := .received } } }; let u : Fin 4 := 0; let dl : Fin 2 := 0;
      decide (u.val = dl.val ∧ framesOn s = false ∧ outputsOn s = true ∧ boundaryDue s (3 * dl.val) = true)) ] : List Bool).all id = true := by
  decide +kernel

/-- The hypotheses of each clause of O39 are met. -/
theorem test_MemoryCommandsArrangeScrubAndRepair : (
  [ (let pl : List Byte := [2]; let s := doing 0x0E01 pl { up with sys.mode := .configure }; let c := cmd 0x0E01 pl;
      isDoing s 0x0E01 c && decide (listTarget c.payload 0 ≠ 0)),
    (let pl : List Byte := [0, 0, 1]; let s := doing 0x0E01 pl { up with sys.mode := .configure }; let c := cmd 0x0E01 pl;
      (if let .error _ := judgeList memSpecs memRelation s.cfg.staged.mem (listItems c.payload 0) then (isDoing s 0x0E01 c &&
        decide (listTarget c.payload 0 = 0)) else false)),
    (let s := doing 0x0E01 [] { up with mem.sweepSeen := true, sys.mode := .configure }; let c := cmd 0x0E01 [];
      (if let .ok _ := judgeList memSpecs memRelation s.cfg.staged.mem (listItems c.payload 0) then (isDoing s 0x0E01 c &&
        decide (listTarget c.payload 0 = 0) && s.mem.sweepSeen) else false)),
    (let s := doing 0x0E01 [] { up with sys.mode := .configure }; let c := cmd 0x0E01 [];
      (if let .ok _ := judgeList memSpecs memRelation s.cfg.staged.mem (listItems c.payload 0) then (isDoing s 0x0E01 c &&
        decide (listTarget c.payload 0 = 0) && !s.mem.sweepSeen) else false)),
    (let pl : List Byte := [2]; let s := doing 0x0E02 pl { up with sys.mode := .configure }; let c := cmd 0x0E02 pl;
      (if let some _ := missingParam [1, 2] (memCfg s) then (isDoing s 0x0E02 c) else false)),
    (let pl : List Byte := [0, 0, 1]; let s := doing 0x0E02 pl { one with sys.mode := .configure }; let c := cmd 0x0E02 pl;
      let t : Nat := uAt c.payload 0 4;
      isDoing s 0x0E02 c && decide (missingParam [1, 2] (memCfg s) = none ∧ (t % 2 ≠ 0 ∨ fittedBytes s < t * 2 ^ 20))),
    (let pl : List Byte := [2]; let s := doing 0x0E02 pl { one with mem.sweepBusy := true, sys.mode := .configure }; let c := cmd 0x0E02 pl;
      let t : Nat := uAt c.payload 0 4;
      isDoing s 0x0E02 c && decide (missingParam [1, 2] (memCfg s) = none ∧ t % 2 = 0 ∧ t * 2 ^ 20 ≤ fittedBytes s ∧ (s.mem.sweepBusy = true ∨
        s.mem.training = true))),
    (let pl : List Byte := [2];
      let s := doing 0x0E02 pl { one with mem.sweepBusy := false, mem.training := false, mem.trained := false, sys.mode := .configure };
      let c := cmd 0x0E02 pl; let t : Nat := uAt c.payload 0 4;
      isDoing s 0x0E02 c && decide (missingParam [1, 2] (memCfg s) = none ∧ t % 2 = 0 ∧ t * 2 ^ 20 ≤ fittedBytes s) && !s.mem.sweepBusy &&
        !s.mem.training && !s.mem.trained),
    (let pl : List Byte := [0, 32]; let s := doing 0x0E02 pl { one with sys.mode := .configure }; let c := cmd 0x0E02 pl;
      let t : Nat := uAt c.payload 0 4;
      isDoing s 0x0E02 c && decide (missingParam [1, 2] (memCfg s) = none ∧ t % 2 = 0 ∧ t * 2 ^ 20 ≤ fittedBytes s) && !s.mem.sweepBusy &&
        !s.mem.training && s.mem.trained && decide (min s.mem.init[0] s.mem.init[1] < t / 2)),
    (let pl : List Byte := [2]; let s := doing 0x0E02 pl { one with sys.mode := .configure }; let c := cmd 0x0E02 pl;
      let t : Nat := uAt c.payload 0 4;
      isDoing s 0x0E02 c && decide (missingParam [1, 2] (memCfg s) = none ∧ t % 2 = 0 ∧ t * 2 ^ 20 ≤ fittedBytes s) && !s.mem.sweepBusy &&
        !s.mem.training && s.mem.trained && decide (t / 2 ≤ min s.mem.init[0] s.mem.init[1])),
    (let pl : List Byte := pay [(0, 1, 8)];
      let s := doing 0x0E03 pl { one with sys.mode := .service, mem := { one.mem with ppr := some ⟨0, 0, 0, 0, 0⟩ } }; let c := cmd 0x0E03 pl;
      isDoing s 0x0E03 c && decide (7 < uAt c.payload 0 1)),
    (let pl : List Byte := [2]; let k : Fin 8 := 2;
      let s := doing 0x0E03 pl { one with sys.mode := .service, mem := { one.mem with ppr := some ⟨0, 0, 0, 0, 0⟩ } }; let c := cmd 0x0E03 pl;
      isDoing s 0x0E03 c && decide (uAt c.payload 0 1 = k.val)),
    (let pl : List Byte := [1, 0, 191, 1]; let s := doing 0x0E04 pl { up with mem.sweepSeen := true }; let c := cmd 0x0E04 pl;
      isDoing s 0x0E04 c && decide (1 < uAt c.payload 2 1)),
    (let pl : List Byte := [0, 0, 1]; let s := doing 0x0E04 pl { up with mem.sweepSeen := true }; let c := cmd 0x0E04 pl;
      isDoing s 0x0E04 c && decide (uAt c.payload 2 1 = 1) && !s.mem.scrub.running),
    (let pl : List Byte := [0, 0, 1]; let s := doing 0x0E04 pl { up with mem.scrub.running := true }; let c := cmd 0x0E04 pl;
      isDoing s 0x0E04 c && decide (uAt c.payload 2 1 = 1) && s.mem.scrub.running),
    (let pl : List Byte := [2]; let k : Nat := 0; let s := doing 0x0E04 pl { up with mem.sweepSeen := true }; let c := cmd 0x0E04 pl;
      let target : Nat := uAt c.payload 0 1; let rate : Nat := uAt c.payload 4 4; let base : Nat := uAt c.payload 8 8;
      let limit : Nat := uAt c.payload 16 8;
      let bad : List (Reply × Bool) := [({ status := .badArg }, decide (decide (1 < target))), ({ status := .badArg, detail := 4 },
        decide (decide (rate < 10 ∨ 2000 < rate))), ({ status := .badArg, detail := 8 }, decide (decide (target = 0 ∧ base % 64 ≠ 0))),
        ({ status := .badArg, detail := 16 }, decide (decide (target = 0 ∧ (limit % 64 ≠ 0 ∨ limit ≤ base)))), ({ status := .busy },
        decide (decide (s.mem.scrub.running = true))), ({ status := .uninit }, decide (decide (target = 0 ∧ initBytes s < limit)))];
      (if let some (_, e) := bad[k]? then (isDoing s 0x0E04 c && decide (uAt c.payload 2 1 = 0) && e && decide (∀ j < k,
        (((if let some y := bad[j]? then decide (¬ y.2) else true)) = true))) else false)),
    (let pl : List Byte := [0, 0, 0, 0, 10, 0, 0, 0, 0, 0, 0, 0, 0, 0, 0, 0, 64]; let s := doing 0x0E04 pl { one with mem.sweepBusy := true };
      let c := cmd 0x0E04 pl; let target : Nat := uAt c.payload 0 1; let rate : Nat := uAt c.payload 4 4; let base : Nat := uAt c.payload 8 8;
      let limit : Nat := uAt c.payload 16 8;
      let bad : List (Reply × Bool) := [({ status := .badArg }, decide (decide (1 < target))), ({ status := .badArg, detail := 4 },
        decide (decide (rate < 10 ∨ 2000 < rate))), ({ status := .badArg, detail := 8 }, decide (decide (target = 0 ∧ base % 64 ≠ 0))),
        ({ status := .badArg, detail := 16 }, decide (decide (target = 0 ∧ (limit % 64 ≠ 0 ∨ limit ≤ base)))), ({ status := .busy },
        decide (decide (s.mem.scrub.running = true))), ({ status := .uninit }, decide (decide (target = 0 ∧ initBytes s < limit)))];
      isDoing s 0x0E04 c && decide (uAt c.payload 2 1 = 0 ∧ (∀ y ∈ bad, ¬ y.2))),
    (let k : Nat := 0; let s := doing 0x0E05 [] { one with sys.mode := .service, mem := { one.mem with ppr := some ⟨0, 0, 0, 0, 0⟩ } };
      let c := cmd 0x0E05 []; let kind : Nat := uAt c.payload 0 1; let bank : Nat := uAt c.payload 2 2; let i : Nat := uAt c.payload 4 2;
      let spares : Nat := (if kind = 1 then 2 else 1);
      let bad : List (Reply × Bool) := [({ status := .badArg }, decide (decide (kind ≠ 1 ∧ kind ≠ 2))), ({ status := .badArg, detail := 2 },
        decide (decide (448 ≤ bank))), ({ status := .badArg, detail := 4 }, decide (decide ((if kind = 1 then 1024 else 576) ≤ i))),
        ({ status := .noSpace }, decide (decide (spares ≤ sparesTaken s kind bank)))];
      (if let some (_, e) := bad[k]? then (isDoing s 0x0E05 c && e && decide (∀ j < k, (((if let some y := bad[j]? then
        decide (¬ y.2) else true)) = true))) else false)),
    (let pl : List Byte := [2]; let s := doing 0x0E05 pl { one with sys.mode := .service, mem := { one.mem with ppr := some ⟨0, 0, 0, 0, 0⟩ } };
      let c := cmd 0x0E05 pl; let kind : Nat := uAt c.payload 0 1; let bank : Nat := uAt c.payload 2 2; let i : Nat := uAt c.payload 4 2;
      let spares : Nat := (if kind = 1 then 2 else 1);
      let bad : List (Reply × Bool) := [({ status := .badArg }, decide (decide (kind ≠ 1 ∧ kind ≠ 2))), ({ status := .badArg, detail := 2 },
        decide (decide (448 ≤ bank))), ({ status := .badArg, detail := 4 }, decide (decide ((if kind = 1 then 1024 else 576) ≤ i))),
        ({ status := .noSpace }, decide (decide (spares ≤ sparesTaken s kind bank)))];
      isDoing s 0x0E05 c && decide (∀ y ∈ bad, ¬ y.2)),
    (let pl : List Byte := [2]; let s := doing 0x0E06 pl { one with sys.mode := .service, mem := { one.mem with ppr := some ⟨0, 0, 0, 0, 0⟩ } };
      let c := cmd 0x0E06 pl;
      (if let .error _ := pprRow c.payload s then (isDoing s 0x0E06 c) else false)),
    (let s := doing 0x0E06 [] { one with sys.mode := .service, mem := { one.mem with ppr := some ⟨0, 0, 0, 0, 0⟩ } }; let c := cmd 0x0E06 [];
      (if let .ok _ := pprRow c.payload s then (isDoing s 0x0E06 c && decide (s.mem.ppr ≠ none)) else false)),
    (let s := doing 0x0E06 [] { up with sys.mode := .configure }; let c := cmd 0x0E06 [];
      (if let .ok _ := pprRow c.payload s then (isDoing s 0x0E06 c && decide (s.mem.ppr = none)) else false)),
    (let s := doing 0x0E06 [] { up with sys.mode := .configure }; let c := cmd 0x0E06 [];
      (if let .ok r := pprRow c.payload s then (isDoing s 0x0E06 c && decide (s.mem.ppr = none ∧ r.group ∉ s.mem.pprUsed)) else false)),
    (let pl : List Byte := [2]; let k : Nat := 2; let s := doing 0x0E07 pl { up with sys.mode := .service }; let c := cmd 0x0E07 pl;
      let op : Nat := uAt c.payload 0 1; let space : Nat := uAt c.payload 1 1; let a : Nat := uAt c.payload 8 8;
      let bad : List (Reply × Bool) := [({ status := .badArg }, decide (decide (2 < op))), ({ status := .badArg, detail := 1 }, decide (decide (1 < space))),
        ({ status := .badArg, detail := 8 }, decide (decide ((space = 0 ∧ (a % 8 ≠ 0 ∨ beyondFitted s a 8 = true)) ∨ (space ≠ 0 ∧ 448 * 8192 ≤ a)))),
        ({ status := .uninit }, decide (decide (space = 0 ∧ uninitRange s a 8 = true))), ({ status := .noSpace }, decide (decide (op ≠ 1 ∧ (space,
        a) ∉ s.mem.testWords ∧ 64 ≤ s.mem.testWords.length)))];
      (if let some (_, e) := bad[k]? then (isDoing s 0x0E07 c && e && decide (∀ j < k, (((if let some y := bad[j]? then
        decide (¬ y.2) else true)) = true))) else false)),
    (let s := doing 0x0E07 [] { one with sys.mode := .service, mem := { one.mem with ppr := some ⟨0, 0, 0, 0, 0⟩ } }; let c := cmd 0x0E07 [];
      let op : Nat := uAt c.payload 0 1; let space : Nat := uAt c.payload 1 1; let a : Nat := uAt c.payload 8 8;
      let bad : List (Reply × Bool) := [({ status := .badArg }, decide (decide (2 < op))), ({ status := .badArg, detail := 1 }, decide (decide (1 < space))),
        ({ status := .badArg, detail := 8 }, decide (decide ((space = 0 ∧ (a % 8 ≠ 0 ∨ beyondFitted s a 8 = true)) ∨ (space ≠ 0 ∧ 448 * 8192 ≤ a)))),
        ({ status := .uninit }, decide (decide (space = 0 ∧ uninitRange s a 8 = true))), ({ status := .noSpace }, decide (decide (op ≠ 1 ∧ (space,
        a) ∉ s.mem.testWords ∧ 64 ≤ s.mem.testWords.length)))];
      isDoing s 0x0E07 c && decide ((∀ y ∈ bad, ¬ y.2) ∧ op = 0 ∧ space = 0)),
    (let pl : List Byte := [0, 1, 0, 3, 3, 0, 0, 0, 255, 127];
      let s := doing 0x0E07 pl { one with sys.mode := .service, mem := { one.mem with ppr := some ⟨0, 0, 0, 0, 0⟩ } }; let c := cmd 0x0E07 pl;
      let op : Nat := uAt c.payload 0 1; let space : Nat := uAt c.payload 1 1; let a : Nat := uAt c.payload 8 8;
      let bad : List (Reply × Bool) := [({ status := .badArg }, decide (decide (2 < op))), ({ status := .badArg, detail := 1 }, decide (decide (1 < space))),
        ({ status := .badArg, detail := 8 }, decide (decide ((space = 0 ∧ (a % 8 ≠ 0 ∨ beyondFitted s a 8 = true)) ∨ (space ≠ 0 ∧ 448 * 8192 ≤ a)))),
        ({ status := .uninit }, decide (decide (space = 0 ∧ uninitRange s a 8 = true))), ({ status := .noSpace }, decide (decide (op ≠ 1 ∧ (space,
        a) ∉ s.mem.testWords ∧ 64 ≤ s.mem.testWords.length)))];
      isDoing s 0x0E07 c && decide ((∀ y ∈ bad, ¬ y.2) ∧ op = 0 ∧ space = 1)),
    (let pl : List Byte := [1]; let s := doing 0x0E07 pl { one with sys.mode := .service, mem := { one.mem with ppr := some ⟨0, 0, 0, 0, 0⟩ } };
      let c := cmd 0x0E07 pl; let op : Nat := uAt c.payload 0 1; let space : Nat := uAt c.payload 1 1; let a : Nat := uAt c.payload 8 8;
      let bad : List (Reply × Bool) := [({ status := .badArg }, decide (decide (2 < op))), ({ status := .badArg, detail := 1 }, decide (decide (1 < space))),
        ({ status := .badArg, detail := 8 }, decide (decide ((space = 0 ∧ (a % 8 ≠ 0 ∨ beyondFitted s a 8 = true)) ∨ (space ≠ 0 ∧ 448 * 8192 ≤ a)))),
        ({ status := .uninit }, decide (decide (space = 0 ∧ uninitRange s a 8 = true))), ({ status := .noSpace }, decide (decide (op ≠ 1 ∧ (space,
        a) ∉ s.mem.testWords ∧ 64 ≤ s.mem.testWords.length)))];
      isDoing s 0x0E07 c && decide ((∀ y ∈ bad, ¬ y.2) ∧ op = 1)),
    (let pl : List Byte := [2]; let s := doing 0x0E07 pl { one with sys.mode := .service, mem := { one.mem with ppr := some ⟨0, 0, 0, 0, 0⟩ } };
      let c := cmd 0x0E07 pl; let op : Nat := uAt c.payload 0 1; let space : Nat := uAt c.payload 1 1; let a : Nat := uAt c.payload 8 8;
      let bad : List (Reply × Bool) := [({ status := .badArg }, decide (decide (2 < op))), ({ status := .badArg, detail := 1 }, decide (decide (1 < space))),
        ({ status := .badArg, detail := 8 }, decide (decide ((space = 0 ∧ (a % 8 ≠ 0 ∨ beyondFitted s a 8 = true)) ∨ (space ≠ 0 ∧ 448 * 8192 ≤ a)))),
        ({ status := .uninit }, decide (decide (space = 0 ∧ uninitRange s a 8 = true))), ({ status := .noSpace }, decide (decide (op ≠ 1 ∧ (space,
        a) ∉ s.mem.testWords ∧ 64 ≤ s.mem.testWords.length)))];
      isDoing s 0x0E07 c && decide ((∀ y ∈ bad, ¬ y.2) ∧ op = 2)),
    (let pl : List Byte := pay [(0, 1, 1), (1, 1, 1)]; let s := doing 0x0E07 pl { one with sys.mode := .service, mem := { one.mem with ppr := some ⟨0, 0, 0, 0, 0⟩, ondieUsed := 0 } };
      let c := cmd 0x0E07 pl; let op : Nat := uAt c.payload 0 1; let space : Nat := uAt c.payload 1 1; let a : Nat := uAt c.payload 8 8;
      isDoing s 0x0E07 c && decide (op = 1 ∧ space = 1 ∧ a < 448 * 8192 ∧ s.mem.ondieData.find? (fun e => e.1 == a) = none ∧ s.mem.ondieUsed.getLsbD (a / 8192) = false)),
    (let pl : List Byte := pay [(0, 1, 1), (1, 1, 1)]; let s := doing 0x0E07 pl { one with sys.mode := .service, mem := { one.mem with ppr := some ⟨0, 0, 0, 0, 0⟩, ondieUsed := 1 } };
      let c := cmd 0x0E07 pl; let op : Nat := uAt c.payload 0 1; let space : Nat := uAt c.payload 1 1; let a : Nat := uAt c.payload 8 8;
      isDoing s 0x0E07 c && decide (op = 1 ∧ space = 1 ∧ a < 448 * 8192 ∧ s.mem.ondieData.find? (fun e => e.1 == a) = none ∧ s.mem.ondieUsed.getLsbD (a / 8192) = true)),
    (let pl : List Byte := pay [(0, 1, 1), (1, 1, 1)]; let s := doing 0x0E07 pl { one with sys.mode := .service, mem := { one.mem with ppr := some ⟨0, 0, 0, 0, 0⟩, ondieData := [(0, 5)] } };
      let c := cmd 0x0E07 pl; let op : Nat := uAt c.payload 0 1; let space : Nat := uAt c.payload 1 1; let a : Nat := uAt c.payload 8 8;
      isDoing s 0x0E07 c && decide (op = 1 ∧ space = 1 ∧ a < 448 * 8192 ∧ s.mem.ondieData.find? (fun e => e.1 == a) = some (0, 5))) ] : List Bool).all id = true := by
  decide +kernel

/-- The hypotheses of each clause of O40 are met. -/
theorem test_MemoryKeepsItsContents : (
  [ (let s : State := { one with clock := 1000000000 };
      !s.mem.training),
    (let s : State := { one with mem.training := true, mem.target := 65 };
      s.mem.training && decide (min s.mem.init[0] s.mem.init[1] < s.mem.target)),
    (let s : State := { up with mem.training := true };
      s.mem.training && decide (s.mem.target ≤ min s.mem.init[0] s.mem.init[1])),
    (let s : State := { one with mem.training := true, mem.target := 65 }; let ok0 : Bool := false; let ok1 : Bool := false;
      s.mem.training && decide ((ok0 && ok1) = false)),
    (let s : State := { one with mem.sweepBusy := true, mem.heldWrites := [], mem.target := 65 }; let ch : Fin 2 := 0;
      s.mem.sweepBusy && decide (s.mem.init[ch] < s.mem.target)),
    (let s : State := { one with clock := 1000000000 }; let ch : Fin 2 := 0;
      decide (s.mem.sweepBusy = false ∨ s.mem.target ≤ s.mem.init[ch])),
    (let s : State := { up with mem.sweepBusy := true };
      s.mem.sweepBusy && decide (s.mem.target ≤ min s.mem.init[0] s.mem.init[1])),
    (let s : State := { one with clock := 1000000000 };
      decide (s.mem.sweepBusy = false ∨ min s.mem.init[0] s.mem.init[1] < s.mem.target)),
    (let s : State := { one with clock := 1000000000 }; let w : Nat := 0;
      decide (s.mem.scrub.running = false ∨ s.mem.scrub.paused = true ∨ rateAllows w s = false ∨ (s.mem.scrub.sram = false ∧
        channelStopped s s.mem.scrub.pos = true) ∨ (s.mem.scrub.sram = true ∧ (w < s.mem.scrub.pos ∨ ondieEnd ≤ w)))),
    (let s : State := { one with mem.scrub := { running := true, limit := 65 } }; let y : BitVec 8 := 0; let la : Nat := s.mem.scrub.pos;
      let cor : Nat := (scrubCounts s y).1; let new_ : Nat := (scrubCounts s y).2.1; let old : Nat := (scrubCounts s y).2.2;
      s.mem.scrub.running && !s.mem.scrub.paused && decide (51200 * s.mem.scrub.rateLines ≤ s.mem.scrub.rate * (s.clock - s.mem.scrub.rateAt)) && !s.mem.scrub.sram && !(channelStopped s la) && SMap.wf 0 s.mem.synd &&
        decide ((lineState s la = .good → cor = ((List.range 8).filter fun k => beatSyndrome s (la + 8 * k) != 0).length ∧ new_ = 0 ∧ old = 0) ∧
        ((lineState s la matches .bad _) = true → cor = 0 ∧ new_ = 1 ∧ old = 0) ∧ (lineState s la = .poisoned → cor = 0 ∧ new_ = 0 ∧ old = 1))),
    (let s : State := { up with mem.scrub.running := true, mem.scrub.paused := false, mem.scrub.sram := true, clock := 1 }; let w : Nat := 0;
      let lost : BitVec 8 := 1; let v := scrubWords s.mem.scrub.pos w s; let y : BitVec 8 := SMap.get 0 v.mem.ondie w ^^^ lost;
      let cor : Nat := (scrubCounts s y).1; let new_ : Nat := (scrubCounts s y).2.1; let old : Nat := (scrubCounts s y).2.2;
      s.mem.scrub.running && !s.mem.scrub.paused && s.mem.scrub.sram && decide (s.mem.scrub.rateLines + (w + 1 - s.mem.scrub.pos) ≤ s.clock - s.mem.scrub.rateAt ∧ s.mem.scrub.pos ≤ w ∧
        w < ondieEnd ∧ (classify y = .clean →
        cor = 0 ∧ new_ = 0 ∧ old = 0) ∧ classify y = .checkBit ∧ (classify y = .uncorrectable → cor = 0 ∧ new_ = 1 ∧ old = 0) ∧
        (classify y = .poison → cor = 0 ∧ new_ = 0 ∧ old = 1) ∧ (∀ e ∈ s.mem.ondie, e.1 < s.mem.scrub.pos ∨ w ≤ e.1))),
    (let s : State := { one with clock := 1000000000 };
      decide (s.mem.leakAt + 800000 * pnat (memCfg s) 5 0 1000 ≤ s.clock)),
    (let s : State := { one with mem.training := true, mem.target := 65 };
      decide (s.clock < s.mem.leakAt + 800000 * pnat (memCfg s) 5 0 1000)),
    (let s : State := { one with clock := 1000000000 };
      decide (s.mem.ppr = none)),
    (let s : State := { one with mem.ppr := some { ch := 0, rank := 0, bg := 0, bank := 0, row := 0 } };
      (if let some _ := s.mem.ppr then (true) else false)),
    (let s : State := { one with mem.scrub := { running := true, sram := true, pos := ondieEnd - 1 }, clock := 1 }; let w : Nat := ondieEnd - 1;
      let last : Bool := true; let v := scrubWords s.mem.scrub.pos w s;
      decide (s.mem.scrub.rateLines + (w + 1 - s.mem.scrub.pos) ≤ s.clock - s.mem.scrub.rateAt ∧ s.mem.scrub.pos ≤ w ∧ w < ondieEnd ∧
        (last = true ↔ w + 1 = ondieEnd) ∧ classify (SMap.get 0 v.mem.ondie w ^^^ 0) = .clean)),
    (let s : State := { one with mem.scrub := { running := true, sram := true, pos := 1 }, clock := 1, mem.ondie := [(1, 0xFF)] }; let w : Nat := 1;
      let last : Bool := false; let v := scrubWords s.mem.scrub.pos w s;
      decide (s.mem.scrub.rateLines + (w + 1 - s.mem.scrub.pos) ≤ s.clock - s.mem.scrub.rateAt ∧ s.mem.scrub.pos ≤ w ∧ w < ondieEnd ∧
        (last = true ↔ w + 1 = ondieEnd) ∧ SMap.get 0 v.mem.ondie w = 0xFF ∧ classify 0xFF = .poison)),
    (let s : State := { one with mem.scrub := { running := true, sram := true, pos := accWord 0 }, clock := 1 }; let w : Nat := accWord 0; let lost : BitVec 8 := 3;
      let v := scrubWords s.mem.scrub.pos w s;
      decide (s.mem.scrub.pos ≤ w ∧ w < ondieEnd ∧ w + 1 ≠ ondieEnd ∧ classify (SMap.get 0 v.mem.ondie w ^^^ lost) = .uncorrectable ∧
        wordOwner w = lifeSource ∧ v.mem.injects = [])),
    (let s : State := { one with mem.scrub := { running := true, sram := true }, clock := 1 }; let w : Nat := 0; let lost : BitVec 8 := 3;
      let v := scrubWords s.mem.scrub.pos w s;
      decide (w < ondieEnd ∧ w + 1 ≠ ondieEnd ∧ classify (SMap.get 0 v.mem.ondie w ^^^ lost) = .uncorrectable ∧ wordOwner w ≠ lifeSource)),
    (let s : State := one; let ch : Fin 2 := 0; let a : Nat := 64;
      decide (s.mem.trained = true ∧ s.sys.mode ≠ .boot ∧ s.sys.mode ≠ .keepalive ∧ latchedAt s (blockInst (0x13 + ch.val)) = none ∧
        channelOf a = ch.val ∧ beyondFitted s (64 * (a / 64)) 64 = false)),
    (let s : State := one; let ch : Fin 2 := 0; let a : Nat := 2 ^ 40;
      decide (channelOf a ≠ ch.val ∨ beyondFitted s (64 * (a / 64)) 64 = true)) ] : List Bool).all id = true := by
  decide +kernel

/-- The hypotheses of each clause of O41 are met. -/
theorem test_CheckValueUnitsRun : (
  [ (let pl : List Byte := pay [(0, 1, 8)];
      let s := doing 0x0F01 pl { up with mem.cvu := up.mem.cvu.set 0 { up.mem.cvu[0] with armed := true } }; let c := cmd 0x0F01 pl;
      (if let some _ := cvuBad c.payload s then (isDoing s 0x0F01 c) else false)),
    (let pl : List Byte := pay [(0, 1, 8)];
      let s := doing 0x0F02 pl { up with mem.cvu := up.mem.cvu.set 0 { up.mem.cvu[0] with armed := true } }; let c := cmd 0x0F02 pl;
      decide (7 < uAt c.payload 0 1) && isDoing s 0x0F02 c),
    (let pl : List Byte := pay [(0, 1, 8)];
      let s := doing 0x0F03 pl { up with mem.cvu := up.mem.cvu.set 0 { up.mem.cvu[0] with armed := true } }; let c := cmd 0x0F03 pl;
      decide (7 < uAt c.payload 0 1) && isDoing s 0x0F03 c),
    (let pl : List Byte := [0, 1]; let u : Fin 8 := 0;
      let s := doing 0x0F01 pl { up with mem.cvu := up.mem.cvu.set 0 { up.mem.cvu[0] with armed := true } }; let c := cmd 0x0F01 pl;
      let x : Cvu := s.mem.cvu[u];
      decide (uAt c.payload 0 1 = u.val) && isDoing s 0x0F01 c && decide (cvuBad c.payload s = none ∧ uAt c.payload 1 1 ≠ 0 ∧ (x.armed = true ∨
        x.running = true))),
    (let pl : List Byte := [0, 1, 1]; let u : Fin 8 := 0;
      let s := doing 0x0F01 pl { up with mem.cvu := up.mem.cvu.set 0 { up.mem.cvu[0] with armed := false, running := false } };
      let c := cmd 0x0F01 pl; let x : Cvu := s.mem.cvu[u];
      decide (uAt c.payload 0 1 = u.val) && isDoing s 0x0F01 c && decide (cvuBad c.payload s = none ∧ uAt c.payload 1 1 ≠ 0) && !x.armed &&
        !x.running && decide (uAt c.payload 2 1 ≠ 0)),
    (let pl : List Byte := [0, 1]; let u : Fin 8 := 0;
      let s := doing 0x0F01 pl { up with mem.cvu := up.mem.cvu.set 0 { up.mem.cvu[0] with armed := false, running := false } };
      let c := cmd 0x0F01 pl; let x : Cvu := s.mem.cvu[u];
      decide (uAt c.payload 0 1 = u.val) && isDoing s 0x0F01 c && decide (cvuBad c.payload s = none ∧ uAt c.payload 1 1 ≠ 0) && !x.armed &&
        !x.running && decide (uAt c.payload 2 1 = 0)),
    (let u : Fin 8 := 0;
      let s := doing 0x0F01 [] { up with mem.cvu := up.mem.cvu.set 0 { up.mem.cvu[0] with armed := false, running := false } };
      let c := cmd 0x0F01 []; let x : Cvu := s.mem.cvu[u];
      decide (uAt c.payload 0 1 = u.val) && isDoing s 0x0F01 c && decide (cvuBad c.payload s = none ∧ uAt c.payload 1 1 = 0) && !x.armed &&
        !x.running),
    (let u : Fin 8 := 0; let s := doing 0x0F01 [] { up with mem.cvu := up.mem.cvu.set 0 { up.mem.cvu[0] with armed := true } };
      let c := cmd 0x0F01 []; let x : Cvu := s.mem.cvu[u];
      decide (uAt c.payload 0 1 = u.val) && isDoing s 0x0F01 c && decide (cvuBad c.payload s = none ∧ uAt c.payload 1 1 = 0 ∧ (x.armed = true ∨
        x.running = true))),
    (let pl : List Byte := [0, 1]; let u : Fin 8 := 0;
      let s := doing 0x0F02 pl { up with mem.cvu := up.mem.cvu.set 0 { up.mem.cvu[0] with armed := true } }; let c := cmd 0x0F02 pl;
      decide (uAt c.payload 0 1 = u.val) && isDoing s 0x0F02 c),
    (let pl : List Byte := [0, 1]; let u : Fin 8 := 0;
      let s := doing 0x0F03 pl { up with mem.cvu := up.mem.cvu.set 0 { up.mem.cvu[0] with armed := true } }; let c := cmd 0x0F03 pl;
      let x : Cvu := s.mem.cvu[u];
      decide (uAt c.payload 0 1 = u.val) && isDoing s 0x0F03 c && decide (x.armed = true ∨ x.running = true)),
    (let pl : List Byte := [0, 1]; let u : Fin 8 := 0;
      let s := doing 0x0F03 pl { up with mem.cvu := up.mem.cvu.set 0 { up.mem.cvu[0] with armed := false, running := false } };
      let c := cmd 0x0F03 pl; let x : Cvu := s.mem.cvu[u];
      decide (uAt c.payload 0 1 = u.val) && isDoing s 0x0F03 c && !x.armed && !x.running),
    (let s : State := { up with mem.cvu := up.mem.cvu.set 0 { up.mem.cvu[0] with running := true, reached := true } }; let u : Fin 8 := 0;
      s.mem.cvu[u].running && s.mem.cvu[u].reached),
    (let s : State := { up with mem.cvu := up.mem.cvu.set 0 { up.mem.cvu[0] with armed := true } }; let u : Fin 8 := 0;
      decide (s.mem.cvu[u].running = false ∨ s.mem.cvu[u].reached = false)) ] : List Bool).all id = true := by
  decide +kernel

/-- The hypotheses of each clause of O42 are met. -/
theorem test_EventsAreWrittenHeldOrDropped : (
  [ (let e : Event := { code := 1, payload := zeros 33 };
      let s : State := { up with sys.phase := .running, evr.episode := false, evr.held := [], evr.wr := 1021 };
      decide (s.sys.phase = .running) && !s.evr.episode && decide (s.evr.held = [] ∧ s.evr.unread + (e.conts + 1) ≤ 1024)),
    (let e : Event := { code := 1, keep := true };
      let s : State := { up with sys.phase := .running, evr.episode := false, evr.held := [], evr.wr := 1024 };
      decide (s.sys.phase = .running) && !s.evr.episode && decide (s.evr.held = [] ∧ 1024 < s.evr.unread + (e.conts + 1)) && e.keep &&
        decide (e.conts + 1 ≤ 64)),
    (let e : Event := { code := 1, payload := zeros 33 };
      let s : State := { up with sys.phase := .running, evr.episode := false, evr.held := [], evr.wr := 1024 };
      decide (s.sys.phase = .running) && !s.evr.episode && decide (s.evr.held = [] ∧ 1024 < s.evr.unread + (e.conts + 1)) && !e.keep),
    (let s : State := { up with sys.phase := .running, evr.episode := false, evr.held := [], evr.wr := 1021 };
      decide (s.evr.unread ≤ 1024)) ] : List Bool).all id = true := by
  decide +kernel

/-- The hypotheses of each clause of O43 are met. -/
theorem test_FaultsLatchRepeatAndOverrun : (
  [ (let c : FClass := .underrun; let src : Nat := 0x30; let cell : Nat := 0x30; let s : State := up;
      (if let x :: _ := faultPath c src cell then (canArise c s && decide ((isConsequence c && isWithheld s) = false ∧ (s.sys.legacy &&
        notInLegacy c) = false ∧ latchedAt s x = none)) else false)),
    (let c : FClass := .underrun; let src : Nat := 0x30; let cell : Nat := 0x30;
      let s : State := { up with faults.recs := [{ inst := regionInst 0x30, latch := some .underrun }] };
      (if let x :: _ := faultPath c src cell then (canArise c s && decide ((isConsequence c && isWithheld s) = false ∧ (s.sys.legacy &&
        notInLegacy c) = false ∧ latchedAt s x = some c)) else false)),
    (let c : FClass := .underrun; let src : Nat := 0x30; let cell : Nat := 0x30;
      let s : State := { up with faults.recs := [{ inst := regionInst 0x30, latch := some .wavEcc,
                                                   overruns := List.replicate 3 { cls := .underrun, source := 0x30, cell := 0, time := 0 } }] };
      (if let x :: _ := faultPath c src cell then ((if let some l := latchedAt s x then (canArise c s && decide ((isConsequence c &&
        isWithheld s) = false ∧ (s.sys.legacy && notInLegacy c) = false ∧ l ≠ c ∧ (recOf s x).overruns.length < 4)) else false)) else false)),
    (let c : FClass := .underrun; let src : Nat := 0x30; let cell : Nat := 0x30;
      let s : State := { up with faults.recs := [{ inst := regionInst 0x30, latch := some .wavEcc,
                                                   overruns := List.replicate 4 { cls := .underrun, source := 0x30, cell := 0, time := 0 } }] };
      (if let x :: _ := faultPath c src cell then ((if let some l := latchedAt s x then (canArise c s && decide ((isConsequence c &&
        isWithheld s) = false ∧ (s.sys.legacy && notInLegacy c) = false ∧ l ≠ c ∧ 4 ≤ (recOf s x).overruns.length)) else false)) else false)),
    (let c : FClass := .underrun; let s : State := State.reset;
      !(canArise c s)),
    (let c : FClass := .underrun; let s : State := { up with swath.withheld := true };
      isConsequence c && isWithheld s),
    (let c : FClass := .dutyLimit; let s : State := { up with sys.legacy := true };
      s.sys.legacy && notInLegacy c) ] : List Bool).all id = true := by
  decide +kernel

/-- The hypotheses of each clause of O44 are met. -/
theorem test_RecoveryReadsReleasesAndRestarts : (
  [ (let s := doing 0x1001 [] { one with sys.mode := .safestop, axes := one.axes.set 0 { standstill := false } }; let c := cmd 0x1001 [];
      (if let .error _ := instOf c.payload then (isDoing s 0x1001 c) else false)),
    (let s := doing 0x1002 [] { one with sys.mode := .safestop, axes := one.axes.set 0 { standstill := false } }; let c := cmd 0x1002 [];
      (if let .error _ := instOf c.payload then (isDoing s 0x1002 c) else false)),
    (let pl : List Byte := [1, 48, 255, 255];
      let s := doing 0x1001 pl { one with sys.mode := .safestop, axes := one.axes.set 0 { standstill := false } }; let c := cmd 0x1001 pl;
      (if let .ok _ := instOf c.payload then (isDoing s 0x1001 c) else false)),
    (let pl : List Byte := [1, 48, 255, 255];
      let s := doing 0x1002 pl { one with sys.mode := .safestop, axes := one.axes.set 0 { standstill := false } }; let c := cmd 0x1002 pl;
      (if let .ok x := instOf c.payload then (isDoing s 0x1002 c && decide (latchedAt s x = none)) else false)),
    (let pl : List Byte := [1, 48, 255, 255];
      let s := doing 0x1002 pl { up with faults.recs := [{ inst := blockInst 0x30, latch := some .headLost, source := 0x30 }] };
      let c := cmd 0x1002 pl;
      (if let .ok x := instOf c.payload then ((if let some k := latchedAt s x then (isDoing s 0x1002 c && decide (k.code ≠ uAt c.payload 4 1 ∨
        k.release ≠ .ack ∨ x.level = .chip)) else false)) else false)),
    (let pl : List Byte := [1, 48, 255, 255, 54];
      let s := doing 0x1002 pl { up with faults.recs := [{ inst := blockInst 0x30, latch := some .headLost, source := 0x30 }] };
      let c := cmd 0x1002 pl;
      (if let .ok x := instOf c.payload then ((if let some k := latchedAt s x then (isDoing s 0x1002 c && decide (k.code = uAt c.payload 4 1 ∧
        k.release = .ack ∧ x.level ≠ .chip ∧ (ackCondition s (recOf s x) k = false ∨ ((recOf s x).discards = true ∧
        s.faults.discard ≠ none)))) else false)) else false)),
    (let pl : List Byte := [1, 48, 255, 255, 54];
      let s := doing 0x1002 pl { one with faults.discard := none, faults.recs := [{ inst := blockInst 0x30, latch := some .headLost, source := 0x30 }],
                                          mbx.current := some (cmd 0x1002 [1, 48, 255, 255, 54]) };
      let c := cmd 0x1002 pl;
      (if let .ok x := instOf c.payload then ((if let some k := latchedAt s x then (isDoing s 0x1002 c && decide (k.code = uAt c.payload 4 1 ∧
        k.release = .ack ∧ x.level ≠ .chip) && ackCondition s (recOf s x) k && decide ((recOf s x).discards = false ∨
        s.faults.discard = none)) else false)) else false)),
    (let pl : List Byte := [1, 48, 255, 255]; let ball : Bool := false;
      let s := doing 0x1003 pl { one with sys.mode := .safestop, axes := one.axes.set 0 { standstill := false } }; let c := cmd 0x1003 pl;
      isDoing s 0x1003 c && decide (axesStill s = false ∨ s.life.flush.isSome = true ∨ clearCondition ball s = false)),
    (let pl : List Byte := [1, 48, 255, 255]; let ball : Bool := false; let s := doing 0x1003 pl { up with sys.mode := .safestop };
      let c := cmd 0x1003 pl;
      isDoing s 0x1003 c && axesStill s && decide (s.life.flush = none) && clearCondition ball s),
    (let s := doing 0x1101 [] { one with sys.mode := .safestop, axes := one.axes.set 0 { standstill := false } }; let c := cmd 0x1101 [];
      let src : Nat := uAt c.payload 0 1; let region : Bool := (decide (1 ≤ src) && decide (src ≤ 5));
      isDoing s 0x1101 c && decide ((region = false ∧ hasBlock src = false) ∨ src ∈ [5, 0x70, 0x72, 0x74])),
    (let blocks : List Nat := [0x30]; let pl : List Byte := [48]; let k : Nat := 0; let s := doing 0x1101 pl { one with swath.active := true };
      let c := cmd 0x1101 pl; let src : Nat := uAt c.payload 0 1; let region : Bool := (decide (1 ≤ src) && decide (src ≤ 5));
      (if let some b := blocks[k]? then ((if let some st := reinitRefusal s b then (isDoing s 0x1101 c && decide (blocks = (if region then
        (List.range 0x75).filter fun b => hasBlock b && regionOf b == src else [src]) ∧ (region = true ∨ hasBlock src = true) ∧ src ∉ [5, 0x70, 0x72,
        0x74] ∧ (∀ j < k, (((if let some b' := blocks[j]? then decide (reinitRefusal s b' = none) else true)) = true)))) else false)) else false)),
    (let pl : List Byte := [1, 48, 255, 255]; let fails : List Nat := []; let pass : BitVec 9 := 1;
      let s := doing 0x1101 pl { one with sys.mode := .safestop, axes := one.axes.set 0 { standstill := false } }; let c := cmd 0x1101 pl;
      let src : Nat := uAt c.payload 0 1; let region : Bool := (decide (1 ≤ src) && decide (src ≤ 5));
      let blocks : List Nat := (if region then (List.range 0x75).filter fun b => hasBlock b && regionOf b == src else [src]);
      isDoing s 0x1101 c && decide ((region = true ∨ hasBlock src = true) ∧ src ∉ [5, 0x70, 0x72, 0x74] ∧ (∀ b ∈ blocks, reinitRefusal s b = none) ∧
        (∀ b ∈ blocks, b ∉ fails ∧ (b = 0x11 → pass ≠ 0)))),
    (let blocks : List Nat := [0x30]; let pl : List Byte := [48]; let fails : List Nat := [0x30]; let pass : BitVec 9 := 1; let k : Nat := 0;
      let s := doing 0x1101 pl { one with sys.mode := .safestop, axes := one.axes.set 0 { standstill := false } }; let c := cmd 0x1101 pl;
      let src : Nat := uAt c.payload 0 1; let region : Bool := (decide (1 ≤ src) && decide (src ≤ 5));
      (if let some b := blocks[k]? then (isDoing s 0x1101 c && decide (blocks = (if region then (List.range 0x75).filter fun b => hasBlock b &&
        regionOf b == src else [src]) ∧ (region = true ∨ hasBlock src = true) ∧ src ∉ [5, 0x70, 0x72, 0x74] ∧ (∀ b ∈ blocks,
        reinitRefusal s b = none) ∧ (b ∈ fails ∨ (b = 0x11 ∧ pass = 0)) ∧ (∀ j < k, (((if let some b' := blocks[j]? then decide (b' ∉ fails ∧
        (b' = 0x11 → pass ≠ 0)) else true)) = true)))) else false)),
    (let blocks : List Nat := [0x30]; let pl : List Byte := [48]; let fails : List Nat := [0x30]; let k : Nat := 0;
      let s := doing 0x1101 pl one; let c := cmd 0x1101 pl;
      (if let some b := blocks[k]? then (isDoing s 0x1101 c && decide (b ∈ fails ∧ reinitRefusal s b = none ∧ 0x11 ∉ blocks.take (k + 1) ∧
        b ∉ s.faults.stopped ∧ stopReports b s = true ∧ canArise .blockStop s = true ∧ latchedAt s (regionInst b) = none)) else false)),
    (let blocks : List Nat := [0x30]; let pl : List Byte := [48]; let fails : List Nat := [0x30]; let k : Nat := 0;
      let s := doing 0x1101 pl { one with faults.stopped := [0x30] }; let c := cmd 0x1101 pl;
      (if let some b := blocks[k]? then (isDoing s 0x1101 c && decide (b ∈ fails ∧ reinitRefusal s b = none ∧ 0x11 ∉ blocks.take (k + 1) ∧
        b ∈ s.faults.stopped)) else false)) ] : List Bool).all id = true := by
  decide +kernel

/-- The hypotheses of each clause of O45 are met. -/
theorem test_DiscardsEndAndTemperatureTrips : (
  [ (let s : State := { up with audit.pass := none, faults.discard := some { byCommand := true, cause := 0 } };
      (if let some _ := s.faults.discard then (true) else false)),
    (let s : State := { up with faults.discard := none };
      decide (s.faults.discard = none)),
    (let s : State := State.reset;
      decide (s.sys.mode = .keepalive ∨ s.sys.phase = .inReset)),
    (let s : State := { up with audit.pass := none, faults.discard := some { byCommand := true, cause := 0 } }; let tj : BitVec 12 := 0;
      decide (s.sys.mode ≠ .keepalive ∧ s.sys.phase ≠ .inReset ∧ (tj.toInt < 920 ∨ s.sys.hotReadings ≠ 3 ∨ s.sys.mode = .boot))),
    (let s : State := { up with sys.hotReadings := 3 }; let tj : BitVec 12 := 920;
      decide (s.sys.mode ≠ .keepalive ∧ s.sys.phase ≠ .inReset ∧ 920 ≤ tj.toInt ∧ s.sys.hotReadings = 3 ∧ s.sys.mode ≠ .boot)) ] : List Bool).all id = true := by
  decide +kernel

/-- The hypotheses of each clause of O46 are met. -/
theorem test_LeaseMessagesKeepTheLease : (
  [ (let s : State := { twin .holder with twin := { (twin .holder).twin with linkAt := some 5 } };
      decide (s.twin.repeats = [])),
    (let s : State := { up with sys.phase := .running };
      decide (leaseRuns s = false ∨ isStopped s 0x61 = true)),
    (let s : State := { twin .holder with twin := { (twin .holder).twin with linkAt := some 5 } };
      leaseRuns s && !(isStopped s 0x61) && holdsLease s),
    (let s : State := { twin .none_ with twin := { (twin .none_).twin with vValid := true, v := 101600000 } };
      leaseRuns s && !(isStopped s 0x61) && !(holdsLease s) && s.twin.vValid && decide (s.clock < s.twin.v - 1600000 + 200000)),
    (let s : State := { twin .none_ with twin := { (twin .none_).twin with epoch := 5 } };
      leaseRuns s && !(isStopped s 0x61) && !(holdsLease s) && decide (s.twin.vValid = false ∨ s.twin.v - 1600000 + 200000 ≤ s.clock)),
    (let type : Nat := 5; let s : State := State.reset;
      decide (1 ≤ type ∧ type ≤ 6 ∧ s.sys.phase ≠ .running)),
    (let type : Nat := 5; let s : State := { twin .holder with twin := { (twin .holder).twin with linkAt := some 5 } }; let h : List Bool := [];
      decide (1 ≤ type ∧ type ≤ 6 ∧ s.sys.phase = .running ∧ (leaseOf true (leaseBytes h) = none ∨ ((((if let some m := leaseOf true (leaseBytes h) then
        decide (leaseGood m = false) else false)) = true))))),
    (let type : Nat := 5; let s : State := { twin .holder with twin := { (twin .holder).twin with linkAt := some 5 } };
      let h : List Bool := manchesterLine (bitsOfBytes (wireFrame (leaseBody 1 0 0)));
      (if let some m := leaseOf true (leaseBytes h) then (decide (1 ≤ type ∧ type ≤ 6 ∧ s.sys.phase = .running) && leaseGood m &&
        decide (leaseType m ≠ type)) else false)),
    (let type : Nat := 5;
      decide (1 ≤ type ∧ type ≤ 6)),
    (let type : Nat := 5; let s : State := { twin .holder with twin := { (twin .holder).twin with linkAt := some 5 } };
      let f : List Byte := leaseBody 6 0 0; let v := acceptLease f s;
      decide (1 ≤ type ∧ type ≤ 6 ∧ (v.twinLink.rxLease = [] ∨ s.sys.phase ≠ .running))),
    (let type : Nat := 5; let s : State := { twin .none_ with twinLink := { linked.twinLink with rxLease := [leaseBody 1 0 0 ++ [0, 0]] } };
      let f : List Byte := leaseBody 6 0 0; let v := acceptLease f s;
      (if let p :: _ := v.twinLink.rxLease then ((if let some m := leaseOf false p then (decide (1 ≤ type ∧ type ≤ 6 ∧ s.sys.phase = .running) &&
        leaseGood m && decide (leaseType m ≠ type)) else false)) else false)),
    (let type : Nat := 5; let s : State := { twin .none_ with twinLink := { linked.twinLink with rxLease := [leaseBody 9 0 0 ++ [0, 0]] } };
      let f : List Byte := leaseBody 6 0 0; let v := acceptLease f s;
      (if let p :: _ := v.twinLink.rxLease then (decide (1 ≤ type ∧ type ≤ 6 ∧ s.sys.phase = .running ∧ (leaseOf false p = none ∨
        ((((if let some m := leaseOf false p then decide (leaseGood m = false) else false)) = true))))) else false)),
    (let type : Nat := 5; let s : State := { up with sys.phase := .running }; let m : List Byte := leaseBody 5 0 0; let x : LeaseIn := wires m;
      decide (1 ≤ type ∧ type ≤ 6 ∧ s.sys.phase = .running) && isCarried s x m && leaseGood m && decide (leaseType m = type) && !(pairOn s)),
    (let type : Nat := 5; let s : State := { twin .none_ with twin := { (twin .none_).twin with epoch := 5 } };
      let m : List Byte := leaseBody 5 0 0; let x : LeaseIn := wires m;
      decide (1 ≤ type ∧ type ≤ 6 ∧ s.sys.phase = .running) && isCarried s x m && leaseGood m && decide (leaseType m = type) && pairOn s &&
        epochNewer s.twin.epoch (leaseEpoch m)),
    (let s : State := { twin .holder with twin := { (twin .holder).twin with linkAt := some 5 } }; let m : List Byte := leaseBody 1 1 0;
      let x : LeaseIn := wires m; let type : Nat := 1;
      isHeard s x type m),
    (let s : State := { twin .holder with twin := { (twin .holder).twin with linkAt := some 5 } }; let m : List Byte := leaseBody 2 0 0;
      let x : LeaseIn := wires m; let type : Nat := 2; let e : BitVec 16 := leaseEpoch m; let v := carried x s;
      let w : State := { v with twin := { v.twin with wireAt := if byWires x then some v.clock else v.twin.wireAt, linkAt := if byWires x then
                                                      v.twin.linkAt else some v.clock, peerFit := leaseFit m, revertAt := if leaseFit m &&
                                                      v.twin.lease != .none_ && v.sys.straps.unitId then
                                                      v.twin.revertAt.or (some v.clock) else none,
                                                      newest := some (match v.twin.newest with | some n => if epochNewer e n then e else n | none => e) } };
      isHeard s x type m && decide (w.twin.lease ≠ .none_) && !(epochNewer e w.twin.epoch) && decide (¬ (e = w.twin.epoch ∧
        w.sys.straps.unitId = true))),
    (let s : State := { twin .holder with twin := { (twin .holder).twin with linkAt := some 5 } }; let m : List Byte := (leaseBody 2 1 0);
      let x : LeaseIn := wires m; let type : Nat := 2; let e : BitVec 16 := leaseEpoch m; let v := carried x s;
      let w : State := { v with twin := { v.twin with wireAt := if byWires x then some v.clock else v.twin.wireAt, linkAt := if byWires x then
                                                      v.twin.linkAt else some v.clock, peerFit := leaseFit m, revertAt := if leaseFit m &&
                                                      v.twin.lease != .none_ && v.sys.straps.unitId then
                                                      v.twin.revertAt.or (some v.clock) else none,
                                                      newest := some (match v.twin.newest with | some n => if epochNewer e n then e else n | none => e) } };
      isHeard s x type m && decide (w.twin.lease = .none_ ∨ epochNewer e w.twin.epoch = true ∨ (e = w.twin.epoch ∧ w.sys.straps.unitId = true))),
    (let s : State := { (twin .holder) with twin.sentAt := [(5, 7)] }; let m : List Byte := (leaseBody 3 0 5); let x : LeaseIn := wires m;
      let type : Nat := 3; let e : BitVec 16 := leaseEpoch m; let v := carried x s;
      let w : State := { v with twin := { v.twin with wireAt := if byWires x then some v.clock else v.twin.wireAt, linkAt := if byWires x then
                                                      v.twin.linkAt else some v.clock, peerFit := leaseFit m, revertAt := if leaseFit m &&
                                                      v.twin.lease != .none_ && v.sys.straps.unitId then
                                                      v.twin.revertAt.or (some v.clock) else none,
                                                      newest := some (match v.twin.newest with | some n => if epochNewer e n then e else n | none => e) } };
      (if let some (_, _) := w.twin.sentAt.find? (fun r => r.1 == leaseSeq m) then (isHeard s x type m && decide (w.twin.lease ≠ .none_ ∧
        e = w.twin.epoch)) else false)),
    (let s : State := { twin .holder with twin := { (twin .holder).twin with linkAt := some 5 } }; let m : List Byte := leaseBody 3 0 0;
      let x : LeaseIn := wires m; let type : Nat := 3; let e : BitVec 16 := leaseEpoch m; let v := carried x s;
      let w : State := { v with twin := { v.twin with wireAt := if byWires x then some v.clock else v.twin.wireAt, linkAt := if byWires x then
                                                      v.twin.linkAt else some v.clock, peerFit := leaseFit m, revertAt := if leaseFit m &&
                                                      v.twin.lease != .none_ && v.sys.straps.unitId then
                                                      v.twin.revertAt.or (some v.clock) else none,
                                                      newest := some (match v.twin.newest with | some n => if epochNewer e n then e else n | none => e) } };
      isHeard s x type m && decide (w.twin.lease = .none_ ∨ e ≠ w.twin.epoch ∨ w.twin.sentAt.find? (fun r => r.1 == leaseSeq m) = none)),
    (let s : State := { twin .holder with twin := { (twin .holder).twin with linkAt := some 5 } }; let m : List Byte := leaseBody 4 0 0;
      let x : LeaseIn := wires m; let type : Nat := 4; let e : BitVec 16 := leaseEpoch m; let k : Nat × Nat := (e.toNat, leaseSeq m);
      let v := carried x s;
      let w : State := { v with twin := { v.twin with wireAt := if byWires x then some v.clock else v.twin.wireAt, linkAt := if byWires x then
                                                      v.twin.linkAt else some v.clock, peerFit := leaseFit m, revertAt := if leaseFit m &&
                                                      v.twin.lease != .none_ && v.sys.straps.unitId then
                                                      v.twin.revertAt.or (some v.clock) else none,
                                                      newest := some (match v.twin.newest with | some n => if epochNewer e n then e else n | none => e) } };
      isHeard s x type m && decide ((byWires x = true ∧ w.twin.linkAt ≠ none) ∨ k ∈ w.twin.acted)),
    (let s : State := { (twin .none_) with twin.hand := some { trigger := 0, step := .received }, twin.lease := .none_ };
      let m : List Byte := leaseBody 4 0 0; let x : LeaseIn := wires m; let type : Nat := 4; let e : BitVec 16 := leaseEpoch m;
      let k : Nat × Nat := (e.toNat, leaseSeq m); let v := carried x s;
      let w : State := { v with twin := { v.twin with wireAt := if byWires x then some v.clock else v.twin.wireAt, linkAt := if byWires x then
                                                      v.twin.linkAt else some v.clock, peerFit := leaseFit m, revertAt := if leaseFit m &&
                                                      v.twin.lease != .none_ && v.sys.straps.unitId then
                                                      v.twin.revertAt.or (some v.clock) else none,
                                                      newest := some (match v.twin.newest with | some n => if epochNewer e n then e else n | none => e) } };
      (if let some h := w.twin.hand then (isHeard s x type m && decide ((byWires x = false ∨ w.twin.linkAt = none) ∧ k ∉ w.twin.acted ∧
        h.step = .received ∧ w.twin.lease = .none_)) else false)),
    (let s : State := { twin .none_ with twin := { (twin .none_).twin with vValid := true, v := 101600000 } };
      let m : List Byte := leaseBody 4 0 0; let x : LeaseIn := wires m; let type : Nat := 4; let e : BitVec 16 := leaseEpoch m;
      let k : Nat × Nat := (e.toNat, leaseSeq m); let v := carried x s;
      let w : State := { v with twin := { v.twin with wireAt := if byWires x then some v.clock else v.twin.wireAt, linkAt := if byWires x then
                                                      v.twin.linkAt else some v.clock, peerFit := leaseFit m, revertAt := if leaseFit m &&
                                                      v.twin.lease != .none_ && v.sys.straps.unitId then
                                                      v.twin.revertAt.or (some v.clock) else none,
                                                      newest := some (match v.twin.newest with | some n => if epochNewer e n then e else n | none => e) } };
      isHeard s x type m && decide ((byWires x = false ∨ w.twin.linkAt = none) ∧ k ∉ w.twin.acted) && ((if let some h := w.twin.hand then
        decide (h.step = .received → w.twin.lease ≠ .none_) else true))),
    (let s : State := { twin .none_ with twin := { (twin .none_).twin with acted := [(0, 0)] } }; let m : List Byte := leaseBody 5 0 0;
      let x : LeaseIn := wires m; let type : Nat := 5; let e : BitVec 16 := leaseEpoch m; let k : Nat × Nat := (e.toNat, leaseSeq m);
      let v := carried x s;
      let w : State := { v with twin := { v.twin with wireAt := if byWires x then some v.clock else v.twin.wireAt, linkAt := if byWires x then
                                                      v.twin.linkAt else some v.clock, peerFit := leaseFit m, revertAt := if leaseFit m &&
                                                      v.twin.lease != .none_ && v.sys.straps.unitId then
                                                      v.twin.revertAt.or (some v.clock) else none,
                                                      newest := some (match v.twin.newest with | some n => if epochNewer e n then e else n | none => e) } };
      isHeard s x type m && decide (k ∈ w.twin.acted)),
    (let s : State := { twin .holder with twin := { (twin .holder).twin with linkAt := some 5 } }; let m : List Byte := leaseBody 5 0 0;
      let x : LeaseIn := wires m; let type : Nat := 5; let e : BitVec 16 := leaseEpoch m; let k : Nat × Nat := (e.toNat, leaseSeq m);
      let v := carried x s;
      let w : State := { v with twin := { v.twin with wireAt := if byWires x then some v.clock else v.twin.wireAt, linkAt := if byWires x then
                                                      v.twin.linkAt else some v.clock, peerFit := leaseFit m, revertAt := if leaseFit m &&
                                                      v.twin.lease != .none_ && v.sys.straps.unitId then
                                                      v.twin.revertAt.or (some v.clock) else none,
                                                      newest := some (match v.twin.newest with | some n => if epochNewer e n then e else n | none => e) } };
      isHeard s x type m && decide (k ∉ w.twin.acted ∧ w.twin.lease ≠ .none_)),
    (let s : State := { twin .none_ with twin := { (twin .none_).twin with vValid := true, v := 101600000 } };
      let m : List Byte := leaseBody 5 0 0; let x : LeaseIn := wires m; let type : Nat := 5; let e : BitVec 16 := leaseEpoch m;
      let k : Nat × Nat := (e.toNat, leaseSeq m); let v := carried x s;
      let w : State := { v with twin := { v.twin with wireAt := if byWires x then some v.clock else v.twin.wireAt, linkAt := if byWires x then
                                                      v.twin.linkAt else some v.clock, peerFit := leaseFit m, revertAt := if leaseFit m &&
                                                      v.twin.lease != .none_ && v.sys.straps.unitId then
                                                      v.twin.revertAt.or (some v.clock) else none,
                                                      newest := some (match v.twin.newest with | some n => if epochNewer e n then e else n | none => e) } };
      isHeard s x type m && decide (k ∉ w.twin.acted ∧ w.twin.lease = .none_)),
    (let s : State := { twin .none_ with twin := { (twin .none_).twin with acted := [(0, 0)] } }; let m : List Byte := leaseBody 6 0 0;
      let x : LeaseIn := wires m; let type : Nat := 6; let e : BitVec 16 := leaseEpoch m; let k : Nat × Nat := (e.toNat, leaseSeq m);
      let v := carried x s;
      let w : State := { v with twin := { v.twin with wireAt := if byWires x then some v.clock else v.twin.wireAt, linkAt := if byWires x then
                                                      v.twin.linkAt else some v.clock, peerFit := leaseFit m, revertAt := if leaseFit m &&
                                                      v.twin.lease != .none_ && v.sys.straps.unitId then
                                                      v.twin.revertAt.or (some v.clock) else none,
                                                      newest := some (match v.twin.newest with | some n => if epochNewer e n then e else n | none => e) } };
      isHeard s x type m && decide (k ∈ w.twin.acted)),
    (let s : State := { twin .holder with twin := { (twin .holder).twin with linkAt := some 5 } }; let m : List Byte := leaseBody 6 0 0;
      let x : LeaseIn := wires m; let type : Nat := 6; let e : BitVec 16 := leaseEpoch m; let k : Nat × Nat := (e.toNat, leaseSeq m);
      let v := carried x s;
      let w : State := { v with twin := { v.twin with wireAt := if byWires x then some v.clock else v.twin.wireAt, linkAt := if byWires x then
                                                      v.twin.linkAt else some v.clock, peerFit := leaseFit m, revertAt := if leaseFit m &&
                                                      v.twin.lease != .none_ && v.sys.straps.unitId then
                                                      v.twin.revertAt.or (some v.clock) else none,
                                                      newest := some (match v.twin.newest with | some n => if epochNewer e n then e else n | none => e) } };
      isHeard s x type m && decide (k ∉ w.twin.acted ∧ w.twin.lease ≠ .none_)),
    (let s : State := { twin .none_ with twin := { (twin .none_).twin with acted := [(0, 0)] } }; let m : List Byte := (leaseBody 6 2 3);
      let x : LeaseIn := wires m; let type : Nat := 6; let e : BitVec 16 := leaseEpoch m; let k : Nat × Nat := (e.toNat, leaseSeq m);
      let v := carried x s;
      let w : State := { v with twin := { v.twin with wireAt := if byWires x then some v.clock else v.twin.wireAt, linkAt := if byWires x then
                                                      v.twin.linkAt else some v.clock, peerFit := leaseFit m, revertAt := if leaseFit m &&
                                                      v.twin.lease != .none_ && v.sys.straps.unitId then
                                                      v.twin.revertAt.or (some v.clock) else none,
                                                      newest := some (match v.twin.newest with | some n => if epochNewer e n then e else n | none => e) } };
      isHeard s x type m && decide (k ∉ w.twin.acted ∧ w.twin.lease = .none_)) ] : List Bool).all id = true := by
  decide +kernel

/-- The hypotheses of each clause of O47 are met. -/
theorem test_LeaseExpiryAndTakeover : (
  [ (let s : State := { (twin .holder) with twin.lease := .holder };
      let due : Bool := decide (pairOn s = true ∧ s.twin.lease = .holder ∧ s.twin.e ≤ s.clock);
      decide (due)),
    (let s : State := { one with twin.linkAt := some 0, clock := 100000000 };
      let due : Bool := decide (pairOn s = true ∧ s.twin.lease = .holder ∧ s.twin.e ≤ s.clock);
      decide (¬ due)),
    (let s : State := { one with twin.linkAt := some 0, clock := 100000000 }; let wire : Bool := true;
      !(silent (if wire then s.twin.wireAt else s.twin.linkAt) s)),
    (let s : State := { (twin .none_) with twin.wireAt := some 0 };
      silent s.twin.wireAt s),
    (let s : State := { one with twin.linkAt := some 0, clock := 100000000 };
      silent s.twin.linkAt s && !(pairOn s)),
    (let s : State := { (twin .none_) with twin.linkAt := some 0 };
      silent s.twin.linkAt s && pairOn s),
    (let s : State := { up with twin.lease := .none_, twin.vValid := true };
      decide (s.twin.lease = .none_) && s.twin.vValid && decide (s.twin.v ≤ s.clock)),
    (let s : State := { one with twin.linkAt := some 0, clock := 100000000 };
      decide (s.twin.lease ≠ .none_ ∨ s.twin.vValid = false ∨ s.clock < s.twin.v)),
    (let s : State := { one with twin.linkAt := some 0, clock := 100000000 }; let b : Bool := true;
      decide (s.bar.peer ≠ b)),
    (let s : State := { one with twin.linkAt := some 0, clock := 100000000 }; let b : Bool := false;
      decide (s.bar.peer = b)),
    (let s : State := { follower with twin.fit := true, sys.mode := .follow, job.isOpen := false, cfg.live.twin := [⟨1, 0, 1⟩],
                                       twin.release := some (true, 0, 0) };
      releaseReady s && takeoverAuto s && s.twin.fit),
    (let s : State := { one with twin.linkAt := some 0, clock := 100000000 };
      decide (releaseReady s = false ∨ takeoverAuto s = false ∨ s.twin.fit = false)),
    (let s : State := { follower with twin.fitAtDown := true, sys.mode := .follow, job.isOpen := false, cfg.live.twin := [⟨1, 0, 1⟩],
                                       twin.release := some (false, 0, 0) };
      claimReady s && takeoverAuto s && s.twin.fitAtDown),
    (let s : State := { one with twin.linkAt := some 0, clock := 100000000 };
      decide (claimReady s = false ∨ takeoverAuto s = false ∨ s.twin.fitAtDown = false)),
    (let s := doing 0x1205 [] { one with twin.linkAt := some 0, clock := 100000000 }; let c := cmd 0x1205 [];
      isDoing s 0x1205 c && !(releaseReady s) && !(claimReady s)),
    (let s := doing 0x1205 [] { follower with twin.fit := true, sys.mode := .follow, job.isOpen := false, cfg.live.twin := [⟨1, 0, 1⟩],
                                               twin.release := some (true, 0, 0) };
      let c := cmd 0x1205 [];
      isDoing s 0x1205 c && decide (releaseReady s = true ∨ claimReady s = true)),
    (let s : State := { up with bar.contention := true, clock := 800000 };
      let due : Bool := decide (s.bar.contention = true ∧ peerLow 800000 0 s = true ∧ (pairOn s = false ∨ s.sys.straps.unitId = false));
      let older : Bool := decide (pairOn s = true ∧ s.twin.lease ≠ .none_) && (if let some e := s.twin.newest then epochNewer e s.twin.epoch else false);
      decide (due) && !older),
    (let s : State := { one with twin.linkAt := some 0, clock := 100000000 };
      let due : Bool := decide (s.bar.contention = true ∧ peerLow 800000 0 s = true ∧ (pairOn s = false ∨ s.sys.straps.unitId = false));
      decide (¬ due)),
    (let s : State := { twin .holder with twin := { (twin .holder).twin with newest := some 1 }, bar.contention := true };
      let due : Bool := decide (s.bar.contention = true ∧ peerLow 800000 0 s = true ∧ (pairOn s = false ∨ s.sys.straps.unitId = false));
      let older : Bool := decide (pairOn s = true ∧ s.twin.lease ≠ .none_) && (if let some e := s.twin.newest then epochNewer e s.twin.epoch else false);
      due && older),
    (let s : State := { twin .none_ with twin := { (twin .none_).twin with fit := true, release := some (true, 0, 0) }, cfg.live.twin := [⟨1, 0, 1⟩] };
      releaseReady s && takeoverAuto s && s.twin.fit && decide (s.sys.mode ≠ .follow)),
    (let s : State := { (twin .none_) with twin.linkAt := some 0, time.params := [⟨1, 0, 2⟩], sys.mode := .follow };
      silent s.twin.linkAt s && pairOn s && decide (discipline s = .twin)) ] : List Bool).all id = true := by
  decide +kernel

/-- The hypotheses of each clause of O48 are met. -/
theorem test_TwinCommandsAndTheCommitOfAPair : (
  [ (let pl : List Byte := [1]; let s := doing 0x1201 pl { up with sys.mode := .configure }; let c := cmd 0x1201 pl;
      isDoing s 0x1201 c && decide (listTarget c.payload 0 ≠ 0)),
    (let pl : List Byte := lst 0 [(99, 0, 1)]; let s := doing 0x1201 pl { up with sys.mode := .configure }; let c := cmd 0x1201 pl;
      (if let .error _ := judgeList twinSpecs noRelation s.cfg.staged.twin (listItems c.payload 0) then (isDoing s 0x1201 c &&
        decide (listTarget c.payload 0 = 0)) else false)),
    (let s := doing 0x1201 [] { up with sys.mode := .configure }; let c := cmd 0x1201 [];
      (if let .ok _ := judgeList twinSpecs noRelation s.cfg.staged.twin (listItems c.payload 0) then (isDoing s 0x1201 c &&
        decide (listTarget c.payload 0 = 0)) else false)),
    (let pl : List Byte := lst 0 [(99, 0, 1)];
      let s := doing 0x1203 pl { (twin .solo) with faults.recs := [{ inst := { level := .region, source := 4 }, latch := some .xcheckMismatch }] };
      let c := cmd 0x1203 pl;
      isDoing s 0x1203 c && pairOn s && decide (s.twin.lease ≠ .none_)),
    (let pl : List Byte := lst 0 [(99, 0, 1)];
      let s := doing 0x1203 pl (hearing (tmbMessage 0 0 (zeros 12)) { up with twin := { up.twin with tmbOut := [(0, 0xF001, [])] } });
      let c := cmd 0x1203 pl;
      isDoing s 0x1203 c && decide (pairOn s = false ∨ s.twin.lease = .none_)),
    (let pl : List Byte := pay [(0, 1, 2)];
      let s := doing 0x1204 pl (hearing (tmbMessage 0 0 (zeros 12)) { up with twin := { up.twin with tmbOut := [(0, 0xF001, [])] } });
      let c := cmd 0x1204 pl; let k : Nat := uAt c.payload 0 1;
      isDoing s 0x1204 c && decide (1 < k)),
    (let pl : List Byte := lst 0 [(99, 0, 1)];
      let s := doing 0x1204 pl (hearing (tmbMessage 0 0 (zeros 12)) { up with twin := { up.twin with tmbOut := [(0, 0xF001, [])] } });
      let c := cmd 0x1204 pl; let k : Nat := uAt c.payload 0 1;
      let legal : Bool := decide (pairOn s = true ∧ (s.twin.lease ≠ .none_ ∨ s.sys.mode = .safestop) ∧
        latchedAt s { level := .region, source := 4 } = some .xcheckMismatch);
      isDoing s 0x1204 c && decide (k ≤ 1 ∧ ¬ legal)),
    (let pl : List Byte := lst 0 [(99, 0, 1)];
      let s := doing 0x1204 pl { (twin .solo) with faults.recs := [{ inst := { level := .region, source := 4 }, latch := some .xcheckMismatch }] };
      let c := cmd 0x1204 pl; let k : Nat := uAt c.payload 0 1;
      let legal : Bool := decide (pairOn s = true ∧ (s.twin.lease ≠ .none_ ∨ s.sys.mode = .safestop) ∧
        latchedAt s { level := .region, source := 4 } = some .xcheckMismatch);
      isDoing s 0x1204 c && decide (k ≤ 1 ∧ legal)),
    (let pl : List Byte := lst 0 [(99, 0, 1)];
      let s := doing 0x1202 pl (hearing (tmbMessage 0 0 (zeros 12)) { up with twin := { up.twin with tmbOut := [(0, 0xF001, [])] } });
      let c := cmd 0x1202 pl;
      isDoing s 0x1202 c && decide (pairOn s = false ∨ (s.twin.lease = .none_ ∧ s.bar.peer = true))),
    (let pl : List Byte := lst 0 [(99, 0, 1)];
      let s := doing 0x1202 pl { (twin .solo) with faults.recs := [{ inst := { level := .region, source := 4 }, latch := some .xcheckMismatch }] };
      let c := cmd 0x1202 pl;
      isDoing s 0x1202 c && pairOn s && decide (s.twin.lease ≠ .none_ ∨ s.bar.peer = false)),
    (let op : Nat := 61441;
      let s : State := { pairing [] one with clock := 1000000, twin := { up.twin with takeAtCommit := true },
                                             cfg := { (pairing [] one).cfg with staged.twin := [] } };
      let f : List Byte := zeros 12;
      decide ((op = 0xF001 ∨ op = 0xF003 ∨ op = 0xF004) ∧ tmbIdle f s = true)),
    (let op : Nat := 61441; let s : State := hearing (tmbMessage 0xF001 1 []) up; let f : List Byte := zeros 12;
      (if let some (_, m, _) := tmbTaken f s then (decide ((op = 0xF001 ∨ op = 0xF003 ∨ op = 0xF004) ∧ tmbOp m = op)) else false)),
    (let op : Nat := 61443;
      let s : State := hearing (tmbMessage 0 0 (zeros 12)) { up with twin := { up.twin with tmbOut := [(0, 0xF001, [])] } };
      let f : List Byte := zeros 12;
      (if let some (_, m, _) := tmbTaken f s then (decide ((op = 0xF001 ∨ op = 0xF003 ∨ op = 0xF004) ∧ tmbOp m ≠ op ∧ op ≠ 0xF001)) else false)),
    (let s : State := hearing (tmbMessage 0 0 (zeros 12)) { up with twin := { up.twin with tmbOut := [(0, 0xF001, [])] } };
      let f : List Byte := zeros 12;
      (if let some (_, m, v) := tmbTaken f s then (answersTo 0xF001 v m) else false)),
    (let s : State := hearing (tmbMessage 0xF0FF 1 []) up; let f : List Byte := zeros 12;
      (if let some (_, m, _) := tmbTaken f s then (decide (0xF000 ≤ tmbOp m ∧ tmbOp m ∉ tmbKnown)) else false)),
    (let s : State := hearing (tmbMessage 0xF002 1 []) up; let f : List Byte := zeros 12;
      (if let some (_, m, v) := tmbTaken f s then (decide (tmbOp m ≠ 0xF001) && !(answersTo 0xF001 v m) && decide (tmbOp m < 0xF000 ∨
        tmbOp m ∈ tmbKnown)) else false)),
    (let p : List Byte := [];
      decide (p.length ≠ 12)),
    (let p : List Byte := zeros 12;
      decide (p.length = 12)),
    (let p : List Byte := zeros 12;
      decide (p.length ≠ 16 ∨ 15 < uAt p 0 4)),
    (let s : State := { pairing [] one with clock := 1000000, twin := { up.twin with takeAtCommit := true },
                                             cfg := { (pairing [] one).cfg with staged.twin := [] } };
      let p : List Byte := zeros 16;
      decide (p.length = 16 ∧ uAt p 0 4 ≤ 15 ∧ (pairOn s = false ∨ s.twin.lease = .none_ ∨ s.sys.profile ≠ .markhor ∨ s.sys.legacy = true))),
    (let s : State := { (twin .holder) with twinLink.linkUp := true, sys.profile := .markhor, sys.legacy := false };
      let p : List Byte := zeros 16;
      decide (p.length = 16 ∧ uAt p 0 4 ≤ 15) && pairOn s && decide (s.twin.lease ≠ .none_ ∧ s.sys.profile = .markhor) && !s.sys.legacy),
    (let p : List Byte := zeros 12;
      decide (p.length ≠ 4)),
    (let s : State := { pairing [] one with clock := 1000000, twin := { up.twin with takeAtCommit := true },
                                             cfg := { (pairing [] one).cfg with staged.twin := [] } };
      let p : List Byte := zeros 4;
      decide (p.length = 4) && !(pairOn s)),
    (let s : State := { pairing [] one with twin := { up.twin with paired := true, lease := .holder } }; let p : List Byte := zeros 4;
      decide (p.length = 4) && pairOn s),
    (let s : State := { (twin .solo) with twin.revertAt := some 0, sys.straps.unitId := true, twin.peerFit := true, clock := 8000000000 };
      let due : Bool := decide (((if let some t0 := s.twin.revertAt then decide (pairOn s = true ∧ s.twin.lease ≠ .none_ ∧
        s.sys.straps.unitId = true ∧ s.twin.peerFit = true ∧ revertHold s ≠ 0 ∧ t0 + 800000000 * revertHold s ≤ s.clock) else false)) = true);
      decide (due)),
    (let s : State := { pairing [] one with clock := 1000000, twin := { up.twin with takeAtCommit := true },
                                             cfg := { (pairing [] one).cfg with staged.twin := [] } };
      let due : Bool := decide (((if let some t0 := s.twin.revertAt then decide (pairOn s = true ∧ s.twin.lease ≠ .none_ ∧
        s.sys.straps.unitId = true ∧ s.twin.peerFit = true ∧ revertHold s ≠ 0 ∧ t0 + 800000000 * revertHold s ≤ s.clock) else false)) = true);
      decide (¬ due)),
    (let s : State := pairing [] one;
      decide (commitUnderWay s = none ∨ s.twin.takeAtCommit = false ∨ peerHolds s = true ∨ peerLow 800000 0 s = false)),
    (let s : State := { pairing [] up with twin := { up.twin with linkAt := some 0, tmbOut := [(0, 0xF001, [])] } };
      (if let some _ := commitUnderWay s then (pairStaged s && inContact s && decide (s.twin.peerInfo = none) && requestOut 0xF001 s) else false)),
    (let s : State := pairing [[⟨1, 0, 1⟩]] up; let row : Instr := .modeTransitionEnd;
      (if let some _ := commitUnderWay s then ((if let some (_, _) := commitItemA s (asCommitted s) then (Memory.wf s.mbx.area && !s.sys.resetPending &&
        decide ((row = .modeTransitionEnd ∧ pairStaged s = true ∧ (inContact s = false ∨ s.twin.peerInfo ≠ none ∨ requestOut 0xF001 s = false)) ∨
        (row = .leaseTakeAtCommit ∧ s.twin.takeAtCommit = true ∧ peerHolds s = false ∧ peerLow 800000 0 s = true))) else false)) else false)),
    (let s : State := pairing stitched one; let row : Instr := .modeTransitionEnd;
      (if let (.error _, _) := readPatterns (asCommitted s) ((portsOn (asCommitted s)).filter (usesPattern (asCommitted s))) s then
        ((if let some _ := commitUnderWay s then (Memory.wf s.mbx.area && !s.sys.resetPending && decide (((row = .modeTransitionEnd ∧ pairStaged s = true ∧
        (inContact s = false ∨ s.twin.peerInfo ≠ none ∨ requestOut 0xF001 s = false)) ∨ (row = .leaseTakeAtCommit ∧ s.twin.takeAtCommit = true ∧
        peerHolds s = false ∧ peerLow 800000 0 s = true)) ∧ commitItemA s (asCommitted s) = none)) else false)) else false)),
    (let s : State := pairing [[⟨1, 0, 1⟩]] one; let row : Instr := .modeTransitionEnd;
      (if let (.ok _, v) := readPatterns (asCommitted s) ((portsOn (asCommitted s)).filter (usesPattern (asCommitted s))) s then
        ((if let some _ := commitUnderWay s then ((if let some (_, _) := commitItemB v (asCommitted s) then (Memory.wf s.mbx.area && !s.sys.resetPending &&
        decide (((row = .modeTransitionEnd ∧ pairStaged s = true ∧ (inContact s = false ∨ s.twin.peerInfo ≠ none ∨ requestOut 0xF001 s = false)) ∨
        (row = .leaseTakeAtCommit ∧ s.twin.takeAtCommit = true ∧ peerHolds s = false ∧ peerLow 800000 0 s = true)) ∧
        commitItemA s (asCommitted s) = none)) else false)) else false)) else false)),
    (let s : State := { pairing [] one with clock := 1000000, twin := { up.twin with takeAtCommit := true },
                                             cfg := { (pairing [] one).cfg with staged.twin := [] } };
      let row : Instr := .leaseTakeAtCommit;
      (if let (.ok _, v) := readPatterns (asCommitted s) ((portsOn (asCommitted s)).filter (usesPattern (asCommitted s))) s then
        ((if let some _ := commitUnderWay s then (Memory.wf s.mbx.area && !s.sys.resetPending && decide (((row = .modeTransitionEnd ∧ pairStaged s = true ∧
        (inContact s = false ∨ s.twin.peerInfo ≠ none ∨ requestOut 0xF001 s = false)) ∨ (row = .leaseTakeAtCommit ∧ s.twin.takeAtCommit = true ∧
        peerHolds s = false ∧ peerLow 800000 0 s = true)) ∧ commitItemA s (asCommitted s) = none ∧ commitItemB v (asCommitted s) = none) &&
        !(pairStaged s)) else false)) else false)),
    (let s : State := { pairing [] one with twin := { up.twin with linkAt := some 0, peerInfo := some (zeros 12) } };
      let row : Instr := .modeTransitionEnd;
      (if let (.ok _, v) := readPatterns (asCommitted s) ((portsOn (asCommitted s)).filter (usesPattern (asCommitted s))) s then
        ((if let some _ := commitUnderWay s then (Memory.wf s.mbx.area && !s.sys.resetPending && decide (((row = .modeTransitionEnd ∧ pairStaged s = true ∧
        (inContact s = false ∨ s.twin.peerInfo ≠ none ∨ requestOut 0xF001 s = false)) ∨ (row = .leaseTakeAtCommit ∧ s.twin.takeAtCommit = true ∧
        peerHolds s = false ∧ peerLow 800000 0 s = true)) ∧ commitItemA s (asCommitted s) = none ∧ commitItemB v (asCommitted s) = none) &&
        pairStaged s && inContact s && pairMismatch v) else false)) else false)),
    (let s : State := { pairing [] one with twin := { up.twin with linkAt := some 0, heardRenew := true } };
      let row : Instr := .modeTransitionEnd;
      (if let (.ok _, v) := readPatterns (asCommitted s) ((portsOn (asCommitted s)).filter (usesPattern (asCommitted s))) s then
        ((if let some _ := commitUnderWay s then (Memory.wf s.mbx.area && !s.sys.resetPending && decide (((row = .modeTransitionEnd ∧ pairStaged s = true ∧
        (inContact s = false ∨ s.twin.peerInfo ≠ none ∨ requestOut 0xF001 s = false)) ∨ (row = .leaseTakeAtCommit ∧ s.twin.takeAtCommit = true ∧
        peerHolds s = false ∧ peerLow 800000 0 s = true)) ∧ commitItemA s (asCommitted s) = none ∧ commitItemB v (asCommitted s) = none) &&
        pairStaged s && decide (inContact s = false ∨ pairMismatch v = false) && peerHolds s) else false)) else false)),
    (let s : State := { pairing [] one with twin := { up.twin with paired := true, lease := .holder } }; let row : Instr := .modeTransitionEnd;
      (if let (.ok _, v) := readPatterns (asCommitted s) ((portsOn (asCommitted s)).filter (usesPattern (asCommitted s))) s then
        ((if let some _ := commitUnderWay s then (Memory.wf s.mbx.area && !s.sys.resetPending && decide (((row = .modeTransitionEnd ∧ pairStaged s = true ∧
        (inContact s = false ∨ s.twin.peerInfo ≠ none ∨ requestOut 0xF001 s = false)) ∨ (row = .leaseTakeAtCommit ∧ s.twin.takeAtCommit = true ∧
        peerHolds s = false ∧ peerLow 800000 0 s = true)) ∧ commitItemA s (asCommitted s) = none ∧ commitItemB v (asCommitted s) = none) &&
        pairStaged s && decide (inContact s = false ∨ pairMismatch v = false) && !(peerHolds s) && pairOn s &&
        decide (s.twin.lease ≠ .none_)) else false)) else false)),
    (let s : State := { pairing [] one with sys := { (pairing [] one).sys with straps.unitId := true } }; let row : Instr := .modeTransitionEnd;
      (if let (.ok _, v) := readPatterns (asCommitted s) ((portsOn (asCommitted s)).filter (usesPattern (asCommitted s))) s then
        ((if let some _ := commitUnderWay s then (Memory.wf s.mbx.area && !s.sys.resetPending && decide (((row = .modeTransitionEnd ∧ pairStaged s = true ∧
        (inContact s = false ∨ s.twin.peerInfo ≠ none ∨ requestOut 0xF001 s = false)) ∨ (row = .leaseTakeAtCommit ∧ s.twin.takeAtCommit = true ∧
        peerHolds s = false ∧ peerLow 800000 0 s = true)) ∧ commitItemA s (asCommitted s) = none ∧ commitItemB v (asCommitted s) = none) &&
        pairStaged s && decide (inContact s = false ∨ pairMismatch v = false) && !(peerHolds s) && decide (pairOn s = false ∨
        s.twin.lease = .none_) && s.sys.straps.unitId) else false)) else false)),
    (let s : State := { pairing [] one with clock := 1000000, twin := { up.twin with takeAtCommit := true } };
      (if let (.ok _, v) := readPatterns (asCommitted s) ((portsOn (asCommitted s)).filter (usesPattern (asCommitted s))) s then
        ((if let some _ := commitUnderWay s then (let row : Instr := .leaseTakeAtCommit; Memory.wf s.mbx.area && !s.sys.resetPending && decide (((row = .modeTransitionEnd ∧
        pairStaged s = true ∧ (inContact s = false ∨ s.twin.peerInfo ≠ none ∨ requestOut 0xF001 s = false)) ∨ (row = .leaseTakeAtCommit ∧
        s.twin.takeAtCommit = true ∧ peerHolds s = false ∧ peerLow 800000 0 s = true)) ∧ commitItemA s (asCommitted s) = none ∧
        commitItemB v (asCommitted s) = none) && pairStaged s && decide (inContact s = false ∨ pairMismatch v = false) && !(peerHolds s) &&
        decide (pairOn s = false ∨ s.twin.lease = .none_) && !s.sys.straps.unitId) else false)) else false)),
    (let s : State := pairing [] one;
      (if let (.ok _, v) := readPatterns (asCommitted s) ((portsOn (asCommitted s)).filter (usesPattern (asCommitted s))) s then
        ((if let some _ := commitUnderWay s then (let row : Instr := .modeTransitionEnd; Memory.wf s.mbx.area && !s.sys.resetPending && decide (((row = .modeTransitionEnd ∧
        pairStaged s = true ∧ (inContact s = false ∨ s.twin.peerInfo ≠ none ∨ requestOut 0xF001 s = false)) ∨ (row = .leaseTakeAtCommit ∧
        s.twin.takeAtCommit = true ∧ peerHolds s = false ∧ peerLow 800000 0 s = true)) ∧ commitItemA s (asCommitted s) = none ∧
        commitItemB v (asCommitted s) = none) && pairStaged s && decide (inContact s = false ∨ pairMismatch v = false) && !(peerHolds s) &&
        decide (pairOn s = false ∨ s.twin.lease = .none_) && !s.sys.straps.unitId) else false)) else false)) ] : List Bool).all id = true := by
  decide +kernel

/-- The hypotheses of each clause of O49 are met. -/
theorem test_HandoversGiveTheBar : (
  [ (let s : State := { follower with twin := { follower.twin with peer := peerOf (zeros 64), vValid := true } };
      let due : Nat → Bool := dueAt s;
      ((if let some tr := dueTrigger s then !due tr else true))),
    (let s : State := handing .holder .due; let tr : Nat := 2; let due : Nat → Bool := dueAt s;
      decide (due tr ∧ handoverFails tr true s ≠ 0)),
    (let s : State := { handing .holder .due with twin := { (handing .holder .due).twin with peerFit := true } }; let tr : Nat := 2;
      let due : Nat → Bool := dueAt s;
      decide (due tr ∧ handoverFails tr true s = 0)),
    (let s : State := { follower with twin := { follower.twin with peer := peerOf (zeros 64), vValid := true } };
      let f : List Byte := zeros 136;
      tmbIdle f s),
    (let s : State := answered 1 (handing .holder .offered); let f : List Byte := zeros 136;
      (if let some (_, m, _) := tmbTaken f s then (decide (tmbOp m ≠ 0xF002)) else false)),
    (let s : State := hearing (tmbMessage 0xF002 1 []) up; let f : List Byte := zeros 136;
      (if let some (_, m, _) := tmbTaken f s then (decide (tmbOp m = 0xF002)) else false)),
    (let s : State := { follower with twin := { follower.twin with peer := peerOf (zeros 64), vValid := true } }; let p : List Byte := [];
      let k : Nat := 0; let q : Snap := snapOf p; let r : PeerState := peerOf q.record;
      let bad : List (Reply × Bool) := [({ status := .badArg }, decide (decide (snapGood p = false))), ({ status := .badState },
        decide (mirrors s = false ∨ s.sys.resetPending = true)), ({ status := .badState, detail := 1 }, decide (decide (r.job ≠ s.twin.peer.job))),
        ({ status := .badState, detail := 2 }, decide (decide (r.pacLine ≠ s.twin.peer.pacLine))), ({ status := .badState, detail := 3 },
        decide (decide (r.swathFirst ≠ s.twin.peer.swathFirst))), ({ status := .badState, detail := 4 }, decide (decide (q.epoch ≠ s.twin.epoch)))];
      (if let some (_, e) := bad[k]? then (e && decide (∀ j < k, (((if let some y := bad[j]? then decide (¬ y.2) else true)) = true))) else false)),
    (let s : State := { follower with twin := { follower.twin with peer := peerOf (zeros 64), vValid := true } };
      let p : List Byte := zeros 136; let q : Snap := snapOf p; let r : PeerState := peerOf q.record;
      let bad : List (Reply × Bool) := [({ status := .badArg }, decide (decide (snapGood p = false))), ({ status := .badState },
        decide (mirrors s = false ∨ s.sys.resetPending = true)), ({ status := .badState, detail := 1 }, decide (decide (r.job ≠ s.twin.peer.job))),
        ({ status := .badState, detail := 2 }, decide (decide (r.pacLine ≠ s.twin.peer.pacLine))), ({ status := .badState, detail := 3 },
        decide (decide (r.swathFirst ≠ s.twin.peer.swathFirst))), ({ status := .badState, detail := 4 }, decide (decide (q.epoch ≠ s.twin.epoch)))];
      decide (∀ y ∈ bad, ¬ y.2)),
    (let s : State := hearing (tmbMessage 0xF002 1 []) up; let f : List Byte := zeros 136;
      (if let some (_, m, v) := tmbTaken f s then (!(answersTo 0xF002 v m)) else false)),
    (let s : State := answered 0 up; let f : List Byte := zeros 136;
      (if let some (_, m, v) := tmbTaken f s then
        (let w := { v with twin := { v.twin with tmbOut := v.twin.tmbOut.filter fun e => e.1 != tmbSeqOf m } }; answersTo 0xF002 v m &&
        decide (((((if let some h := w.twin.hand then decide (h.step ≠ .offered) else true)) = true)) ∨ pairOn w = false ∨
        w.twin.lease = .none_)) else false)),
    (let s : State := answered 0 (handing .holder .offered); let f : List Byte := zeros 136;
      (if let some (_, m, v) := tmbTaken f s then
        (let w := { v with twin := { v.twin with tmbOut := v.twin.tmbOut.filter fun e => e.1 != tmbSeqOf m } }; (if let some h := w.twin.hand then
        (answersTo 0xF002 v m && decide (h.step = .offered) && pairOn w && decide (w.twin.lease ≠ .none_ ∧
        tmbOp m = Status.ok.code ∧ mayPass w = true)) else false)) else false)),
    (let s : State := answered 1 (handing .holder .offered); let f : List Byte := zeros 136;
      (if let some (_, m, v) := tmbTaken f s then
        (let w := { v with twin := { v.twin with tmbOut := v.twin.tmbOut.filter fun e => e.1 != tmbSeqOf m } }; (if let some h := w.twin.hand then
        (answersTo 0xF002 v m && decide (h.step = .offered) && pairOn w && decide (w.twin.lease ≠ .none_ ∧
        tmbOp m ≠ Status.ok.code)) else false)) else false)),
    (let s : State := { follower with twin := { follower.twin with peer := peerOf (zeros 64), vValid := true } };
      ((if let some h := s.twin.hand then decide (s.clock < h.at_ + 800000 ∨ (h.step ≠ .offered ∧ h.step ≠ .received)) else true))),
    (let s : State := answered 1 (handing .holder .offered);
      (if let some h := s.twin.hand then (decide (h.at_ + 800000 ≤ s.clock ∧ h.step = .offered)) else false)),
    (let s : State := { handing .none_ .received with sys.mode := .safestop };
      (if let some h := s.twin.hand then (decide (h.at_ + 800000 ≤ s.clock ∧ h.step = .received ∧ (s.twin.vValid = false ∨ s.sys.mode ∉ [.idle, .print,
        .hold] ∨ pairOn s = false ∨ s.twin.lease ≠ .none_ ∨ s.sys.resetPending = true))) else false)),
    (let s : State := handing .none_ .received;
      (if let some h := s.twin.hand then (decide (h.at_ + 800000 ≤ s.clock ∧ h.step = .received) && s.twin.vValid && decide (s.sys.mode ∈ [.idle, .print,
        .hold]) && pairOn s && decide (s.twin.lease = .none_ ∧ s.sys.resetPending = false)) else false)),
    (let s : State := { follower with twin := { follower.twin with peer := peerOf (zeros 64), vValid := true } };
      let due : Handover → Bool := dueTake s;
      ((if let some h := s.twin.hand then !due h else true))),
    (let s : State := { handing .none_ .passed with clock := 100000000 }; let h : Handover := { trigger := 2, step := .passed };
      let due : Handover → Bool := dueTake s;
      decide (due h)),
    (let s : State := answered 0 { handing .holder .offered with sys.mode := .maintain }; let f : List Byte := zeros 136;
      (if let some (_, m, v) := tmbTaken f s then
        (let w := { v with twin := { v.twin with tmbOut := v.twin.tmbOut.filter fun e => e.1 != tmbSeqOf m } }; (if let some h := w.twin.hand then
        (answersTo 0xF002 v m && decide (h.step = .offered) && pairOn w && decide (w.twin.lease ≠ .none_ ∧ mayPass w = false)) else false)) else false)) ] : List Bool).all id = true := by
  decide +kernel

/-- The hypotheses of each clause of O50 are met. -/
theorem test_TheStandbyMirrorsTheActive : (
  [ (let s : State := { up with time.tb := 50000 }; let f : List Byte := []; let e : PrepErr := .none_; let k : Nat := 4;
      let i : Instr := .stateRecord [];
      decide ((k, i) ∈ [(1, Instr.lineRecord f e), (2, Instr.swapRecord f), (3, Instr.sliceRecord f), (4, Instr.stateRecord f), (5,
        Instr.axisRecord f)]) && (acceptMirror f s).twinLink.rxMirror.head?.all fun b => decide (uAt b 0 1 ≠ k)),
    (let s : State := { mirrored (4 :: zeros 63) with sys.mode := .idle }; let f : List Byte := []; let e : PrepErr := .none_; let k : Nat := 4;
      let i : Instr := .stateRecord [];
      (if let b :: _ := (acceptMirror f s).twinLink.rxMirror then (decide ((k, i) ∈ [(1, Instr.lineRecord f e), (2, Instr.swapRecord f), (3,
        Instr.sliceRecord f), (4, Instr.stateRecord f), (5, Instr.axisRecord f)] ∧ uAt b 0 1 = k) && !(mirrors (acceptMirror f s))) else false)),
    (let s : State := mirrored (5 :: zeros 31); let f : List Byte := (5 :: zeros 31);
      (if let b :: _ := (acceptMirror f s).twinLink.rxMirror then (mirrors (acceptMirror f s) && decide (uAt b 0 1 = 5)) else false)),
    (let s : State := mirrored (4 :: zeros 63); let f : List Byte := (5 :: zeros 31);
      (if let b :: _ := (acceptMirror f s).twinLink.rxMirror then (mirrors (acceptMirror f s) && decide (uAt b 0 1 = 4)) else false)),
    (let s : State := { mirrored (3 :: zeros 15) with codec := { one.codec with posted := [slice0] } }; let f : List Byte := (5 :: zeros 31);
      (if let b :: bs := (acceptMirror f s).twinLink.rxMirror then
        (let v : State := { acceptMirror f s with twinLink := { (acceptMirror f s).twinLink with rxMirror := bs } }; mirrors (acceptMirror f s) &&
        decide (uAt b 0 1 = 3 ∧ (∃ q ∈ v.codec.posted, q.no = uAt b 4 4 ∧ q.first = uAt b 8 4 ∧ q.hdrCv = uAt b 12 4))) else false)),
    (let s : State := mirrored (3 :: zeros 15); let f : List Byte := (5 :: zeros 31);
      (if let b :: bs := (acceptMirror f s).twinLink.rxMirror then
        (let v : State := { acceptMirror f s with twinLink := { (acceptMirror f s).twinLink with rxMirror := bs } }; mirrors (acceptMirror f s) &&
        decide (uAt b 0 1 = 3 ∧ (∀ q ∈ v.codec.posted, ¬ (q.no = uAt b 4 4 ∧ q.first = uAt b 8 4 ∧ q.hdrCv = uAt b 12 4)))) else false)),
    (let s : State := mirrored (1 :: zeros 15); let f : List Byte := (5 :: zeros 31); let p : Fin 16 := 0;
      (if let b :: bs := (acceptMirror f s).twinLink.rxMirror then
        (let v : State := { acceptMirror f s with twinLink := { (acceptMirror f s).twinLink with rxMirror := bs } }; mirrors (acceptMirror f s) &&
        decide (uAt b 0 1 = 1 ∧ uAt b 1 1 % 16 = p.val) && !v.swath.active) else false)),
    (let s : State := { mirrored (1 :: zeros 15) with swath.active := true }; let f : List Byte := (5 :: zeros 31); let p : Fin 16 := 0;
      (if let b :: bs := (acceptMirror f s).twinLink.rxMirror then
        (let v : State := { acceptMirror f s with twinLink := { (acceptMirror f s).twinLink with rxMirror := bs } }; mirrors (acceptMirror f s) &&
        decide (uAt b 0 1 = 1 ∧ uAt b 1 1 % 16 = p.val) && v.swath.active) else false)),
    (let s : State := mirrored (2 :: zeros 15); let f : List Byte := (5 :: zeros 31); let p : Fin 16 := 0;
      (if let b :: _ := (acceptMirror f s).twinLink.rxMirror then (let fl : Nat := uAt b 1 1; mirrors (acceptMirror f s) && decide (uAt b 0 1 = 2 ∧
        fl % 16 = p.val)) else false)),
    (let s : State := { up with time.tb := 50000 };
      decide (2 ≤ s.time.tb.toNat % 100000)),
    (let s : State := mirrored (5 :: zeros 31);
      decide (s.time.tb.toNat % 100000 < 2 ∧ s.sys.mode = .follow)),
    (let s : State := (twin .holder);
      decide (s.time.tb.toNat % 100000 < 2 ∧ s.sys.mode ≠ .follow) && isActive s),
    (let s : State := { mirrored (4 :: zeros 63) with sys.mode := .idle };
      decide (s.time.tb.toNat % 100000 < 2 ∧ s.sys.mode ≠ .follow) && !(isActive s)),
    (let s : State := { mirrored ([2, 0x20, 0, 0, 1] ++ zeros 11) with swath := { one.swath with active := true, grey := one.swath.grey.set 0 { shadow := .ready, built := some ⟨[], [], 0⟩ } } }; let f : List Byte := (5 :: zeros 31); let p : Fin 16 := 0;
      (if let b :: bs := (acceptMirror f s).twinLink.rxMirror then
        (let v : State := { acceptMirror f s with twinLink := { (acceptMirror f s).twinLink with rxMirror := bs } };
        let fl : Nat := uAt b 1 1; let cv : Nat := uAt b 8 4; let first : Nat := uAt b 4 4; let later : Bool := decide (v.swath.active = true ∧ v.swath.line[p].prep < first);
        mirrors (acceptMirror f s) && decide (uAt b 0 1 = 2 ∧ fl % 16 = p.val ∧ bitOf fl 5 = true ∧ v.swath.grey[p].shadow = .ready ∧ v.swath.grey[p].built.map (·.cv) = some cv ∧ later)) else false)),
    (let s : State := { mirrored ([2, 0x20, 0, 0, 0] ++ zeros 11) with swath := { one.swath with grey := one.swath.grey.set 0 { shadow := .ready, built := some ⟨[], [], 0⟩ } } }; let f : List Byte := (5 :: zeros 31); let p : Fin 16 := 0;
      (if let b :: bs := (acceptMirror f s).twinLink.rxMirror then
        (let v : State := { acceptMirror f s with twinLink := { (acceptMirror f s).twinLink with rxMirror := bs } };
        let fl : Nat := uAt b 1 1; let cv : Nat := uAt b 8 4; let first : Nat := uAt b 4 4; let later : Bool := decide (v.swath.active = true ∧ v.swath.line[p].prep < first);
        mirrors (acceptMirror f s) && decide (uAt b 0 1 = 2 ∧ fl % 16 = p.val ∧ bitOf fl 5 = true ∧ v.swath.grey[p].shadow = .ready ∧ v.swath.grey[p].built.map (·.cv) = some cv ∧ ¬ later)) else false)),
    (let s : State := { mirrored ([2, 0x40, 0, 0, 1] ++ zeros 11) with wave := one.wave.set 0 { shadow := .ready, banks := Vector.replicate 2 (some bank0) }, swath.active := true }; let f : List Byte := (5 :: zeros 31); let p : Fin 16 := 0;
      (if let b :: bs := (acceptMirror f s).twinLink.rxMirror then
        (let v : State := { acceptMirror f s with twinLink := { (acceptMirror f s).twinLink with rxMirror := bs } };
        let fl : Nat := uAt b 1 1; let cv : Nat := uAt b 8 4; let first : Nat := uAt b 4 4; let later : Bool := decide (v.swath.active = true ∧ v.swath.line[p].prep < first);
        mirrors (acceptMirror f s) && decide (uAt b 0 1 = 2 ∧ fl % 16 = p.val ∧ bitOf fl 6 = true ∧ v.wave[p].shadow = .ready ∧ (shadowBank v.wave[p]).map (·.cv) = some cv ∧ later)) else false)),
    (let s : State := { mirrored ([2, 0x40, 0, 0, 0] ++ zeros 11) with wave := one.wave.set 0 { shadow := .ready, banks := Vector.replicate 2 (some bank0) } }; let f : List Byte := (5 :: zeros 31); let p : Fin 16 := 0;
      (if let b :: bs := (acceptMirror f s).twinLink.rxMirror then
        (let v : State := { acceptMirror f s with twinLink := { (acceptMirror f s).twinLink with rxMirror := bs } };
        let fl : Nat := uAt b 1 1; let cv : Nat := uAt b 8 4; let first : Nat := uAt b 4 4; let later : Bool := decide (v.swath.active = true ∧ v.swath.line[p].prep < first);
        mirrors (acceptMirror f s) && decide (uAt b 0 1 = 2 ∧ fl % 16 = p.val ∧ bitOf fl 6 = true ∧ v.wave[p].shadow = .ready ∧ (shadowBank v.wave[p]).map (·.cv) = some cv ∧ ¬ later)) else false)),
    (let s : State := mirrored ([2, 0x60] ++ zeros 14); let f : List Byte := (5 :: zeros 31); let p : Fin 16 := 0;
      (if let b :: bs := (acceptMirror f s).twinLink.rxMirror then
        (let v : State := { acceptMirror f s with twinLink := { (acceptMirror f s).twinLink with rxMirror := bs } };
        let fl : Nat := uAt b 1 1;
        mirrors (acceptMirror f s) && decide (uAt b 0 1 = 2 ∧ fl % 16 = p.val ∧ ¬ (v.swath.grey[p].shadow = .ready) ∧ ¬ (v.wave[p].shadow = .ready))) else false)),
    (let s : State := { mirrored ([4, 2] ++ zeros 62) with twin.swaps := [(false, 0, 5, false)] }; let f : List Byte := (5 :: zeros 31);
      (if let b :: bs := (acceptMirror f s).twinLink.rxMirror then
        (let v : State := { acceptMirror f s with twinLink := { (acceptMirror f s).twinLink with rxMirror := bs } }; mirrors (acceptMirror f s) &&
        decide (uAt b 0 1 = 4 ∧ (peerOf b).swathActive = true ∧ v.twin.peer.swathActive = false ∧ v.swath.active = false ∧ v.twin.swaps ≠ [])) else false)) ] : List Bool).all id = true := by
  decide +kernel

/-- The hypotheses of each clause of O51 are met. -/
theorem test_TheTimebaseAndSchedulerCommands : (
  [ (let pl : List Byte := [1]; let s := doing 0x1301 pl up; let c := cmd 0x1301 pl;
      isDoing s 0x1301 c && decide (listTarget c.payload 0 ≠ 0)),
    (let pl : List Byte := [0, 0, 1]; let s := doing 0x1301 pl up; let c := cmd 0x1301 pl;
      (if let .error _ := judgeList timeSpecs timeRelation s.time.params (listItems c.payload 0) then (isDoing s 0x1301 c &&
        decide (listTarget c.payload 0 = 0)) else false)),
    (let pl : List Byte := [0, 0, 1, 0, 0, 0, 0, 0, 1, 0, 0, 0, 1]; let s := doing 0x1301 pl up; let c := cmd 0x1301 pl;
      (if let .ok m := judgeList timeSpecs timeRelation s.time.params (listItems c.payload 0) then (isDoing s 0x1301 c &&
        decide (listTarget c.payload 0 = 0) && pon m 1 0 false) else false)),
    (let s := doing 0x1301 [] up; let c := cmd 0x1301 [];
      (if let .ok m := judgeList timeSpecs timeRelation s.time.params (listItems c.payload 0) then (isDoing s 0x1301 c &&
        decide (listTarget c.payload 0 = 0) && !(pon m 1 0 false)) else false)),
    (let pl : List Byte := [1]; let s := doing 0x1302 pl { up with sys.mode := .print }; let c := cmd 0x1302 pl;
      isDoing s 0x1302 c && decide (hostSteers s = false ∨ stepAllowed s = false)),
    (let pl : List Byte := [1]; let s := doing 0x1302 pl up; let c := cmd 0x1302 pl;
      isDoing s 0x1302 c && hostSteers s && stepAllowed s),
    (let s : State := up;
      (List.range 64).all fun i => decide ((nthOr s.time.slots i {}).armed = false ∧ (nthOr s.time.slots i {}).due = none)),
    (let pl : List Byte := [3]; let s := doing 0x1303 pl up; let c := cmd 0x1303 pl;
      isDoing s 0x1303 c && decide (3 ≤ uAt c.payload 0 1)),
    (let pl : List Byte := [0, 0, 1]; let s := doing 0x1303 pl { up with sys.mode := .print }; let c := cmd 0x1303 pl;
      isDoing s 0x1303 c && decide (uAt c.payload 0 1 = 0 ∧ (hostSteers s = false ∨ stepAllowed s = false))),
    (let pl : List Byte := [0, 0, 1]; let s := doing 0x1303 pl up; let c := cmd 0x1303 pl;
      isDoing s 0x1303 c && decide (uAt c.payload 0 1 = 0) && hostSteers s && stepAllowed s),
    (let pl : List Byte := [1, 0, 0, 0, 0, 0, 0, 0, 1, 202, 154, 59]; let s := doing 0x1303 pl up; let c := cmd 0x1303 pl;
      let v : Int := iAt c.payload 8 8;
      isDoing s 0x1303 c && decide (0 < uAt c.payload 0 1 ∧ uAt c.payload 0 1 < 3 ∧ 1000000000 < v.natAbs)),
    (let pl : List Byte := [1]; let s := doing 0x1303 pl { (twin .none_) with twin.linkAt := some 0 }; let c := cmd 0x1303 pl;
      let v : Int := iAt c.payload 8 8;
      isDoing s 0x1303 c && decide (v.natAbs ≤ 1000000000 ∧ 0 < uAt c.payload 0 1 ∧ uAt c.payload 0 1 < 3) && !(hostSteers s)),
    (let pl : List Byte := [1]; let s := doing 0x1303 pl up; let c := cmd 0x1303 pl; let v : Int := iAt c.payload 8 8;
      isDoing s 0x1303 c && decide (v.natAbs ≤ 1000000000) && hostSteers s && decide (uAt c.payload 0 1 = 1)),
    (let pl : List Byte := [2, 0, 0, 0, 0, 0, 0, 0, 0, 202, 154, 59]; let s := doing 0x1303 pl up; let c := cmd 0x1303 pl;
      let v : Int := iAt c.payload 8 8;
      isDoing s 0x1303 c && decide (v.natAbs ≤ 1000000000) && hostSteers s && decide (uAt c.payload 0 1 = 2)),
    (let pl : List Byte := [1]; let s := doing 0x1304 pl up; let c := cmd 0x1304 pl;
      (if let some _ := schedRange c.payload s then (isDoing s 0x1304 c) else false)),
    (let pl : List Byte := [0, 4]; let s := doing 0x1304 pl { up with sys.mode := .follow }; let c := cmd 0x1304 pl;
      let x : Slot := slotOf c.payload;
      isDoing s 0x1304 c && decide (schedRange c.payload s = none ∧ s.sys.mode = .follow) && firesOrJob x.kind),
    (let pl : List Byte := [0, 4];
      let s := doing 0x1304 pl { up with time.slots := up.time.slots.set 0 { up.time.slots[0] with armed := true } }; let c := cmd 0x1304 pl;
      let x : Slot := slotOf c.payload;
      isDoing s 0x1304 c && decide (schedRange c.payload s = none ∧ (s.sys.mode = .follow → firesOrJob x.kind = false) ∧ uAt c.payload 0 1 ≠ 255) &&
        (nthOr s.time.slots (uAt c.payload 0 1) {}).armed),
    (let pl : List Byte := [255, 2]; let s := doing 0x1304 pl { up with time.slots := Vector.replicate 64 { armed := true } };
      let c := cmd 0x1304 pl; let x : Slot := slotOf c.payload;
      isDoing s 0x1304 c && decide (schedRange c.payload s = none ∧ (s.sys.mode = .follow → firesOrJob x.kind = false) ∧ uAt c.payload 0 1 = 255) &&
        (List.range 64).all fun i => decide ((nthOr s.time.slots i {}).armed = true)),
    (let pl : List Byte := [0, 4]; let i : Nat := 0; let s := doing 0x1304 pl up; let c := cmd 0x1304 pl; let x : Slot := slotOf c.payload;
      let d : Int := tbDiff x.t s.time.tb.toNat;
      isDoing s 0x1304 c && decide (schedRange c.payload s = none ∧ (s.sys.mode = .follow → firesOrJob x.kind = false) ∧ i < 64 ∧
        (nthOr s.time.slots i {}).armed = false ∧ (uAt c.payload 0 1 = i ∨ uAt c.payload 0 1 = 255 ∧ ∀ j < i,
        (nthOr s.time.slots j {}).armed = true) ∧ d = 0)),
    (let pl : List Byte := [63, 1, 0, 0, 0, 0, 0, 0, 0, 0, 0, 0, 0, 0, 0, 0, 5]; let i : Nat := 63;
      let s := doing 0x1304 pl { up with time.tb := 5 }; let c := cmd 0x1304 pl; let x : Slot := slotOf c.payload;
      let d : Int := tbDiff x.t s.time.tb.toNat;
      isDoing s 0x1304 c && decide (schedRange c.payload s = none ∧ (s.sys.mode = .follow → firesOrJob x.kind = false) ∧ i < 64 ∧
        (nthOr s.time.slots i {}).armed = false ∧ (uAt c.payload 0 1 = i ∨ uAt c.payload 0 1 = 255 ∧ ∀ j < i,
        (nthOr s.time.slots j {}).armed = true) ∧ d < 0 ∧ -d ≤ x.lateWin)),
    (let pl : List Byte := [0, 4]; let i : Nat := 0; let s := doing 0x1304 pl { up with time.tb := 5 }; let c := cmd 0x1304 pl;
      let x : Slot := slotOf c.payload; let d : Int := tbDiff x.t s.time.tb.toNat;
      isDoing s 0x1304 c && decide (schedRange c.payload s = none ∧ (s.sys.mode = .follow → firesOrJob x.kind = false) ∧ i < 64 ∧
        (nthOr s.time.slots i {}).armed = false ∧ (uAt c.payload 0 1 = i ∨ uAt c.payload 0 1 = 255 ∧ ∀ j < i,
        (nthOr s.time.slots j {}).armed = true) ∧ x.lateWin < -d)),
    (let pl : List Byte := [255, 2]; let s := doing 0x1305 pl up; let c := cmd 0x1305 pl; let i : Nat := uAt c.payload 0 1;
      isDoing s 0x1305 c && decide (63 < i)),
    (let pl : List Byte := [1]; let s := doing 0x1305 pl up; let c := cmd 0x1305 pl; let i : Nat := uAt c.payload 0 1;
      isDoing s 0x1305 c && decide (i ≤ 63 ∧ (nthOr s.time.slots i {}).armed = false)),
    (let pl : List Byte := [1]; let s := doing 0x1305 pl { up with time.slots := Vector.replicate 64 { armed := true } };
      let c := cmd 0x1305 pl; let i : Nat := uAt c.payload 0 1;
      isDoing s 0x1305 c && decide (i ≤ 63) && (nthOr s.time.slots i {}).armed),
    (let pl : List Byte := [255, 2]; let s := doing 0x1306 pl up; let c := cmd 0x1306 pl; let i : Nat := uAt c.payload 0 1;
      isDoing s 0x1306 c && decide (63 < i)),
    (let pl : List Byte := [1]; let s := doing 0x1306 pl up; let c := cmd 0x1306 pl; let i : Nat := uAt c.payload 0 1;
      let n : Nat := uAt c.payload 1 1;
      isDoing s 0x1306 c && decide (i ≤ 63 ∧ (n = 0 ∨ 16 < n ∨ 64 < i + n))),
    (let pl : List Byte := [0, 4]; let s := doing 0x1306 pl up; let c := cmd 0x1306 pl; let i : Nat := uAt c.payload 0 1;
      let n : Nat := uAt c.payload 1 1;
      isDoing s 0x1306 c && decide (1 ≤ n ∧ n ≤ 16 ∧ i + n ≤ 64)),
    (let pl : List Byte := [0, 4, 0, 0, 0, 0, 0, 0, 5]; let i : Nat := 0; let s := doing 0x1304 pl up; let c := cmd 0x1304 pl;
      let x : Slot := slotOf c.payload; let d : Int := tbDiff x.t s.time.tb.toNat;
      isDoing s 0x1304 c && decide (schedRange c.payload s = none ∧ s.sys.mode ≠ .follow ∧ (nthOr s.time.slots i {}).armed = false ∧
        uAt c.payload 0 1 = i ∧ 0 < d)) ] : List Bool).all id = true := by
  decide +kernel

/-- The hypotheses of each clause of O52 are met. -/
theorem test_OccurrencesRunAndPulsesEnd : (
  [ (let s : State := { up with time.slots := up.time.slots.set 0 { up.time.slots[0] with kind := 1, armed := true, due := some 0 }, clock := 5 }; let j : Nat := 0;
      (if let some i := dueSlot s then (decide (j < 64) && slotDue s (nthOr s.time.slots j {}) && decide ((nthOr s.time.slots j {}).kind < 4 ∧
        (nthOr s.time.slots i {}).due.getD 0 = (nthOr s.time.slots j {}).due.getD 0)) else false)),
    (let s : State := { up with time.slots := up.time.slots.set 63 { armed := true, kind := 6, due := some 0 }, clock := 5 };
      (if let some i := dueSlot s then (decide (4 ≤ (nthOr s.time.slots i {}).kind)) else false)),
    (let s : State := hearing (tmbMessage 0xF011 1 (zeros 12 ++ leBytes 8 100000 ++
        zeros 12)) { follower with twin := { follower.twin with linkAt := some 0 }, time := { follower.time with pingOut := true } };
      decide (dueSlot s = none)),
    (let s : State := hearing (tmbMessage 0xF011 1 (zeros 12 ++ leBytes 8 100000 ++
        zeros 12)) { follower with twin := { follower.twin with linkAt := some 0 }, time := { follower.time with pingOut := true } };
      let k : Nat := 4; let op : Nat := 770;
      (if let some st := turnedAway op s then (decide ((k, op) ∈ [(4, 0x0302), (5, 0x0303), (6, 0x0304)])) else false)),
    (let s : State := hearing (tmbMessage 0xF011 1 (zeros 32)) up; let k : Nat := 4; let op : Nat := 770;
      decide ((k, op) ∈ [(4, 0x0302), (5, 0x0303), (6, 0x0304)] ∧ turnedAway op s = none)),
    (let s : State := { up with time.slots := up.time.slots.set 0 { up.time.slots[0] with kind := 1, armed := true, due := some 0 }, clock := 5 };
      (if let some i := dueSlot s then (let x : Slot := nthOr s.time.slots i {}; decide (x.kind = 1)) else false)),
    (let s : State := { up with time.slots := up.time.slots.set 0 { up.time.slots[0] with kind := 2, armed := true, due := some 0 }, clock := 5 };
      (if let some i := dueSlot s then (let x : Slot := nthOr s.time.slots i {}; decide (x.kind = 2)) else false)),
    (let s : State := { up with sys.mode := .maintain, pace.source := .sched,
                                 time.slots := up.time.slots.set 0 { up.time.slots[0] with kind := 3, armed := true, due := some 0 }, clock := 5 };
      (if let some i := dueSlot s then (let x : Slot := nthOr s.time.slots i {}; decide (x.kind = 3 ∧ s.sys.mode = .maintain ∧
        s.pace.source = .sched)) else false)),
    (let s : State := { up with time.slots := up.time.slots.set 0 { up.time.slots[0] with kind := 3, armed := true, due := some 0 }, clock := 5 };
      (if let some i := dueSlot s then (let x : Slot := nthOr s.time.slots i {}; decide (x.kind = 3 ∧ (s.sys.mode ≠ .maintain ∨
        s.pace.source ≠ .sched))) else false)),
    (let s : State := { up with time.slots := up.time.slots.set 63 { armed := true, kind := 6, due := some 0 }, clock := 5 };
      (if let some i := dueSlot s then (let x : Slot := nthOr s.time.slots i {}; decide (4 ≤ x.kind)) else false)),
    (let s : State := { up with time.slots := up.time.slots.set 63 { armed := true, kind := 6, due := some 0 }, clock := 5 }; let i : Nat := 63;
      let x : Slot := nthOr s.time.slots i {};
      decide (i < 64 ∧ (x.period = 0 ∨ x.left = some 1)) && x.armed),
    (let s : State := { up with time.slots := up.time.slots.set 0 { up.time.slots[0] with period := 1, left := none } }; let i : Nat := 0;
      let x : Slot := nthOr s.time.slots i {};
      decide (i < 64 ∧ x.period ≠ 0 ∧ x.left = none)),
    (let s : State := { up with time.slots := up.time.slots.set 0 { up.time.slots[0] with period := 1, left := some (0 + 2) } };
      let i : Nat := 0; let x : Slot := nthOr s.time.slots i {};
      (if let some (_ + 2) := x.left then (decide (i < 64 ∧ x.period ≠ 0)) else false)),
    (let s : State := { up with time.pulseEnd := up.time.pulseEnd.set 0 (some 0) }; let n : Fin 4 := 0;
      (if let some t := s.time.pulseEnd[n] then (decide (t ≤ s.clock)) else false)),
    (let s : State := hearing (tmbMessage 0xF011 1 (zeros 12 ++ leBytes 8 100000 ++
        zeros 12)) { follower with twin := { follower.twin with linkAt := some 0 }, time := { follower.time with pingOut := true } };
      let n : Fin 4 := 0;
      ((if let some t := s.time.pulseEnd[n] then decide (s.clock < t) else true))),
    (let s : State := { up with time.params := [⟨12, 0, 1⟩], time.tb := 1 };
      pon s.time.params 12 0 false && outputsDriven s && !(isStopped s 0x63) && decide (s.time.tb.toNat % 1000000000 < 2)),
    (let s : State := hearing (tmbMessage 0xF011 1 (zeros 12 ++ leBytes 8 100000 ++
        zeros 12)) { follower with twin := { follower.twin with linkAt := some 0 }, time := { follower.time with pingOut := true } };
      decide (pon s.time.params 12 0 false = false ∨ outputsDriven s = false ∨ isStopped s 0x63 = true ∨ 2 ≤ s.time.tb.toNat % 1000000000)),
    (let s : State := { up with time.pps := true, clock := 80000000 };
      s.time.pps && decide (s.time.ppsAt + 80000000 ≤ s.clock)),
    (let s : State := hearing (tmbMessage 0xF011 1 (zeros 12 ++ leBytes 8 100000 ++
        zeros 12)) { follower with twin := { follower.twin with linkAt := some 0 }, time := { follower.time with pingOut := true } };
      decide (s.time.pps = false ∨ s.clock < s.time.ppsAt + 80000000)),
    (let s : State := { up with time.slewing := true, time.slew := 0 };
      s.time.slewing && decide (s.time.slew = 0)),
    (let s : State := hearing (tmbMessage 0xF011 1 (zeros 12 ++ leBytes 8 100000 ++
        zeros 12)) { follower with twin := { follower.twin with linkAt := some 0 }, time := { follower.time with pingOut := true } };
      decide (s.time.slewing = false ∨ s.time.slew ≠ 0)),
    (let s : State := hearing (tmbMessage 0xF011 1 (zeros 32)) up;
      decide (discipline s ≠ .twin ∨ s.twinLink.linkUp = false)),
    (let s : State := hearing (tmbMessage 0xF011 1 (zeros 12 ++ leBytes 8 100000 ++
        zeros 12)) { follower with twin := { follower.twin with linkAt := some 0 }, time := { follower.time with pingOut := true } };
      decide (discipline s = .twin) && s.twinLink.linkUp),
    (let s : State := { up with time.slots := up.time.slots.set 63 { armed := true, kind := 6, due := some 0 }, clock := 5 };
      let f : List Byte := (leBytes 2 0xF010 ++ zeros 26);
      tmbIdle f s),
    (let s : State := hearing (tmbMessage 0xF011 1 (zeros 12 ++ leBytes 8 100000 ++
        zeros 12)) { follower with twin := { follower.twin with linkAt := some 0 }, time := { follower.time with pingOut := true } };
      let f : List Byte := (leBytes 2 0xF010 ++ zeros 26);
      (if let some (_, m, _) := tmbTaken f s then (decide (tmbOp m ≠ 0xF010)) else false)),
    (let s : State := hearing (tmbMessage 0xF010 1 (zeros 12)) up; let f : List Byte := (leBytes 2 0xF010 ++ zeros 26);
      (if let some (_, m, v) := tmbTaken f s then (decide (tmbOp m = 0xF010 ∧ (isActive v = false ∨ m.length ≠ 28))) else false)),
    (let s : State := hearing (tmbMessage 0xF010 1 (zeros 12)) (twin .holder); let f : List Byte := (leBytes 2 0xF010 ++ zeros 26);
      (if let some (_, m, v) := tmbTaken f s then (decide (tmbOp m = 0xF010) && isActive v && decide (m.length = 28)) else false)),
    (let s : State := hearing (tmbMessage 0xF010 1 (zeros 12)) (twin .holder); let f : List Byte := (leBytes 2 0xF010 ++ zeros 26);
      (if let some (_, m, _) := tmbTaken f s then (decide (tmbOp m ≠ 0xF011)) else false)),
    (let s : State := hearing (tmbMessage 0xF011 1 (zeros 32)) up; let f : List Byte := (leBytes 2 0xF010 ++ zeros 26);
      (if let some (_, m, v) := tmbTaken f s then (decide (tmbOp m = 0xF011 ∧ (discipline v ≠ .twin ∨ m.length ≠ 48 ∨ v.time.pingOut = false ∨
        uAt m 16 4 ≠ v.time.pingSeq))) else false)),
    (let s : State := hearing (tmbMessage 0xF011 1 (zeros 32)) { follower with twin := { follower.twin with linkAt := some 0 },
                                                                                time := { follower.time with pingOut := true } };
      let f : List Byte := (leBytes 2 0xF010 ++ zeros 26);
      (if let some (t4, m, v) := tmbTaken f s then (let d : Int := echoTheta m t4; decide (tmbOp m = 0xF011 ∧ discipline v = .twin ∧ m.length = 48) &&
        v.time.pingOut && decide (uAt m 16 4 = v.time.pingSeq ∧ d.natAbs ≤ 1000)) else false)),
    (let s : State := hearing (tmbMessage 0xF011 1 (zeros 12 ++ leBytes 8 100000 ++
        zeros 12)) { follower with twin := { follower.twin with linkAt := some 0 }, time := { follower.time with pingOut := true } };
      let f : List Byte := (leBytes 2 0xF010 ++ zeros 26);
      (if let some (t4, m, v) := tmbTaken f s then (let d : Int := echoTheta m t4; decide (tmbOp m = 0xF011 ∧ discipline v = .twin ∧ m.length = 48) &&
        v.time.pingOut && decide (uAt m 16 4 = v.time.pingSeq ∧ 1000 < d.natAbs)) else false)),
    (let s : State := { up with sys := { up.sys with resetN := false } };
      !(outputsDriven s)),
    (let s : State := up;
      outputsDriven s) ] : List Bool).all id = true := by
  decide +kernel

/-- The hypotheses of each clause of O53 are met. -/
theorem test_ThePtpSlaveFollowsItsMaster : (
  [ (let s : State := slave [(0, ptpMsg 9 65537 7 0 0 (zeros 20))] { master := some 65537, t3 := some 0, dreqSeq := 7 };
      decide (takeMessage 0xB s = none)),
    (let s : State := slave [(0, ptpMsg 9 65537 7 0 0 (zeros 20))] { master := some 65537, t3 := some 0, dreqSeq := 7 };
      decide (takeMessage 8 s = none)),
    (let s : State := { slave [] { master := some 1, back := some 0, state := .acquiring, syncs := 3 } with sys.mode := .print };
      decide (takeMessage 9 s = none)),
    (let s : State := slave [(0, ptpMsg 9 65537 7 0 0 (zeros 20))] { master := some 65537, t3 := some 0, dreqSeq := 7 };
      let j : Int := 20000000000;
      decide (takeMessage 0 s = none ∨ 60 < j.natAbs)),
    (let s : State := (slave [(0, (announce 1 255))] {});
      (if let some ((_, m), u) := takeMessage 0xB s then (decide (ptpPort m / 65536 = clockId u ∨ 255 ≤ beAt m 61 2)) else false)),
    (let s : State := (slave [(0, (announce 65537 254))] {});
      (if let some ((_, m), u) := takeMessage 0xB s then (let f : Foreign := announcedBy u m;
        let v := setPtp (fun q => { q with foreign := f :: q.foreign.filter fun x => x.port ≠ f.port, announceAt := if q.master = some f.port then
                                           u.clock else q.announceAt }) u; decide (ptpPort m / 65536 ≠ clockId u ∧ beAt m 61 2 < 255 ∧
        bestMaster v = none)) else false)),
    (let s : State := (slave [(0, (announce 65537 0))] { foreign := [{ port := 65537, dataset := 0, steps := 0, seen := [0, 0], interval := 0 }],
                                                          master := some 65537 });
      (if let some ((_, m), u) := takeMessage 0xB s then (let f : Foreign := announcedBy u m;
        let v := setPtp (fun q => { q with foreign := f :: q.foreign.filter fun x => x.port ≠ f.port, announceAt := if q.master = some f.port then
                                           u.clock else q.announceAt }) u; (if let some b := bestMaster v then
        (decide (ptpPort m / 65536 ≠ clockId u ∧ beAt m 61 2 < 255 ∧ v.time.ptp.master = some b.port)) else false)) else false)),
    (let s : State := (slave [(0, (announce 65537 0))] { foreign := [{ port := 65537, dataset := 0, steps := 0, seen := [0, 0], interval := 0 }] });
      (if let some ((_, m), u) := takeMessage 0xB s then (let f : Foreign := announcedBy u m;
        let v := setPtp (fun q => { q with foreign := f :: q.foreign.filter fun x => x.port ≠ f.port, announceAt := if q.master = some f.port then
                                           u.clock else q.announceAt }) u; (if let some _ := bestMaster v then
        (decide (ptpPort m / 65536 ≠ clockId u ∧ beAt m 61 2 < 255 ∧ v.time.ptp.master = none)) else false)) else false)),
    (let s : State := (slave [(0, (announce 65537 0))] { foreign := [{ port := 65537, dataset := 0, steps := 0, seen := [0, 0], interval := 0 }],
                                                          master := some 131073 });
      (if let some ((_, m), u) := takeMessage 0xB s then (let f : Foreign := announcedBy u m;
        let v := setPtp (fun q => { q with foreign := f :: q.foreign.filter fun x => x.port ≠ f.port, announceAt := if q.master = some f.port then
                                           u.clock else q.announceAt }) u; (if let some b := bestMaster v then ((if let some k := v.time.ptp.master then
        (decide (ptpPort m / 65536 ≠ clockId u ∧ beAt m 61 2 < 255 ∧ b.port ≠ k)) else false)) else false)) else false)),
    (let s : State := slave [(0, [0])] {};
      decide (s.time.ptp.master = none)),
    (let s : State := { slave [] { foreign := [{ port := 65537, dataset := 0, steps := 0, seen := [0, 0], interval := 0 }],
                                    master := some 65537 } with clock := 2400000000 };
      (if let some k := s.time.ptp.master then (let iv : Int := ((s.time.ptp.foreign.find? (fun f => f.port = k)).map (·.interval)).getD 1;
        decide (s.time.ptp.announceAt + pnat s.time.params 7 0 3 * secondsTicks iv ≤ s.clock)) else false)),
    (let s : State := slave [(0, ptpMsg 9 65537 7 0 0 (zeros 20))] { master := some 65537, t3 := some 0, dreqSeq := 7 };
      (if let some k := s.time.ptp.master then (let iv : Int := ((s.time.ptp.foreign.find? (fun f => f.port = k)).map (·.interval)).getD 1;
        decide (s.clock < s.time.ptp.announceAt + pnat s.time.params 7 0 3 * secondsTicks iv)) else false)),
    (let s : State := slave [(0, ptpMsg 9 65537 7 0 0 (zeros 20))] { master := some 65537, t3 := some 0, dreqSeq := 7 };
      (if let some _ := s.time.ptp.master then (decide (discipline s = .ptp)) else false)),
    (let s : State := { up with time.ptp.master := some 1 };
      (if let some _ := s.time.ptp.master then (decide (discipline s ≠ .ptp)) else false)),
    (let s : State := slave [(0, [0])] {}; let j : Int := 60;
      (if let some ((_, m), u) := takeMessage 0 s then (decide (j.natAbs ≤ 60 ∧ (u.time.ptp.master ≠ some (ptpPort m) ∨ ptpLog m < -7 ∨
        1 < ptpLog m))) else false)),
    (let s : State := (slave [(0, (ptpMsg 0 65537 0 2 1 []))] { master := some 65537 }); let j : Int := 60;
      (if let some ((_, m), u) := takeMessage 0 s then (decide (j.natAbs ≤ 60 ∧ u.time.ptp.master = some (ptpPort m) ∧ -7 ≤ ptpLog m ∧
        ptpLog m ≤ 1) && bitOf (uAt m 6 1) 1) else false)),
    (let s : State := (slave [(0, (ptpMsg 0 65537 0 0 249 []))] { master := some 65537 }); let j : Int := 60;
      (if let some ((_, m), u) := takeMessage 0 s then (decide (j.natAbs ≤ 60 ∧ u.time.ptp.master = some (ptpPort m) ∧ -7 ≤ ptpLog m ∧
        ptpLog m ≤ 1) && !(bitOf (uAt m 6 1) 1)) else false)),
    (let s : State := slave [(0, ptpMsg 8 65537 7 0 0 [])] { master := some 65537 };
      (if let some ((_, _), u) := takeMessage 8 s then (decide (u.time.ptp.awaiting = none)) else false)),
    (let s : State := slave [(0, ptpMsg 8 65537 7 0 0 [])] { master := some 65537, awaiting := some { seq := 8, t2 := 0 } };
      (if let some ((_, m), u) := takeMessage 8 s then ((if let some w := u.time.ptp.awaiting then (decide (u.time.ptp.master ≠ some (ptpPort m) ∨
        w.seq ≠ ptpSeq m)) else false)) else false)),
    (let s : State := (slave [(0, (ptpMsg 8 65537 7 0 0 []))] { master := some 65537, awaiting := some { seq := 7, t2 := 0 } });
      (if let some ((_, m), u) := takeMessage 8 s then ((if let some w := u.time.ptp.awaiting then (decide (u.time.ptp.master = some (ptpPort m) ∧
        w.seq = ptpSeq m)) else false)) else false)),
    (let s : State := slave [(0, ptpMsg 9 65537 7 0 0 (zeros 20))] { master := some 65537, t3 := some 0, dreqSeq := 7 };
      decide (s.time.ptp.back = none)),
    (let s : State := { up with time.ptp.back := some 0 };
      (if let some _ := s.time.ptp.back then (decide (discipline s ≠ .ptp)) else false)),
    (let s : State := { slave [] { master := some 1, back := some 0, state := .acquiring, syncs := 3 } with sys.mode := .print };
      let d : Int := 60;
      (if let some b := s.time.ptp.back then (let θ : Int := (d - b) / 2; let far : Bool := decide (s.time.ptp.state = .acquiring ∧
        3 ≤ s.time.ptp.syncs ∧ stepT s * 65536 < θ.natAbs); decide (discipline s = .ptp ∧ ¬ far)) else false)),
    (let s : State := slave [] { master := some 1, back := some 0, state := .acquiring, syncs := 3 }; let d : Int := 20000000000;
      (if let some b := s.time.ptp.back then (let θ : Int := (d - b) / 2; let far : Bool := decide (s.time.ptp.state = .acquiring ∧
        3 ≤ s.time.ptp.syncs ∧ stepT s * 65536 < θ.natAbs); decide (discipline s = .ptp ∧ far ∧ s.time.slewOnly = false) && stepAllowed s) else false)),
    (let s : State := { slave [] { master := some 1, back := some 0, state := .acquiring, syncs := 3 } with sys.mode := .print };
      let d : Int := 20000000000;
      (if let some b := s.time.ptp.back then (let θ : Int := (d - b) / 2; let far : Bool := decide (s.time.ptp.state = .acquiring ∧
        3 ≤ s.time.ptp.syncs ∧ stepT s * 65536 < θ.natAbs); decide (discipline s = .ptp ∧ far) && !(stepAllowed s)) else false)),
    (let s : State := { slave [] { master := some 1, back := some 0, state := .acquiring, syncs := 3 } with sys.mode := .print };
      let d : Int := 20000000000;
      (if let some b := s.time.ptp.back then (let θ : Int := (d - b) / 2; let far : Bool := decide (s.time.ptp.state = .acquiring ∧
        3 ≤ s.time.ptp.syncs ∧ stepT s * 65536 < θ.natAbs); decide (discipline s ≠ .ptp ∨ ¬ far ∨ stepAllowed s = false ∨
        (((List.range 64).all fun i => decide ((nthOr s.time.slots i {}).armed = false ∧ (nthOr s.time.slots i {}).due = none)) = true))) else false)),
    (let s : State := slave [] { master := some 1, state := .acquiring, good := 15 }; let d : Int := 60;
      (if let some _ := s.time.ptp.master then (decide (s.time.ptp.state = .acquiring ∧ d.natAbs ≤ lockT s * 65536 ∧
        15 ≤ s.time.ptp.good)) else false)),
    (let s : State := { slave [] { master := some 1, back := some 0, state := .acquiring, syncs := 3 } with sys.mode := .print };
      (if let some _ := s.time.ptp.master then (decide (s.time.ptp.state = .acquiring ∧ s.time.ptp.good < 15)) else false)),
    (let s : State := { slave [] { master := some 1, back := some 0, state := .acquiring, syncs := 3 } with sys.mode := .print };
      let d : Int := 20000000000;
      (if let some _ := s.time.ptp.master then (decide (s.time.ptp.state = .acquiring ∧ lockT s * 65536 < d.natAbs)) else false)),
    (let s : State := slave [] { master := some 1, state := .locked, bad := 3 }; let d : Int := 20000000000;
      (if let some _ := s.time.ptp.master then (decide (s.time.ptp.state = .locked ∧ 4 * (lockT s * 65536) < d.natAbs ∧
        3 ≤ s.time.ptp.bad)) else false)),
    (let s : State := slave [] { master := some 1, back := some 0, state := .locked }; let d : Int := 20000000000;
      (if let some _ := s.time.ptp.master then (decide (s.time.ptp.state = .locked ∧ (d.natAbs ≤ 4 * (lockT s * 65536) ∨
        s.time.ptp.bad < 3))) else false)),
    (let s : State := slave [(0, ptpMsg 9 65537 7 0 0 (zeros 20))] { master := some 65537 };
      (if let some ((_, _), u) := takeMessage 9 s then (decide (u.time.ptp.t3 = none)) else false)),
    (let s : State := slave [(0, ptpMsg 9 65537 7 0 0 (zeros 20))] { master := some 65537, t3 := some 0, dreqSeq := 7 };
      (if let some ((_, m), u) := takeMessage 9 s then ((if let some _ := u.time.ptp.t3 then (decide (u.time.ptp.master ≠ some (ptpPort m) ∨
        beAt m 44 10 ≠ clockId u * 65536 + 1 ∨ ptpSeq m ≠ u.time.ptp.dreqSeq)) else false)) else false)),
    (let s : State := (slave [(0, (ptpMsg 9 65537 7 0 0 (zeros 10 ++
        (leBytes 10 (clockId up * 65536 + 1)).reverse)))] { master := some 65537, t3 := some 0, dreqSeq := 7 });
      (if let some ((_, m), u) := takeMessage 9 s then ((if let some _ := u.time.ptp.t3 then (decide (u.time.ptp.master = some (ptpPort m) ∧
        beAt m 44 10 = clockId u * 65536 + 1 ∧ ptpSeq m = u.time.ptp.dreqSeq)) else false)) else false)),
    (let s : State := slave [(0, [0])] {};
      decide (ethRuns s = false ∨ timeSourcePtp s = false ∨ s.time.ptp.master = none ∨ s.eth.link = false ∨ s.clock < s.time.ptp.dreqNext ∨
        2 ≤ (s.eth.queue.filter (·.own)).length)),
    (let s : State := slave [(0, ptpMsg 9 65537 7 0 0 (zeros 20))] { master := some 65537, t3 := some 0, dreqSeq := 7 };
      (if let some _ := s.time.ptp.master then (ethRuns s && timeSourcePtp s && s.eth.link && decide (s.time.ptp.dreqNext ≤ s.clock ∧
        (s.eth.queue.filter (·.own)).length < 2)) else false)),
    (let s : State := { slave [] { master := some 1, back := some 0, state := .acquiring, syncs := 3 } with time := { (slave [] { master := some 1, back := some 0, state := .acquiring, syncs := 3 }).time with slewOnly := true } }; let d : Int := 20000000000;
      (if let some b := s.time.ptp.back then (let θ : Int := (d - b) / 2; let far : Bool := decide (s.time.ptp.state = .acquiring ∧
        3 ≤ s.time.ptp.syncs ∧ stepT s * 65536 < θ.natAbs); decide (discipline s = .ptp ∧ far) && stepAllowed s && s.time.slewOnly) else false)) ] : List Bool).all id = true := by
  decide +kernel

/-- The hypotheses of each clause of O54 are met. -/
theorem test_TheEthernetPortSendsAndReceives : (
  [ (let pl : List Byte := [2]; let s := doing 0x1401 pl { one with eth := { link := true }, time.tb := 1000 }; let c := cmd 0x1401 pl;
      isDoing s 0x1401 c && decide (listTarget c.payload 0 ≠ 0)),
    (let pl : List Byte := pay [(8, 2, 60)];
      let s := doing 0x1401 pl { up with eth.link := true, eth.params := [⟨7, 0, 0⟩], eth.rxWrite := 64 }; let c := cmd 0x1401 pl;
      (if let .error _ := judgeList ethSpecs (ethRelation s) s.eth.params (listItems c.payload 0) then (isDoing s 0x1401 c &&
        decide (listTarget c.payload 0 = 0)) else false)),
    (let pl : List Byte := pay [(8, 2, 60)]; let s := doing 0x1401 pl { one with eth := { link := true }, time.tb := 1000 };
      let c := cmd 0x1401 pl;
      (if let .ok m := judgeList ethSpecs (ethRelation s) s.eth.params (listItems c.payload 0) then (isDoing s 0x1401 c &&
        decide (listTarget c.payload 0 = 0 ∧ pfind m 7 0 = pfind s.eth.params 7 0 ∧ rxSlots m = rxSlots s.eth.params)) else false)),
    (let pl : List Byte := [0, 0, 1, 0, 0, 0, 0, 0, 7, 0, 0, 0, 0, 16];
      let s := doing 0x1401 pl { one with eth := { link := true }, time.tb := 1000 }; let c := cmd 0x1401 pl;
      (if let .ok m := judgeList ethSpecs (ethRelation s) s.eth.params (listItems c.payload 0) then (isDoing s 0x1401 c &&
        decide (listTarget c.payload 0 = 0 ∧ (pfind m 7 0 ≠ pfind s.eth.params 7 0 ∨ rxSlots m ≠ rxSlots s.eth.params))) else false)),
    (let pl : List Byte := [2]; let s := doing 0x1402 pl { one with eth := { link := true }, time.tb := 1000 }; let c := cmd 0x1402 pl;
      let op : Nat := uAt c.payload 0 1;
      isDoing s 0x1402 c && decide (1 < op)),
    (let pl : List Byte := [1, 32]; let s := doing 0x1402 pl { one with eth := { link := true }, time.tb := 1000 }; let c := cmd 0x1402 pl;
      let op : Nat := uAt c.payload 0 1; let phy : Nat := uAt c.payload 1 1;
      isDoing s 0x1402 c && decide (op ≤ 1 ∧ 31 < phy)),
    (let pl : List Byte := [1, 31, 32]; let s := doing 0x1402 pl { one with eth := { link := true }, time.tb := 1000 }; let c := cmd 0x1402 pl;
      let op : Nat := uAt c.payload 0 1; let phy : Nat := uAt c.payload 1 1; let reg : Nat := uAt c.payload 2 1;
      isDoing s 0x1402 c && decide (op ≤ 1 ∧ phy ≤ 31 ∧ 31 < reg)),
    (let pl : List Byte := pay [(8, 2, 60)]; let s := doing 0x1402 pl { one with eth := { link := true }, time.tb := 1000 };
      let c := cmd 0x1402 pl; let op : Nat := uAt c.payload 0 1; let phy : Nat := uAt c.payload 1 1; let reg : Nat := uAt c.payload 2 1;
      isDoing s 0x1402 c && decide (phy ≤ 31 ∧ reg ≤ 31 ∧ op = 0)),
    (let pl : List Byte := [1, 31, 31]; let s := doing 0x1402 pl { one with eth := { link := true }, time.tb := 1000 }; let c := cmd 0x1402 pl;
      let op : Nat := uAt c.payload 0 1; let phy : Nat := uAt c.payload 1 1; let reg : Nat := uAt c.payload 2 1;
      isDoing s 0x1402 c && decide (phy ≤ 31 ∧ reg ≤ 31 ∧ op = 1)),
    (let pl : List Byte := [2]; let s := doing 0x1404 pl { one with eth := { link := true }, time.tb := 1000 }; let c := cmd 0x1404 pl;
      let n : Nat := uAt c.payload 0 2;
      isDoing s 0x1404 c && decide (s.eth.rxWrite - s.eth.rxRead < n)),
    (let pl : List Byte := pay [(8, 2, 60)]; let s := doing 0x1404 pl { one with eth := { link := true }, time.tb := 1000 };
      let c := cmd 0x1404 pl; let n : Nat := uAt c.payload 0 2;
      isDoing s 0x1404 c && decide (n ≤ s.eth.rxWrite - s.eth.rxRead)),
    (let pl : List Byte := pay [(8, 2, 60)]; let s := doing 0x1405 pl { one with eth := { link := true }, time.tb := 1000 };
      let c := cmd 0x1405 pl; let n : Nat := uAt c.payload 0 1;
      isDoing s 0x1405 c && decide (n = 0 ∨ 16 < n)),
    (let pl : List Byte := [2]; let s := doing 0x1405 pl { one with eth := { link := true }, time.tb := 1000 }; let c := cmd 0x1405 pl;
      let n : Nat := uAt c.payload 0 1;
      isDoing s 0x1405 c && decide (1 ≤ n ∧ n ≤ 16)),
    (let pl : List Byte := pay [(8, 2, 60)]; let s := doing 0x1403 pl up; let c := cmd 0x1403 pl; let a : Nat := uAt c.payload 0 8;
      let n : Nat := uAt c.payload 8 2;
      isDoing s 0x1403 c && decide (a % 64 ≠ 0 ∨ beyondFitted s a n = true)),
    (let pl : List Byte := [0, 0, 1]; let s := doing 0x1403 pl { one with eth := { link := true }, time.tb := 1000 }; let c := cmd 0x1403 pl;
      let a : Nat := uAt c.payload 0 8; let n : Nat := uAt c.payload 8 2;
      isDoing s 0x1403 c && decide (a % 64 = 0) && !(beyondFitted s a n) && decide (n < 60 ∨ 1522 < n)),
    (let pl : List Byte := pay [(8, 2, 60), (12, 1, 8)]; let s := doing 0x1403 pl { one with eth := { link := true }, time.tb := 1000 };
      let c := cmd 0x1403 pl; let a : Nat := uAt c.payload 0 8; let n : Nat := uAt c.payload 8 2; let fl : Nat := uAt c.payload 12 1;
      isDoing s 0x1403 c && decide (a % 64 = 0) && !(beyondFitted s a n) && decide (60 ≤ n ∧ n ≤ 1522 ∧ 7 < fl)),
    (let pl : List Byte := pay [(8, 2, 60)];
      let s := doing 0x1403 pl { one with eth.queue := List.replicate 30 { frame := [], t := 0, asap := true, lateWin := 0, ts := false, tsId := 0,
                                                                           notify := false, own := false }, mbx.current := some (cmd 0x1403 [0, 0, 0, 0, 0, 0, 0, 0, 60, 0, 0, 0,
                                          7]) };
      let c := cmd 0x1403 pl; let a : Nat := uAt c.payload 0 8; let n : Nat := uAt c.payload 8 2; let fl : Nat := uAt c.payload 12 1;
      isDoing s 0x1403 c && decide (a % 64 = 0) && !(beyondFitted s a n) && decide (60 ≤ n ∧ n ≤ 1522 ∧ fl ≤ 7 ∧
        30 ≤ (s.eth.queue.filter fun e => !e.own).length)),
    (let pl : List Byte := [0, 0, 0, 8, 0, 0, 0, 0, 60]; let s := doing 0x1403 pl { one with eth := { link := true }, time.tb := 1000 };
      let c := cmd 0x1403 pl; let a : Nat := uAt c.payload 0 8; let n : Nat := uAt c.payload 8 2; let fl : Nat := uAt c.payload 12 1;
      isDoing s 0x1403 c && decide (a % 64 = 0) && !(beyondFitted s a n) && decide (60 ≤ n ∧ n ≤ 1522 ∧ fl ≤ 7 ∧
        (s.eth.queue.filter fun e => !e.own).length < 30) && uninitRange s a n),
    (let pl : List Byte := pay [(8, 2, 60)]; let s := doing 0x1403 pl { one with faults.stopped := [0x13] }; let c := cmd 0x1403 pl;
      let a : Nat := uAt c.payload 0 8; let n : Nat := uAt c.payload 8 2; let fl : Nat := uAt c.payload 12 1;
      (if let (none, _) := dramRead 6 a n s then (isDoing s 0x1403 c && decide (a % 64 = 0) && !(beyondFitted s a n) && decide (60 ≤ n ∧ n ≤ 1522 ∧
        fl ≤ 7 ∧ (s.eth.queue.filter fun e => !e.own).length < 30) && !(uninitRange s a n)) else false)),
    (let pl : List Byte := pay [(8, 2, 1520)]; let s := doing 0x1403 pl { one with eth := { link := true }, time.tb := 1000 };
      let c := cmd 0x1403 pl; let a : Nat := uAt c.payload 0 8; let n : Nat := uAt c.payload 8 2; let fl : Nat := uAt c.payload 12 1;
      (if let (some f, _) := dramRead 6 a n s then (isDoing s 0x1403 c && decide (a % 64 = 0) && !(beyondFitted s a n) && decide (60 ≤ n ∧ n ≤ 1522 ∧
        fl ≤ 7 ∧ (s.eth.queue.filter fun e => !e.own).length < 30) && !(uninitRange s a n) && decide (1518 < n) && !(isTagged f)) else false)),
    (let pl : List Byte := pay [(8, 2, 60)]; let s := doing 0x1403 pl one; let c := cmd 0x1403 pl; let a : Nat := uAt c.payload 0 8;
      let n : Nat := uAt c.payload 8 2; let fl : Nat := uAt c.payload 12 1;
      (if let (some f, u) := dramRead 6 a n s then (isDoing s 0x1403 c && decide (a % 64 = 0) && !(beyondFitted s a n) && decide (60 ≤ n ∧ n ≤ 1522 ∧
        fl ≤ 7 ∧ (s.eth.queue.filter fun e => !e.own).length < 30) && !(uninitRange s a n) && decide (n ≤ 1518 ∨ isTagged f = true) &&
        !u.eth.link) else false)),
    (let pl : List Byte := pay [(8, 2, 60)]; let s := doing 0x1403 pl { one with eth := { link := true, queue := [queued 1] } };
      let c := cmd 0x1403 pl; let a : Nat := uAt c.payload 0 8; let n : Nat := uAt c.payload 8 2; let fl : Nat := uAt c.payload 12 1;
      let t : Nat := (if bitOf fl 0 then (latestT s).getD s.time.tb.toNat else uAt c.payload 16 8);
      (if let (some f, u) := dramRead 6 a n s then (isDoing s 0x1403 c && decide (a % 64 = 0) && !(beyondFitted s a n) && decide (60 ≤ n ∧ n ≤ 1522 ∧
        fl ≤ 7 ∧ (s.eth.queue.filter fun e => !e.own).length < 30) && !(uninitRange s a n) && decide (n ≤ 1518 ∨ isTagged f = true) && u.eth.link &&
        !(bitOf fl 0) && decide (((((if let some l := latestT u then decide (tbDiff t l < 0) else false)) = true)) ∨
        2 ^ 39 ≤ tbDiff t u.time.tb.toNat)) else false)),
    (let pl : List Byte := pay [(8, 2, 60)]; let s := doing 0x1403 pl { one with eth := { link := true }, time.tb := 1000 };
      let c := cmd 0x1403 pl; let a : Nat := uAt c.payload 0 8; let n : Nat := uAt c.payload 8 2; let fl : Nat := uAt c.payload 12 1;
      let t : Nat := (if bitOf fl 0 then (latestT s).getD s.time.tb.toNat else uAt c.payload 16 8); let late : Nat := uAt c.payload 24 4;
      (if let (some f, u) := dramRead 6 a n s then (isDoing s 0x1403 c && decide (a % 64 = 0) && !(beyondFitted s a n) && decide (60 ≤ n ∧ n ≤ 1522 ∧
        fl ≤ 7 ∧ (s.eth.queue.filter fun e => !e.own).length < 30) && !(uninitRange s a n) && decide (n ≤ 1518 ∨ isTagged f = true) && u.eth.link &&
        !(bitOf fl 0) && ((if let some l := latestT u then decide (0 ≤ tbDiff t l) else true)) &&
        decide (tbDiff t u.time.tb.toNat < -(late : Int))) else false)),
    (let pl : List Byte := pay [(8, 2, 60)]; let s := doing 0x1403 pl { one with eth := { link := true } }; let c := cmd 0x1403 pl;
      let a : Nat := uAt c.payload 0 8; let n : Nat := uAt c.payload 8 2; let fl : Nat := uAt c.payload 12 1;
      let t : Nat := (if bitOf fl 0 then (latestT s).getD s.time.tb.toNat else uAt c.payload 16 8); let late : Nat := uAt c.payload 24 4;
      (if let (some f, u) := dramRead 6 a n s then (isDoing s 0x1403 c && decide (a % 64 = 0) && !(beyondFitted s a n) && decide (60 ≤ n ∧ n ≤ 1522 ∧
        fl ≤ 7 ∧ (s.eth.queue.filter fun e => !e.own).length < 30) && !(uninitRange s a n) && decide (n ≤ 1518 ∨ isTagged f = true) && u.eth.link &&
        decide (bitOf fl 0 = true ∨ (((((if let some l := latestT u then decide (0 ≤ tbDiff t l) else true)) = true)) ∧
        tbDiff t u.time.tb.toNat < 2 ^ 39 ∧ -(late : Int) ≤ tbDiff t u.time.tb.toNat))) else false)),
    (let s : State := up;
      decide (ethRuns s = false ∨ s.eth.link = false)),
    (let s : State := { one with eth := { link := true }, time.tb := 1000 }; let f : List Byte := [];
      ethRuns s && s.eth.link && decide (f.length < 60)),
    (let s : State := { one with eth := { link := true }, time.tb := 1000 }; let f : List Byte := (zeros 1519);
      ethRuns s && s.eth.link && decide (1518 < f.length)),
    (let s : State := { one with eth := { link := true }, time.tb := 1000 }; let f : List Byte := (zeros 12 ++ [0x88, 0x08, 0, 1] ++ zeros 44);
      ethRuns s && s.eth.link && decide (60 ≤ f.length ∧ f.length ≤ 1518 ∧ etherType f = 0x8808 ∧ beAt (etherPayload f) 0 2 = 1)),
    (let s : State := { up with eth.link := true, eth.params := [⟨1, 0, 1⟩] };
      let f : List Byte := zeros 12 ++ [0x88, 0xF7] ++ [0xB, 2] ++ zeros 44;
      ethRuns s && s.eth.link && decide (60 ≤ f.length ∧ f.length ≤ 1518 ∧ (etherType f ≠ 0x8808 ∨ beAt (etherPayload f) 0 2 ≠ 1)) &&
        !(destinationOk s (beAt f 0 6))),
    (let s : State := { one with eth := { link := true }, time.tb := 1000 };
      let f : List Byte := zeros 12 ++ [0x88, 0xF7] ++ [0xB, 2] ++ zeros 44;
      ethRuns s && s.eth.link && decide (60 ≤ f.length ∧ f.length ≤ 1518 ∧ (etherType f ≠ 0x8808 ∨ beAt (etherPayload f) 0 2 ≠ 1)) &&
        destinationOk s (beAt f 0 6) && decide (ptpMessage s f = none)),
    (let s : State := { slave [] {} with eth := { link := true } };
      let f : List Byte := zeros 12 ++ [0x88, 0xF7] ++ [0, 2, 0, 0, 9] ++ zeros 41;
      (if let some m := ptpMessage s f then (ethRuns s && s.eth.link && decide (60 ≤ f.length ∧ f.length ≤ 1518 ∧ (etherType f ≠ 0x8808 ∨
        beAt (etherPayload f) 0 2 ≠ 1)) && destinationOk s (beAt f 0 6) && ptpIgnored s m &&
        decide (ptpDomain m ≠ pnat s.time.params 6 0 0)) else false)),
    (let s : State := { slave [] {} with eth := { link := true } }; let f : List Byte := zeros 12 ++ [0x88, 0xF7] ++ [2, 2] ++ zeros 44;
      (if let some m := ptpMessage s f then (ethRuns s && s.eth.link && decide (60 ≤ f.length ∧ f.length ≤ 1518 ∧ (etherType f ≠ 0x8808 ∨
        beAt (etherPayload f) 0 2 ≠ 1)) && destinationOk s (beAt f 0 6) && ptpIgnored s m &&
        decide (ptpDomain m = pnat s.time.params 6 0 0)) else false)),
    (let s : State := { slave [] {} with eth := { link := true } }; let f : List Byte := (zeros 12 ++ [0x88, 0xF7] ++ [0, 2] ++ zeros 44);
      (if let some m := ptpMessage s f then (ethRuns s && s.eth.link && decide (60 ≤ f.length ∧ f.length ≤ 1518 ∧ (etherType f ≠ 0x8808 ∨
        beAt (etherPayload f) 0 2 ≠ 1)) && destinationOk s (beAt f 0 6) && !(ptpIgnored s m) && decide (∃ e ∈ ptpUsed, e.1 = ptpType m ∧
        e.2 ≤ m.length)) else false)),
    (let s : State := { slave [] {} with eth := { link := true } }; let f : List Byte := zeros 12 ++ [0x88, 0xF7] ++ [0xB, 2] ++ zeros 44;
      (if let some m := ptpMessage s f then (ethRuns s && s.eth.link && decide (60 ≤ f.length ∧ f.length ≤ 1518 ∧ (etherType f ≠ 0x8808 ∨
        beAt (etherPayload f) 0 2 ≠ 1)) && destinationOk s (beAt f 0 6) && !(ptpIgnored s m) && decide (∀ e ∈ ptpUsed, e.1 = ptpType m →
        m.length < e.2)) else false)),
    (let v : State := { one with eth := { link := true }, time.tb := 1000 };
      decide (pfind v.eth.params 7 0 = none ∨ rxSlots v.eth.params ≤ v.eth.rxWrite - v.eth.rxRead)),
    (let v : State := { up with eth.link := true, eth.params := [⟨7, 0, 0⟩], eth.rxWrite := 63 };
      (if let some _ := pfind v.eth.params 7 0 then (decide (v.eth.rxWrite - v.eth.rxRead < rxSlots v.eth.params)) else false)),
    (let s : State := { one with eth := { link := true }, time.tb := 1000 };
      decide (s.eth.queue = [] ∨ ethRuns s = false)),
    (let s : State := { one with eth.queue := List.replicate 30 { frame := [], t := 0, asap := true, lateWin := 0, ts := false, tsId := 0,
                                                                   notify := false, own := false }, mbx.current := some (cmd 0x1403 [0, 0, 0, 0, 0, 0, 0, 0, 60, 0, 0, 0,
                                  7]) };
      (if let _ :: _ := s.eth.queue then (ethRuns s && !s.eth.link) else false)),
    (let s : State := { one with eth := { link := true, queue := [queued 1] } };
      (if let x :: _ := s.eth.queue then (ethRuns s && s.eth.link && decide (tbDiff s.time.tb.toNat x.t < 0 ∨
        s.clock < s.eth.macFree)) else false)),
    (let s : State := { up with eth.queue := [{ frame := [], t := 0, asap := true, lateWin := 999, ts := false, tsId := 0, notify := false,
                                                 own := false }], eth.link := true, time.tb := 1000, eth.speed := 2 };
      (if let x :: _ := s.eth.queue then (let past : Nat := (tbDiff s.time.tb.toNat x.t).toNat;
        let late : Nat := (if past * 4 ≤ (s.clock - s.eth.macFree) * 5 ∧ past ≤ txcNs s.eth.speed then 0 else past); ethRuns s && s.eth.link &&
        decide (0 ≤ tbDiff s.time.tb.toNat x.t ∧ s.eth.macFree ≤ s.clock ∧ x.lateWin < late)) else false)),
    (let s : State := { up with eth.queue := [{ frame := [], t := 0, asap := true, lateWin := 0, ts := false, tsId := 0, notify := false,
                                                 own := false }], eth.link := true };
      (if let x :: _ := s.eth.queue then (let past : Nat := (tbDiff s.time.tb.toNat x.t).toNat;
        let late : Nat := (if past * 4 ≤ (s.clock - s.eth.macFree) * 5 ∧ past ≤ txcNs s.eth.speed then 0 else past); ethRuns s && s.eth.link &&
        decide (0 ≤ tbDiff s.time.tb.toNat x.t ∧ s.eth.macFree ≤ s.clock ∧ late ≤ x.lateWin)) else false)),
    (let s : State := { up with eth.params := [⟨2, 0, 1⟩] };
      decide (ethRuns s = false ∨ ethSpeed s ≠ 0)),
    (let s : State := { one with eth := { link := true }, time.tb := 1000 };
      decide (ethRuns s = false ∨ ethSpeed s = 0)),
    (let s : State := { one with eth := { link := true }, time.tb := 1000 };
      ethRuns s && decide (ethSpeed s = 0)),
    (let s : State := { up with eth.params := [⟨2, 0, 1⟩] };
      ethRuns s && decide (ethSpeed s ≠ 0)) ] : List Bool).all id = true := by
  decide +kernel

/-- The hypotheses of each clause of O55 are met. -/
theorem test_LinksComeUpAndRetrain : (
  [ (let s : State := { up with audit := { configured := true } }; let l : Fin 2 := 0;
      decide ((linkOf l s).stage ≠ .detect)),
    (let s : State := { up with audit := { configured := true } }; let l : Fin 2 := 0;
      decide ((linkOf l s).stage ≠ .lock ∧ (linkOf l s).stage ≠ .retrain)),
    (let s : State := { up with audit := { configured := true } }; let l : Fin 2 := 0;
      decide ((linkOf l s).stage ≠ .align)),
    (let s : State := { up with audit := { configured := true } }; let l : Fin 2 := 0;
      decide ((linkOf l s).stage ≠ .equalise)),
    (let s : State := { up with audit := { configured := true } }; let l : Fin 2 := 0;
      decide ((linkOf l s).stage ≠ .active)),
    (let s : State := { up with audit := { configured := true } }; let l : Fin 2 := 0;
      decide ((linkOf l s).stage ≠ .retrain)),
    (let s : State := { up with audit := { configured := true } }; let l : Fin 2 := 0;
      decide ((linkOf l s).stage ≠ .wait)),
    (let s : State := { up with audit := { configured := true } }; let l : Fin 2 := 0;
      decide ((linkOf l s).stage ∉ [.lock, .align, .equalise, .active, .retrain])),
    (let s : State := { up with host.stage := .detect }; let l : Fin 2 := 0;
      decide ((linkOf l s).stage = .detect)),
    (let s : State := staged .lock lane1; let l : Fin 2 := 0; let a : BitVec 9 := 0;
      decide ((linkOf l s).stage = .lock ∧ maskLanes l a.toNat = [])),
    (let s : State := staged .lock lane1; let l : Fin 2 := 0; let a : BitVec 9 := 0; let r : Instr := .linkStageTimeout 0 0;
      let k : Link := takeLock a.toNat (linkOf l s);
      decide ((linkOf l s).stage = .lock ∧ ((r = .linkLockDone l a ∧ maskLanes l a.toNat ≠ [] ∧ ∀ i ∈ maskLanes l a.toNat,
        trained (laneOf (linkOf l s) i) = true) ∨ r = .linkStageTimeout l a) ∧ lockMask l k = 0)),
    (let s : State := staged .lock lane1; let l : Fin 2 := 0; let a : BitVec 9 := 0x1FF; let r : Instr := .linkStageTimeout 0 0x1FF;
      let k : Link := takeLock a.toNat (linkOf l s);
      decide ((linkOf l s).stage = .lock ∧ ((r = .linkLockDone l a ∧ maskLanes l a.toNat ≠ [] ∧ ∀ i ∈ maskLanes l a.toNat,
        trained (laneOf (linkOf l s) i) = true) ∨ r = .linkStageTimeout l a) ∧ lockMask l k ≠ 0)),
    (let s : State := staged .align { lane1 with aligns := 0 }; let l : Fin 2 := 0; let mask : Nat := usableMask l false s.clock (linkOf l s);
      decide ((linkOf l s).stage = .align) && !(deskewed l mask (linkOf l s))),
    (let s : State := { up with host.stage := .align, host.lanes := up.host.lanes.map fun _ => { use := .active, lock := true } };
      let l : Fin 2 := 0; let mask : Nat := usableMask l false s.clock (linkOf l s); let w : Nat := widthFor l mask;
      decide ((linkOf l s).stage = .align) && deskewed l mask (linkOf l s) && decide (w = 0 ∨ commonBelow (linkOf l s).peerRates 6 = none)),
    (let s : State := staged .align lane1; let l : Fin 2 := 0; let mask : Nat := usableMask l false s.clock (linkOf l s);
      let w : Nat := widthFor l mask;
      (if let some _ := commonBelow (linkOf l s).peerRates 6 then (decide ((linkOf l s).stage = .align) && deskewed l mask (linkOf l s) &&
        decide (w ≠ 0)) else false)),
    (let l : Fin 2 := 0; let mask : Nat := 0x1FF;
      ([1, 2, 4, 8]).any fun w => (decide (w ≤ (maskLanes l mask).length ∧ w ≤ fullWidth l))),
    (let again : Bool := false; let k : Link := { lanes := Vector.replicate 9 { use := .test } }; let n : Fin 9 := 0;
      laneStays again k.lanes[n].use),
    (let l : Fin 2 := 0; let again : Bool := false; let mask : Nat := 0x1FF; let k : Link := { lanes := Vector.replicate 9 lane1 };
      let n : Fin 9 := 0;
      decide ((mapLanes l again mask (widthFor l mask) k).lanes[n].use = .active)),
    (let peer : Nat := 0x1FF; let n : Nat := 0x1FF; let q : Nat := 16;
      (if let some r := commonBelow peer n then (decide (r < q ∧ q < n)) else false)),
    (let s : State := { up with host.stage := .equalise, host.target := 0,
                                 host.lanes := up.host.lanes.map fun _ => { use := .active, lock := true } };
      let l : Fin 2 := 0; let mask : Nat := usableMask l false s.clock (linkOf l s); let w : Nat := widthFor l mask;
      let need : Nat := (if lowestCommon (linkOf l s).peerRates (linkOf l s).target then 1 else max (minWidth l (linkOf l s)) (linkOf l s).peerMinW);
      ([Instr.linkEqualiseDone l, .linkStageTimeout l 0]).any fun _ => (decide ((linkOf l s).stage = .equalise ∧ (w = 0 ∨ w < need) ∧
        commonBelow (linkOf l s).peerRates (linkOf l s).target = none))),
    (let s : State := staged .equalise { lane1 with peerPassed := false }; let l : Fin 2 := 0;
      let mask : Nat := usableMask l false s.clock (linkOf l s); let w : Nat := widthFor l mask;
      let need : Nat := (if lowestCommon (linkOf l s).peerRates (linkOf l s).target then 1 else max (minWidth l (linkOf l s)) (linkOf l s).peerMinW);
      ([Instr.linkEqualiseDone l, .linkStageTimeout l 0]).any fun _ => ((if let some _ := commonBelow (linkOf l s).peerRates (linkOf l s).target then
        (decide ((linkOf l s).stage = .equalise ∧ (w = 0 ∨ w < need))) else false))),
    (let s : State := staged .equalise lane1; let l : Fin 2 := 0; let mask : Nat := usableMask l false s.clock (linkOf l s);
      let w : Nat := widthFor l mask;
      let need : Nat := (if lowestCommon (linkOf l s).peerRates (linkOf l s).target then 1 else max (minWidth l (linkOf l s)) (linkOf l s).peerMinW);
      decide ((linkOf l s).stage = .equalise ∧ w ≠ 0 ∧ need ≤ w)),
    (let s : State := { up with host.stage := .equalise, host.target := 0,
                                 host.lanes := up.host.lanes.map fun _ => { use := .active, lock := true } };
      let l : Fin 2 := 0;
      decide ((linkOf l s).stage = .equalise ∧ commonBelow (linkOf l s).peerRates (linkOf l s).target = none)),
    (let s : State := staged .equalise { lane1 with peerPassed := false }; let l : Fin 2 := 0;
      (if let some _ := commonBelow (linkOf l s).peerRates (linkOf l s).target then (decide ((linkOf l s).stage = .equalise)) else false)),
    (let s : State := staged .align { lane1 with aligns := 0 }; let l : Fin 2 := 0;
      decide ((linkOf l s).stage = .align)),
    (let s : State := { up with host := { stage := .active, vc := Vector.replicate 3 { gotCredit := true } } }; let l : Fin 2 := 0;
      decide ((linkOf l s).stage = .active)),
    (let s : State := { up with host.stage := .active }; let l : Fin 2 := 0;
      decide ((linkOf l s).stage = .active ∧ (∃ v : Fin 3, (linkOf l s).vc[v].gotCredit = false))),
    (let s : State := { up with host := { stage := .active, vc := Vector.replicate 3 { gotCredit := true } } }; let l : Fin 2 := 0;
      decide ((linkOf l s).stage = .active ∧ (∀ v : Fin 3, (linkOf l s).vc[v].gotCredit = true))),
    (let s : State := { up with audit := { configured := true } }; let l : Fin 2 := 0;
      decide ((linkOf l s).linkUp = false ∨ l = 1)),
    (let s : State := { up with host.stage := .wait }; let l : Fin 2 := 0;
      decide ((linkOf l s).stage = .wait)),
    (let s : State := staged .retrain lane1; let l : Fin 2 := 0; let a : BitVec 9 := 0x1FF; let k : Link := takeLock a.toNat (linkOf l s);
      let mask : Nat := usableMask l true s.clock k; let w : Nat := widthFor l mask;
      decide ((linkOf l s).stage = .retrain ∧ w ≠ 0 ∧ max (minWidth l k) k.peerMinW ≤ w) && deskewed l mask k),
    (let s : State := staged .retrain lane1; let l : Fin 2 := 0; let a : BitVec 9 := 0; let k : Link := takeLock a.toNat (linkOf l s);
      let mask : Nat := usableMask l true s.clock k; let w : Nat := widthFor l mask;
      decide ((linkOf l s).stage = .retrain ∧ (w = 0 ∨ w < max (minWidth l k) k.peerMinW ∨ deskewed l mask k = false))),
    (let s : State := { up with host := { stage := .active, vc := Vector.replicate 3 { gotCredit := true } } }; let l : Fin 2 := 0;
      decide ((linkOf l s).stage ∈ [.detect, .lock, .align, .active, .up])),
    (let s : State := { up with audit := { configured := true } }; let l : Fin 2 := 0;
      decide ((linkOf l s).stage ∈ [.equalise, .down, .wait])),
    (let s : State := { up with host.linkUp := true, sys.legacy := false };
      s.host.linkUp && decide (s.sys.mode ≠ .boot ∧ s.sys.mode ≠ .keepalive ∧ latchedAt s (blockInst 0x10) = none)),
    (let s : State := { up with audit := { configured := true } }; let l : Fin 3 := 2; let n : Fin 9 := 2;
      deaf l n.val s),
    (let s : State := { up with audit := { configured := true } }; let l : Fin 3 := 0; let n : Fin 9 := 0;
      let b : List Byte := block0 0x99 (List.replicate 14 0x99);
      !(deaf l n.val s) && !(blockGood b 0xE1) && decide (blockGood (b.map (~~~ ·)) 0xE1 = false)),
    (let s : State := { up with audit := { configured := true } }; let l : Fin 3 := 0; let n : Fin 9 := 0;
      let b : List Byte := block0 0x99 (List.replicate 14 0x99);
      !(deaf l n.val s) && !(blockGood b 0xE2)),
    (let s : State := { up with audit := { configured := true } }; let l : Fin 3 := 0; let n : Fin 9 := 0;
      let b : List Byte := block0 0x99 (List.replicate 14 0x99);
      !(deaf l n.val s) && !(blockGood b 0xA5)),
    (let s : State := { up with audit := { configured := true } }; let l : Fin 3 := 0; let n : Fin 9 := 0; let b : List Byte := [];
      !(deaf l n.val s) && !(blockGood b 0x99)),
    (let s : State := { up with audit := { configured := true } }; let l : Fin 3 := 0; let n : Fin 9 := 0;
      let b : List Byte := block0 0x99 (List.replicate 14 0x99);
      !(deaf l n.val s) && blockGood b 0x99),
    (let s : State := { up with audit := { configured := true } }; let l : Fin 3 := 0; let n : Fin 9 := 0;
      let b : List Byte := block0 0x99 (List.replicate 14 0x99); let y : BitVec 2 := 1;
      !(deaf l n.val s) && blockValid y b),
    (let s : State := { up with audit := { configured := true } }; let l : Fin 3 := 0; let n : Fin 9 := 0;
      let b : List Byte := block0 0x99 (List.replicate 14 0x99); let y : BitVec 2 := 0;
      !(deaf l n.val s) && !(blockValid y b)),
    (let n : Fin 9 := 0; let m : Fin 9 := 1;
      decide (m ≠ n)),
    (let s : State := { up with audit := { configured := true } }; let l : Fin 2 := 0; let b : List Byte := (block0 0xE1 []);
      !(inTraining (linkOf l s)) && decide (blockGood b 0xE1 = true ∨ blockGood (b.map (~~~ ·)) 0xE1 = true)),
    (let s : State := { up with audit := { configured := true } }; let l : Fin 2 := 0;
      let b : List Byte := (block0 0xE2 [0, 0, 0, 0, 16, 8, 12]);
      !(inTraining (linkOf l s)) && blockGood b 0xE2),
    (let s : State := staged .retrain lane1; let l : Fin 2 := 0; let b : List Byte := (block0 0xE1 []);
      let flip : Bool := blockGood (b.map (~~~ ·)) 0xE1; let m : List Byte := (if flip then b.map (~~~ ·) else b);
      inTraining (linkOf l s) && blockGood m 0xE1),
    (let s : State := staged .retrain lane1; let l : Fin 2 := 0; let b : List Byte := (block0 0xE2 [0, 0, 0, 0, 16, 8, 12]);
      inTraining (linkOf l s) && blockGood b 0xE2),
    (let s : State := { up with audit := { configured := true } }; let n : Fin 9 := 0; let b : List Byte := (block0 0xE1 []);
      !(deaf 2 n s) && decide (blockGood b 0xE1 = true ∨ blockGood (b.map (~~~ ·)) 0xE1 = true)),
    (let s : State := { up with audit := { configured := true } }; let n : Fin 9 := 0;
      let b : List Byte := (block0 0xE2 [0, 0, 0, 0, 16, 8, 12]);
      !(deaf 2 n s) && blockGood b 0xE2),
    (let s : State := staged .retrain lane1; let l : Fin 2 := 0; let a : BitVec 9 := 0x1FF;
      decide ((linkOf l s).stage = .retrain ∧ maskLanes l a.toNat ≠ [] ∧ ∀ i ∈ maskLanes l a.toNat, trained (laneOf (linkOf l s) i) = true)),
    (let s : State := staged .lock { lane1 with train1 := 0 }; let l : Fin 2 := 0; let a : BitVec 9 := 1;
      decide (∃ i ∈ maskLanes l a.toNat, trained (laneOf (linkOf l s) i) = false)),
    (let s : State := staged .lock { lane1 with train1 := 7 }; let l : Fin 2 := 0; let n : Fin 9 := 0; let m : List Byte := block0 0xE1 [];
      inTraining (linkOf l s) && inLock (linkOf l s) && blockGood m 0xE1 && decide (7 ≤ (laneOf (linkOf l s) n).train1)),
    (let s : State := staged .lock { lane1 with train1 := 8, answered := false }; let l : Fin 2 := 0; let n : Fin 9 := 0;
      let b : List Byte := block0 0xE2 [0, 0, 0, 0, 16, 8, 12];
      inTraining (linkOf l s) && inLock (linkOf l s) && blockGood b 0xE2 && decide (8 ≤ (laneOf (linkOf l s) n).train1) && !(laneOf (linkOf l s) n).answered),
    (let s : State := staged .lock { lane1 with answered := true }; let l : Fin 2 := 0; let n : Fin 9 := 0;
      let b : List Byte := block0 0xE2 [0, 0, 0, 0, 16, 8, 12];
      inTraining (linkOf l s) && blockGood b 0xE2 && decide ((linkOf l s).stage ≠ .equalise ∧ (laneOf (linkOf l s) n).answered = true)),
    (let s : State := staged .equalise lane1; let l : Fin 2 := 0; let b : List Byte := block0 0xE2 [0, 0, 0, 0, 16, 8, 12];
      inTraining (linkOf l s) && blockGood b 0xE2 && decide ((linkOf l s).stage = .equalise ∧ bitOf (uAt b 5 1) 4 = true ∧
        legalCoeff (uAt b 6 1) (uAt b 7 1) = true ∧ pon (linkOf l s).inForce 5 0 false = false ∧ 2 ≤ (linkOf l s).target)),
    (let s : State := staged .equalise lane1; let l : Fin 2 := 0; let b : List Byte := block0 0xE2 [0, 0, 0, 0, 16, 255, 255];
      inTraining (linkOf l s) && blockGood b 0xE2 && decide ((linkOf l s).stage = .equalise ∧ bitOf (uAt b 5 1) 4 = true ∧
        legalCoeff (uAt b 6 1) (uAt b 7 1) = false)) ] : List Bool).all id = true := by
  decide +kernel

/-- The hypotheses of each clause of O56 are met. -/
theorem test_LanesAreSparedAndTested : (
  [ (let s : State := { up with host := { stage := .up, lanes := up.host.lanes.set 0 { use := .active } } }; let l : Fin 2 := 0;
      let n : Fin 9 := 0; let b : List Byte := (block0 0xA5 [0, 0, 0, 0, 0, 255, 255]);
      let d : List Byte := (block0 0xA5 [0, 0, 0, 0, 0, 255, 255]); let k : Link := linkOf l s; let q : Lane := laneOf k n;
      let bad : Bool := (q.alignSeen && (crc16 d).toNat != uAt b 6 2);
      blockGood b 0xA5 && decide (k.stage ≠ .up ∨ (q.use = .active ∧ bad = false) ∨ (q.use ≠ .active ∧ q.use ≠ .standby))),
    (let s : State := { up with host.lanes := (up.host.lanes.map fun _ => { use := .active, lock := true, alignSeen := true,
                                                                             intervalErr := 3 }).set 8 { use := .standby }, host.stage := .up };
      let l : Fin 2 := 0; let n : Fin 9 := 0; let b : List Byte := (block0 0xA5 [0, 0, 0, 0, 0, 255, 255]);
      let d : List Byte := (block0 0xA5 [0, 0, 0, 0, 0, 255, 255]); let k : Link := linkOf l s; let q : Lane := laneOf k n;
      let bad : Bool := (q.alignSeen && (crc16 d).toNat != uAt b 6 2);
      blockGood b 0xA5 && decide (k.stage = .up ∧ q.use = .active) && bad),
    (let s : State := { up with host.lanes := (up.host.lanes.map fun _ => { use := .active, lock := true, alignSeen := true,
                                                                             intervalErr := 3 }).set 8 { use := .standby }, host.stage := .up };
      let l : Fin 2 := 0; let n : Fin 9 := 8; let b : List Byte := (block0 0xA5 [0, 0, 0, 0, 0, 255, 255]); let k : Link := linkOf l s;
      let q : Lane := laneOf k n;
      blockGood b 0xA5 && decide (k.stage = .up ∧ q.use = .standby)),
    (let s : State := { up with host := { stage := .up, lanes := up.host.lanes.set 0 { use := .active } } }; let l : Fin 2 := 0;
      let n : Fin 9 := 0;
      let e : Nat := (if s.clock < (laneOf (linkOf l s) n).windowAt + 800000 ∧ (laneOf (linkOf l s) n).intervalErr ≠ 0 then
        (laneOf (linkOf l s) n).intervalErr + 1 else 1);
      decide ((linkOf l s).stage = .up ∧ e < spareThresh (linkOf l s))),
    (let s : State := { up with host.lanes := (up.host.lanes.map fun _ => { use := .active, lock := true, alignSeen := true,
                                                                             intervalErr := 3 }).set 8 { use := .standby }, host.stage := .up };
      let l : Fin 2 := 0; let n : Fin 9 := 0;
      let e : Nat := (if s.clock < (laneOf (linkOf l s) n).windowAt + 800000 ∧ (laneOf (linkOf l s) n).intervalErr ≠ 0 then
        (laneOf (linkOf l s) n).intervalErr + 1 else 1);
      decide ((linkOf l s).stage = .up ∧ spareThresh (linkOf l s) ≤ e)),
    (let s : State := { up with host := { stage := .up, lanes := up.host.lanes.set 0 { use := .active } } }; let l : Fin 2 := 0;
      let r : BitVec 23 := 0; let d : List Byte := (block0 0xA5 [0, 0, 0, 0, 0, 255, 255]); let n : Nat := spareLane l;
      let c : Checker := Checker.run_ 3 (laneOf (linkOf l s) n).chk (bitsOfBytes (scramble r d));
      let u := setLink l (setLane n fun q => addSpareErrors s.clock c.errors { q with chk := { c with bits := 0, errors := 0 } }) s;
      decide (((laneOf (linkOf l u) n).spareErrs.map (·.2)).sum ≤ 16)),
    (let s : State := { up with host.lanes := up.host.lanes.set 8 { use := .standby, spareErrs := [(0, 17)] } }; let l : Fin 2 := 0;
      let r : BitVec 23 := 0; let d : List Byte := (block0 0xA5 [0, 0, 0, 0, 0, 255, 255]); let n : Nat := spareLane l;
      let c : Checker := Checker.run_ 3 (laneOf (linkOf l s) n).chk (bitsOfBytes (scramble r d));
      let u := setLink l (setLane n fun q => addSpareErrors s.clock c.errors { q with chk := { c with bits := 0, errors := 0 } }) s;
      decide (16 < ((laneOf (linkOf l u) n).spareErrs.map (·.2)).sum)),
    (let s : State := { up with audit := { configured := true } }; let n : Fin 2 := 0;
      let b : List Byte := (block0 0xA5 [0, 0, 0, 0, 0, 255, 255]);
      !(deaf 2 n.val s) && blockGood b 0xA5),
    (let s : State := { up with host := { stage := .up, lanes := up.host.lanes.set 0 { use := .active } } }; let l : Fin 2 := 1;
      let k : Link := linkOf l s;
      decide (k.stage ≠ .up)),
    (let s : State := { up with host := { stage := .up, lanes := up.host.lanes.set 0 { use := .active } } }; let l : Fin 2 := 0;
      let n : Fin 9 := 0; let k : Link := linkOf l s;
      decide (k.stage = .up ∧ (laneOf k n).use = .active)),
    (let s : State := { up with host.lanes := (up.host.lanes.map fun _ => { use := .active, lock := true, alignSeen := true,
                                                                             intervalErr := 3 }).set 8 { use := .standby }, host.stage := .up };
      let l : Fin 2 := 0; let n : Fin 9 := 8; let k : Link := linkOf l s;
      decide (k.stage = .up ∧ n.val = spareLane l ∧ (laneOf k n).use = .standby)),
    (let s : State := { up with host := { stage := .up, lanes := up.host.lanes.set 0 { use := .active } } }; let l : Fin 2 := 0;
      let n : Fin 9 := 7; let k : Link := linkOf l s;
      decide (k.stage = .up ∧ (laneOf k n).use ≠ .active ∧ (laneOf k n).use ≠ .standby)),
    (let s : State := { up with host := { stage := .up, lanes := up.host.lanes.set 0 { use := .active } } }; let l : Fin 2 := 1;
      decide ((linkOf l s).stage ≠ .up)),
    (let s : State := { up with host := { stage := .up, lanes := up.host.lanes.set 0 { use := .active } } }; let l : Fin 2 := 0;
      decide ((linkOf l s).stage = .up)),
    (let s : State := { up with host.lanes := (up.host.lanes.map fun _ => { use := .active, lock := true, alignSeen := true,
                                                                             intervalErr := 3 }).set 8 { use := .standby }, host.stage := .up };
      let l : Fin 2 := 0; let n : Fin 9 := 0;
      decide ((linkOf l s).stage = .up ∧ (linkOf l s).spare = none) && spareFree l (linkOf l s) && decide ((laneOf (linkOf l s) n).use = .active)),
    (let s : State := { up with host := { stage := .up, lanes := up.host.lanes.set 0 { use := .active } } }; let l : Fin 2 := 0;
      let n : Fin 9 := 0;
      decide ((linkOf l s).stage = .up ∧ (linkOf l s).spare = none ∧ (spareFree l (linkOf l s) = false ∨ (laneOf (linkOf l s) n).use ≠ .active))),
    (let s : State := { up with host.spare := some { lane := 1, byWhom := 0 }, host.stage := .up }; let l : Fin 2 := 0; let n : Fin 9 := 7;
      (if let some w := (linkOf l s).spare then (decide ((linkOf l s).stage = .up ∧ (w.byWhom = 1 ∨ w.sentSwitch = true ∨
        w.lane < n.val))) else false)),
    (let s : State := { up with host.spare := some { lane := 1, byWhom := 0 }, host.stage := .up }; let l : Fin 2 := 0; let n : Fin 9 := 0;
      (if let some w := (linkOf l s).spare then (decide ((linkOf l s).stage = .up ∧ w.byWhom ≠ 1) && !w.sentSwitch &&
        decide (n.val < w.lane)) else false)),
    (let s : State := { up with host.spare := some { lane := 1, byWhom := 0 }, host.stage := .up }; let l : Fin 2 := 0; let n : Fin 9 := 1;
      (if let some w := (linkOf l s).spare then (decide ((linkOf l s).stage = .up ∧ w.byWhom ≠ 1) && !w.sentSwitch &&
        decide (n.val = w.lane)) else false)),
    (let s : State := { up with host.spare := some { lane := 0, byWhom := 0, sentSwitch := true, gotSwitch := true } }; let l : Fin 2 := 0;
      (if let some w := (linkOf l s).spare then (decide (w.byWhom = 1 ∨ w.sentSwitch = true)) else false)),
    (let s : State := { up with host.spare := some { lane := 0, byWhom := 1 } }; let l : Fin 2 := 0;
      (if let some w := (linkOf l s).spare then (decide (w.byWhom = 1)) else false)),
    (let s : State := { up with host.spare := some { lane := 1, byWhom := 0 }, host.stage := .up }; let l : Fin 2 := 0;
      (if let some w := (linkOf l s).spare then (decide (w.byWhom ≠ 1) && !w.sentSwitch) else false)),
    (let s : State := { up with host.spare := some { lane := 0, byWhom := 1 } }; let l : Fin 2 := 0;
      (if let some w := (linkOf l s).spare then (!w.gotSwitch) else false)),
    (let s : State := { up with host.spare := some { lane := 0, byWhom := 0, sentSwitch := true, gotSwitch := true } }; let l : Fin 2 := 0;
      (if let some w := (linkOf l s).spare then (w.gotSwitch) else false)),
    (let s : State := { up with host.spare := some { lane := 0, byWhom := 0, sentSwitch := true, gotSwitch := true } }; let l : Fin 2 := 0;
      let a : Fin 9 := 0;
      (if let some w := (linkOf l s).spare then (w.sentSwitch && w.gotSwitch && decide (w.lane = a.val ∧ a.val ≠ spareLane l ∧
        ((linkOf l s).replayDue = false ∨ (linkOf l s).replaysInRow < 4))) else false)),
    (let s : State := { up with host := { stage := .up, lanes := up.host.lanes.set 0 { use := .active } } }; let l : Fin 2 := 0;
      decide ((linkOf l s).linkUp = false ∨ (linkOf l s).stage ≠ .up)),
    (let s : State := { up with host.linkUp := true, host.stage := .up }; let l : Fin 2 := 0;
      (linkOf l s).linkUp && decide ((linkOf l s).stage = .up)),
    (let pl : List Byte := [2]; let s := doing 0x1501 pl { up with host := { stage := .up, lanes := up.host.lanes.set 0 { use := .active } } };
      let c := cmd 0x1501 pl;
      isDoing s 0x1501 c && decide (2 ≤ listTarget c.payload 0)),
    (let pl : List Byte := [0, 0, 8, 3, 0, 0, 0, 0, 64, 66, 15, 0]; let l : Fin 2 := 0;
      let s := doing 0x1501 pl { up with host := { stage := .up, lanes := up.host.lanes.set 0 { use := .active } } }; let c := cmd 0x1501 pl;
      (if let .error _ := judgeList (linkSpecs l) linkRelation (linkOf l s).params (listItems c.payload 0) then (isDoing s 0x1501 c &&
        decide (listTarget c.payload 0 = l.val)) else false)),
    (let l : Fin 2 := 0; let s := doing 0x1501 [] { up with host := { stage := .up, lanes := up.host.lanes.set 0 { use := .active } } };
      let c := cmd 0x1501 [];
      (if let .ok _ := judgeList (linkSpecs l) linkRelation (linkOf l s).params (listItems c.payload 0) then (isDoing s 0x1501 c &&
        decide (listTarget c.payload 0 = l.val)) else false)),
    (let pl : List Byte := [2]; let s := doing 0x1502 pl { up with host := { stage := .up, lanes := up.host.lanes.set 0 { use := .active } } };
      let c := cmd 0x1502 pl;
      isDoing s 0x1502 c && decide (2 ≤ uAt c.payload 0 1)),
    (let pl : List Byte := [0, 0, 8, 3, 0, 0, 0, 0, 64, 66, 15, 0]; let l : Fin 2 := 0;
      let s := doing 0x1502 pl { up with host.lanes := up.host.lanes.set 0 { use := .test } }; let c := cmd 0x1502 pl;
      isDoing s 0x1502 c && decide (uAt c.payload 0 1 = l.val ∧ (linkOf l s).stage ≠ .up)),
    (let pl : List Byte := [0, 0, 8, 3, 0, 0, 0, 0, 64, 66, 15, 0]; let l : Fin 2 := 0;
      let s := doing 0x1502 pl { up with host := { stage := .up, lanes := up.host.lanes.set 0 { use := .active } } }; let c := cmd 0x1502 pl;
      isDoing s 0x1502 c && decide (uAt c.payload 0 1 = l.val ∧ (linkOf l s).stage = .up)),
    (let pl : List Byte := [2]; let s := doing 0x1503 pl { up with host := { stage := .up, lanes := up.host.lanes.set 0 { use := .active } } };
      let c := cmd 0x1503 pl;
      isDoing s 0x1503 c && decide (2 ≤ uAt c.payload 0 1)),
    (let pl : List Byte := [0, 9]; let l : Fin 2 := 0;
      let s := doing 0x1503 pl { up with host := { stage := .up, lanes := up.host.lanes.set 0 { use := .active } } }; let c := cmd 0x1503 pl;
      let n : Nat := uAt c.payload 1 1;
      isDoing s 0x1503 c && decide (uAt c.payload 0 1 = l.val ∧ laneCount l ≤ n)),
    (let pl : List Byte := [0, 0, 8, 3, 0, 0, 0, 0, 64, 66, 15, 0]; let l : Fin 2 := 0;
      let s := doing 0x1503 pl { up with host := { stage := .up, lanes := up.host.lanes.set 0 { use := .active } } }; let c := cmd 0x1503 pl;
      let n : Nat := uAt c.payload 1 1;
      isDoing s 0x1503 c && decide (uAt c.payload 0 1 = l.val ∧ n < laneCount l ∧ (spareFree l (linkOf l s) = false ∨
        (laneOf (linkOf l s) n).use ≠ .active))),
    (let pl : List Byte := [0, 0, 8, 3, 0, 0, 0, 0, 64, 66, 15, 0]; let l : Fin 2 := 0;
      let s := doing 0x1503 pl { up with host.lanes := (up.host.lanes.map fun _ => { use := .active, lock := true, alignSeen := true,
                                                                                     intervalErr := 3 }).set 8 { use := .standby },
                                         host.stage := .up };
      let c := cmd 0x1503 pl; let n : Nat := uAt c.payload 1 1;
      isDoing s 0x1503 c && decide (uAt c.payload 0 1 = l.val ∧ n < laneCount l) && spareFree l (linkOf l s) &&
        decide ((laneOf (linkOf l s) n).use = .active)),
    (let pl : List Byte := [2]; let s := doing 0x1505 pl { up with host := { stage := .up, lanes := up.host.lanes.set 0 { use := .active } } };
      let c := cmd 0x1505 pl;
      isDoing s 0x1505 c && decide (2 ≤ uAt c.payload 0 1)),
    (let pl : List Byte := [0, 0, 8, 3, 0, 0, 0, 0, 64, 66, 15, 0]; let l : Fin 2 := 0;
      let s := doing 0x1505 pl { up with host := { stage := .up, lanes := up.host.lanes.set 0 { use := .active } } }; let c := cmd 0x1505 pl;
      isDoing s 0x1505 c && decide (uAt c.payload 0 1 = l.val)),
    (let pl : List Byte := [2]; let s := doing 0x1504 pl { up with host := { stage := .up, lanes := up.host.lanes.set 0 { use := .active } } };
      let c := cmd 0x1504 pl;
      isDoing s 0x1504 c && decide (2 ≤ uAt c.payload 0 1)),
    (let pl : List Byte := [0, 9]; let l : Fin 2 := 0;
      let s := doing 0x1504 pl { up with host := { stage := .up, lanes := up.host.lanes.set 0 { use := .active } } }; let c := cmd 0x1504 pl;
      let n : Nat := uAt c.payload 1 1;
      isDoing s 0x1504 c && decide (uAt c.payload 0 1 = l.val ∧ laneCount l ≤ n)),
    (let pl : List Byte := [0, 0, 9]; let l : Fin 2 := 0;
      let s := doing 0x1504 pl { up with host := { stage := .up, lanes := up.host.lanes.set 0 { use := .active } } }; let c := cmd 0x1504 pl;
      let n : Nat := uAt c.payload 1 1;
      (if let some _ := testBad c.payload then (isDoing s 0x1504 c && decide (uAt c.payload 0 1 = l.val ∧ n < laneCount l)) else false)),
    (let pl : List Byte := [0, 0, 8, 3, 0, 0, 0, 0, 64, 66, 15, 0]; let l : Fin 2 := 0;
      let s := doing 0x1504 pl { up with host := { stage := .up, lanes := up.host.lanes.set 0 { use := .active } } }; let c := cmd 0x1504 pl;
      let n : Nat := uAt c.payload 1 1; let op : Nat := uAt c.payload 2 1;
      isDoing s 0x1504 c && decide (uAt c.payload 0 1 = l.val ∧ n < laneCount l ∧ testBad c.payload = none ∧
        (testAllowed l n op (uAt c.payload 3 1) s = false ∨ (op = 7 ∧ l ≠ 0)))),
    (let l : Fin 2 := 0; let s := doing 0x1504 [] { up with host.lanes := up.host.lanes.set 0 { use := .test } }; let c := cmd 0x1504 [];
      let n : Nat := uAt c.payload 1 1; let op : Nat := uAt c.payload 2 1;
      isDoing s 0x1504 c && decide (uAt c.payload 0 1 = l.val ∧ n < laneCount l ∧ testBad c.payload = none) &&
        testAllowed l n op (uAt c.payload 3 1) s && decide (¬ (op = 7 ∧ l ≠ 0) ∧ op = 0)),
    (let pl : List Byte := [0, 0, 1]; let l : Fin 2 := 0; let s := doing 0x1504 pl { up with sys.mode := .service }; let c := cmd 0x1504 pl;
      let n : Nat := uAt c.payload 1 1; let op : Nat := uAt c.payload 2 1;
      isDoing s 0x1504 c && decide (uAt c.payload 0 1 = l.val ∧ n < laneCount l ∧ testBad c.payload = none) &&
        testAllowed l n op (uAt c.payload 3 1) s && decide (¬ (op = 7 ∧ l ≠ 0) ∧ op = 1)),
    (let pl : List Byte := [0, 0, 2]; let l : Fin 2 := 0;
      let s := doing 0x1504 pl { up with host.lanes := up.host.lanes.set 0 { use := .test } }; let c := cmd 0x1504 pl;
      let n : Nat := uAt c.payload 1 1; let op : Nat := uAt c.payload 2 1;
      isDoing s 0x1504 c && decide (uAt c.payload 0 1 = l.val ∧ n < laneCount l ∧ testBad c.payload = none) &&
        testAllowed l n op (uAt c.payload 3 1) s && decide (¬ (op = 7 ∧ l ≠ 0) ∧ op = 2)),
    (let pl : List Byte := [0, 8, 3]; let l : Fin 2 := 0; let s := doing 0x1504 pl { up with sys.mode := .service }; let c := cmd 0x1504 pl;
      let n : Nat := uAt c.payload 1 1; let op : Nat := uAt c.payload 2 1;
      isDoing s 0x1504 c && decide (uAt c.payload 0 1 = l.val ∧ n < laneCount l ∧ testBad c.payload = none) &&
        testAllowed l n op (uAt c.payload 3 1) s && decide (¬ (op = 7 ∧ l ≠ 0) ∧ op = 3)),
    (let pl : List Byte := pay [(2, 1, 4)]; let l : Fin 2 := 0; let s := doing 0x1504 pl { up with sys.mode := .service };
      let c := cmd 0x1504 pl; let n : Nat := uAt c.payload 1 1; let op : Nat := uAt c.payload 2 1;
      isDoing s 0x1504 c && decide (uAt c.payload 0 1 = l.val ∧ n < laneCount l ∧ testBad c.payload = none) &&
        testAllowed l n op (uAt c.payload 3 1) s && decide (¬ (op = 7 ∧ l ≠ 0) ∧ op = 4)),
    (let pl : List Byte := [0, 8, 5]; let l : Fin 2 := 0;
      let s := doing 0x1504 pl { up with host.lanes := up.host.lanes.set 8 { use := .standby, spareErrs := [(0, 17)] } }; let c := cmd 0x1504 pl;
      let n : Nat := uAt c.payload 1 1; let op : Nat := uAt c.payload 2 1;
      isDoing s 0x1504 c && decide (uAt c.payload 0 1 = l.val ∧ n < laneCount l ∧ testBad c.payload = none) &&
        testAllowed l n op (uAt c.payload 3 1) s && decide (¬ (op = 7 ∧ l ≠ 0) ∧ op = 5)),
    (let pl : List Byte := [0, 0, 6, 0, 0, 10]; let l : Fin 2 := 0;
      let s := doing 0x1504 pl { up with host.lanes := up.host.lanes.set 0 { use := .test } }; let c := cmd 0x1504 pl;
      let n : Nat := uAt c.payload 1 1; let op : Nat := uAt c.payload 2 1;
      isDoing s 0x1504 c && decide (uAt c.payload 0 1 = l.val ∧ n < laneCount l ∧ testBad c.payload = none) &&
        testAllowed l n op (uAt c.payload 3 1) s && decide (¬ (op = 7 ∧ l ≠ 0) ∧ op = 6)),
    (let pl : List Byte := [0, 0, 7, 0, 0, 1]; let l : Fin 2 := 0; let s := doing 0x1504 pl { up with sys.mode := .service };
      let c := cmd 0x1504 pl; let n : Nat := uAt c.payload 1 1; let op : Nat := uAt c.payload 2 1;
      isDoing s 0x1504 c && decide (uAt c.payload 0 1 = l.val ∧ n < laneCount l ∧ testBad c.payload = none) &&
        testAllowed l n op (uAt c.payload 3 1) s && decide (¬ (op = 7 ∧ l ≠ 0) ∧ op = 7)),
    (let pl : List Byte := [0, 0, 8, 3, 0, 0, 0, 0, 64, 66, 15, 0]; let l : Fin 2 := 0;
      let s := doing 0x1504 pl { up with sys.mode := .service }; let c := cmd 0x1504 pl; let n : Nat := uAt c.payload 1 1;
      let op : Nat := uAt c.payload 2 1;
      isDoing s 0x1504 c && decide (uAt c.payload 0 1 = l.val ∧ n < laneCount l ∧ testBad c.payload = none) &&
        testAllowed l n op (uAt c.payload 3 1) s && decide (¬ (op = 7 ∧ l ≠ 0) ∧ op = 8)),
    (let s : State := { up with host := { stage := .up, lanes := up.host.lanes.set 0 { use := .active } } }; let l : Fin 2 := 0;
      let n : Fin 9 := 0;
      decide ((laneOf (linkOf l s) n).use = .active ∧ (linkOf l s).stage = .up)),
    (let s : State := { up with host := { stage := .up, lanes := up.host.lanes.set 0 { use := .active } } }; let l : Fin 2 := 0;
      let n : Fin 9 := 7;
      decide ((laneOf (linkOf l s) n).use ≠ .active ∨ (linkOf l s).stage ≠ .up)),
    (let s : State := { up with host.lanes := up.host.lanes.set 0 { use := .test } }; let l : Fin 2 := 0; let n : Fin 9 := 0;
      decide ((laneOf (linkOf l s) n).use = .test)),
    (let s : State := { up with host := { stage := .up, lanes := up.host.lanes.set 0 { use := .active } } }; let l : Fin 2 := 0;
      let n : Fin 9 := 0;
      decide ((laneOf (linkOf l s) n).use ≠ .test)),
    (let s : State := { up with host.lanes := up.host.lanes.set 8 { use := .test, unusable := true } }; let l : Fin 2 := 0; let n : Fin 9 := 8;
      decide ((laneOf (linkOf l s) n).use = .test) && (laneOf (linkOf l s) n).unusable),
    (let s : State := up; let l : Fin 2 := 0; let n : Fin 9 := 0; let q : LaneTest := (laneOf (linkOf l s) n).test;
      !q.framed),
    ([0, 1, 2, 4097]).all fun k => (let t : LaneTest := { framed := true, txPos := k }; t.framed && decide (t.txPos = k)) ] : List Bool).all id = true := by
  decide +kernel

/-- The hypotheses of each clause of O57 are met. -/
theorem test_FramesAreCheckedAcknowledgedAndServed : (
  [ (let s : State := { up with host.linkUp := true }; let ty : Nat := 1;
      decide (ty ∈ [1, 2, 4, 5] ∧ (s.host.linkUp = false ∨ s.host.stage ≠ .up ∨ s.host.rxDiscard = true))),
    (let s : State := { linked with host := { linked.host with spare := some { lane := 0, byWhom := 0 }, unacked := [(0,
                                                                { ftype := 3, vc := 0 })] } };
      let f : List Byte := frame 9 0 0 0 0 []; let ty : Nat := 1; let h : FrameHeader := frameHeader f;
      decide (ty ∈ [1, 2, 4, 5]) && s.host.linkUp && decide (s.host.stage = .up) && !s.host.rxDiscard && decide (h.ftype ∉ typesIn 0 ∧
        h.ftype ∉ typesWrong 0 ∧ h.ftype ∉ typesLink)),
    (let s : State := { linked with host := { linked.host with spare := some { lane := 0, byWhom := 0 }, unacked := [(0,
                                                                { ftype := 3, vc := 0 })] } };
      let f : List Byte := frameNo 0 1 0x0F 6 (zeros 6); let ty : Nat := 2; let h : FrameHeader := frameHeader f;
      decide (ty ∈ [1, 2, 4, 5]) && s.host.linkUp && decide (s.host.stage = .up) && !s.host.rxDiscard && decide ((h.ftype ∈ typesIn 0 ∨
        h.ftype ∈ typesLink) ∧ h.ftype ≠ ty)),
    (let s : State := { linked with host := { linked.host with expect := 4095 } }; let f : List Byte := frameNo 0 1 0x0F 6 (zeros 6);
      let ty : Nat := 1; let h : FrameHeader := frameHeader f;
      decide (ty ∈ [1, 2, 4, 5]) && s.host.linkUp && decide (s.host.stage = .up) && !s.host.rxDiscard && decide ((h.ftype = ty ∨
        h.ftype ∈ typesWrong 0) ∧ frameCrcOk s.host.expect f = none)),
    (let s : State := { linked with host := { linked.host with spare := some { lane := 0, byWhom := 0 }, unacked := [(0,
                                                                { ftype := 3, vc := 0 })] } };
      let f : List Byte := frameNo 0 1 0x0F 6 (zeros 6); let ty : Nat := 1; let h : FrameHeader := frameHeader f;
      let fits : Bool := fitsRow ty h;
      (if let some _ := frameCrcOk s.host.expect f then (decide (ty ∈ [1, 2, 4, 5]) && s.host.linkUp && decide (s.host.stage = .up) &&
        !s.host.rxDiscard && decide ((h.ftype = ty ∨ h.ftype ∈ typesWrong 0) ∧ (h.ftype ≠ ty ∨ 4096 ≤ h.seqField ∨ h.len % 4 ≠ 0 ∨
        ¬ fits))) else false)),
    (let s : State := { linked with host := { linked.host with spare := some { lane := 0, byWhom := 0 }, unacked := [(0,
                                                                { ftype := 3, vc := 0 })] } };
      let f : List Byte := frameNo 1 1 0x0F 4 (zeros 4); let ty : Nat := 1; let h : FrameHeader := frameHeader f;
      let fits : Bool := fitsRow ty h;
      (if let some q := frameCrcOk s.host.expect f then (decide (ty ∈ [1, 2, 4, 5]) && s.host.linkUp && decide (s.host.stage = .up) &&
        !s.host.rxDiscard && decide ((h.ftype = ty ∨ h.ftype ∈ typesWrong 0) ∧ h.ftype = ty ∧ h.seqField < 4096 ∧ h.len % 4 = 0 ∧ fits ∧
        q ≠ s.host.expect ∧ (q + 2 ^ 32 - s.host.expect) % 2 ^ 32 < 2 ^ 31)) else false)),
    (let s : State := { linked with host := { linked.host with expect := 5 } }; let f : List Byte := frameNo 1 1 0x0F 4 (zeros 4);
      let ty : Nat := 1; let h : FrameHeader := frameHeader f; let fits : Bool := fitsRow ty h;
      (if let some q := frameCrcOk s.host.expect f then (decide (ty ∈ [1, 2, 4, 5]) && s.host.linkUp && decide (s.host.stage = .up) &&
        !s.host.rxDiscard && decide ((h.ftype = ty ∨ h.ftype ∈ typesWrong 0) ∧ h.ftype = ty ∧ h.seqField < 4096 ∧ h.len % 4 = 0 ∧ fits ∧
        q ≠ s.host.expect ∧ 2 ^ 31 ≤ (q + 2 ^ 32 - s.host.expect) % 2 ^ 32)) else false)),
    (let s : State := { linked with sys := { linked.sys with resetN := true },
                                     host := { linked.host with vc := Vector.replicate 3 { rxHdrLimit := 0 } } };
      let f : List Byte := frame 4 0x03 4 0 0x8000 (zeros 4); let ty : Nat := 4; let h : FrameHeader := frameHeader f; let vc : Nat := vcRow ty;
      let fits : Bool := fitsRow ty h;
      (if let some q := frameCrcOk s.host.expect f then (decide (ty ∈ [1, 2, 4, 5]) && s.host.linkUp && decide (s.host.stage = .up) &&
        !s.host.rxDiscard && decide ((h.ftype = ty ∨ h.ftype ∈ typesWrong 0) ∧ h.ftype = ty ∧ h.seqField < 4096 ∧ h.len % 4 = 0 ∧ fits ∧
        q = s.host.expect ∧ withinCredit (nthOr s.host.vc vc {}) (ceilDiv h.len 16) = false)) else false)),
    (let s : State := { linked with host.nakOut := true }; let l : Fin 2 := 0;
      (linkOf l s).nakOut),
    (let s : State := { linked with host := { linked.host with spare := some { lane := 0, byWhom := 0 }, unacked := [(0,
                                                                { ftype := 3, vc := 0 })] } };
      let l : Fin 2 := 1;
      !((linkOf l s).nakOut) && decide ((linkOf l s).spare = none)),
    (let s : State := { linked with host := { linked.host with spare := some { lane := 0, byWhom := 0 }, unacked := [(0,
                                                                { ftype := 3, vc := 0 })] } };
      let l : Fin 2 := 0;
      (if let some _ := (linkOf l s).spare then (!((linkOf l s).nakOut)) else false)),
    (let s : State := { linked with host := { linked.host with spare := some { lane := 0, byWhom := 0 }, unacked := [(0,
                                                                { ftype := 3, vc := 0 })] } };
      let l : Fin 2 := 1;
      decide ((linkOf l s).spare = none)),
    (let s : State := { linked with host := { linked.host with spare := some { lane := 0, byWhom := 0 }, unacked := [(0,
                                                                { ftype := 3, vc := 0 })] } };
      let l : Fin 2 := 0;
      (if let some _ := (linkOf l s).spare then (true) else false)),
    (let s : State := { linked with host := { linked.host with spare := some { lane := 0, byWhom := 0 }, unacked := [(0,
                                                                { ftype := 3, vc := 0 })] } };
      let f : List Byte := (frame 1 0 0 0 0 []); let h : FrameHeader := frameHeader f;
      isAccepted s 0x01 1 f && decide (h.len ≤ 4096 ∧ h.tag = 0 ∧ h.addr < 2 ^ 40 ∧ (h.len = 0 ∨ 4096 < h.addr % 4096 + h.len))),
    (let s : State := { linked with host := { linked.host with spare := some { lane := 0, byWhom := 0 }, unacked := [(0,
                                                                { ftype := 3, vc := 0 })] } };
      let f : List Byte := (frame 1 0xF0 4 0 0 (zeros 4)); let h : FrameHeader := frameHeader f;
      isAccepted s 0x01 1 f && decide (h.len ≤ 4096 ∧ h.tag = 0 ∧ h.addr < 2 ^ 40 ∧ 0 < h.len ∧ h.addr % 4096 + h.len ≤ 4096) && !(enablesOk h)),
    (let s : State := { linked with sys.mode := .boot }; let f : List Byte := (frame 1 0x0F 4 0 0 (zeros 4));
      let h : FrameHeader := frameHeader f;
      isAccepted s 0x01 1 f && decide (h.len ≤ 4096 ∧ h.tag = 0 ∧ h.addr < 2 ^ 40 ∧ 0 < h.len ∧ h.addr % 4096 + h.len ≤ 4096) && enablesOk h &&
        dramAway s),
    (let s : State := { linked with host := { linked.host with spare := some { lane := 0, byWhom := 0 }, unacked := [(0,
                                                                { ftype := 3, vc := 0 })] } };
      let f : List Byte := (frame 1 0x0F 4 0 (8 * 2 ^ 30) (zeros 4)); let h : FrameHeader := frameHeader f;
      isAccepted s 0x01 1 f && decide (h.len ≤ 4096 ∧ h.tag = 0 ∧ h.addr < 2 ^ 40 ∧ 0 < h.len ∧ h.addr % 4096 + h.len ≤ 4096) && enablesOk h &&
        !(dramAway s) && beyondFitted s h.addr h.len),
    (let s : State := { linked with faults.stopped := [0x13] }; let f : List Byte := (frame 1 0x0F 4 0 0 (zeros 4));
      let h : FrameHeader := frameHeader f;
      isAccepted s 0x01 1 f && decide (h.len ≤ 4096 ∧ h.tag = 0 ∧ h.addr < 2 ^ 40 ∧ 0 < h.len ∧ h.addr % 4096 + h.len ≤ 4096) && enablesOk h &&
        !(dramAway s) && !(beyondFitted s h.addr h.len) && channelStopped s h.addr),
    (let s : State := { linked with host := { linked.host with spare := some { lane := 0, byWhom := 0 }, unacked := [(0,
                                                                { ftype := 3, vc := 0 })] } };
      let f : List Byte := (frame 1 0x0F 4 0 0 (zeros 4)); let h : FrameHeader := frameHeader f;
      isAccepted s 0x01 1 f && decide (h.len ≤ 4096 ∧ h.tag = 0 ∧ h.addr < 2 ^ 40 ∧ 0 < h.len ∧ h.addr % 4096 + h.len ≤ 4096) && enablesOk h &&
        !(dramAway s) && !(beyondFitted s h.addr h.len) && !(channelStopped s h.addr)),
    (let s : State := { linked with sys.mode := .boot }; let f : List Byte := (frame 2 0 0 0 (4 * 2 ^ 40 + 8 * 2 ^ 30) []);
      let h : FrameHeader := frameHeader f; let n : Nat := mrdLen h;
      isAccepted s 0x02 2 f && decide (h.be = 0 ∧ h.len = 0 ∧ h.addr < 2 ^ 53 ∧ 4 ≤ n ∧ n ≤ 4096 ∧ n % 4 = 0 ∧ s.sys.mode = .boot)),
    (let s : State := { linked with sys.mode := .keepalive }; let f : List Byte := (frame 2 0 0 0 (4 * 2 ^ 40 + 8 * 2 ^ 30) []);
      let h : FrameHeader := frameHeader f; let n : Nat := mrdLen h;
      isAccepted s 0x02 2 f && decide (h.be = 0 ∧ h.len = 0 ∧ h.addr < 2 ^ 53 ∧ 4 ≤ n ∧ n ≤ 4096 ∧ n % 4 = 0 ∧ s.sys.mode = .keepalive)),
    (let s : State := { linked with host := { linked.host with spare := some { lane := 0, byWhom := 0 }, unacked := [(0,
                                                                { ftype := 3, vc := 0 })] } };
      let f : List Byte := (frame 2 0 0 0 (4 * 2 ^ 40 + 8 * 2 ^ 30) []); let h : FrameHeader := frameHeader f; let a : Nat := h.addr % 2 ^ 40;
      let n : Nat := mrdLen h;
      isAccepted s 0x02 2 f && decide (h.be = 0 ∧ h.len = 0 ∧ h.addr < 2 ^ 53 ∧ 4 ≤ n ∧ n ≤ 4096 ∧ n % 4 = 0) && !(dramAway s) &&
        beyondFitted s a n),
    (let s : State := { linked with host := { linked.host with spare := some { lane := 0, byWhom := 0 }, unacked := [(0,
                                                                { ftype := 3, vc := 0 })] } };
      let f : List Byte := (frame 2 0 0 0 (4096 * 2 ^ 40 + 2 ^ 27) []); let h : FrameHeader := frameHeader f; let a : Nat := h.addr % 2 ^ 40;
      let n : Nat := mrdLen h;
      isAccepted s 0x02 2 f && decide (h.be = 0 ∧ h.len = 0 ∧ h.addr < 2 ^ 53 ∧ 4 ≤ n ∧ n ≤ 4096 ∧ n % 4 = 0) && !(dramAway s) &&
        !(beyondFitted s a n) && uninitRange s a n),
    (let s : State := { linked with faults.stopped := [0x13] }; let f : List Byte := (frame 2 0 0 0 (64 * 2 ^ 40) []);
      let h : FrameHeader := frameHeader f; let a : Nat := h.addr % 2 ^ 40; let n : Nat := mrdLen h;
      isAccepted s 0x02 2 f && decide (h.be = 0 ∧ h.len = 0 ∧ h.addr < 2 ^ 53 ∧ 4 ≤ n ∧ n ≤ 4096 ∧ n % 4 = 0) && !(dramAway s) &&
        !(beyondFitted s a n) && !(uninitRange s a n) && (linesOf a n).any (channelStopped s)),
    (let s : State := { linked with host := { linked.host with spare := some { lane := 0, byWhom := 0 }, unacked := [(0,
                                                                { ftype := 3, vc := 0 })] } };
      let f : List Byte := (frame 2 0 0 0 (64 * 2 ^ 40) []); let v := accepted 2 f s; let h : FrameHeader := frameHeader f;
      let a : Nat := h.addr % 2 ^ 40; let n : Nat := mrdLen h;
      (if let (some _, _) := dramRead 3 a n v then (isAccepted s 0x02 2 f && decide (h.be = 0 ∧ h.len = 0 ∧ h.addr < 2 ^ 53 ∧ 4 ≤ n ∧ n ≤ 4096 ∧
        n % 4 = 0) && !(dramAway s) && !(beyondFitted s a n) && !(uninitRange s a n) && !((linesOf a n).any (channelStopped s))) else false)),
    (let s : State := { linked with mem := { linked.mem with synd := [(0, 3)] } }; let f : List Byte := (frame 2 0 0 0 (64 * 2 ^ 40) []);
      let v := accepted 2 f s; let h : FrameHeader := frameHeader f; let a : Nat := h.addr % 2 ^ 40; let n : Nat := mrdLen h;
      (if let (none, _) := dramRead 3 a n v then (isAccepted s 0x02 2 f && decide (h.be = 0 ∧ h.len = 0 ∧ h.addr < 2 ^ 53 ∧ 4 ≤ n ∧ n ≤ 4096 ∧
        n % 4 = 0) && !(dramAway s) && !(beyondFitted s a n) && !(uninitRange s a n) && !((linesOf a n).any (channelStopped s))) else false)),
    (let s : State := { linked with sys.mode := .keepalive }; let f : List Byte := frame 4 0x03 4 0 0x8000 (zeros 4);
      let h : FrameHeader := frameHeader f;
      isAccepted s 0x04 0 f && decide (h.len ≤ 1024 ∧ h.tag = 0 ∧ h.addr < 2 ^ 16) && !(windowReady s)),
    (let s : State := { linked with host := { linked.host with spare := some { lane := 0, byWhom := 0 }, unacked := [(0,
                                                                { ftype := 3, vc := 0 })] } };
      let f : List Byte := (frame 4 0x0F 4 0 0x20 (zeros 4)); let h : FrameHeader := frameHeader f;
      isAccepted s 0x04 0 f && decide (h.len ≤ 1024 ∧ h.tag = 0 ∧ h.addr < 2 ^ 16) && windowReady s && !(inAreas h.addr h.len) && decide (h.len = 4 ∧
        h.be = 0x0F ∧ h.addr % 4 = 0)),
    (let s : State := { linked with host := { linked.host with spare := some { lane := 0, byWhom := 0 }, unacked := [(0,
                                                                { ftype := 3, vc := 0 })] } };
      let f : List Byte := (frame 4 0x0F 4 0 0x21 (zeros 4)); let h : FrameHeader := frameHeader f;
      isAccepted s 0x04 0 f && decide (h.len ≤ 1024 ∧ h.tag = 0 ∧ h.addr < 2 ^ 16) && windowReady s && !(inAreas h.addr h.len) && decide (h.len ≠ 4 ∨
        h.be ≠ 0x0F ∨ h.addr % 4 ≠ 0)),
    (let s : State := { linked with host := { linked.host with spare := some { lane := 0, byWhom := 0 }, unacked := [(0,
                                                                { ftype := 3, vc := 0 })] } };
      let f : List Byte := (frame 4 0 8 0 0x4000 (zeros 8)); let h : FrameHeader := frameHeader f;
      isAccepted s 0x04 0 f && decide (h.len ≤ 1024 ∧ h.tag = 0 ∧ h.addr < 2 ^ 16) && windowReady s && inAreas h.addr h.len && !(enablesOk h)),
    (let s : State := { linked with host := { linked.host with spare := some { lane := 0, byWhom := 0 }, unacked := [(0,
                                                                { ftype := 3, vc := 0 })] } };
      let f : List Byte := frame 4 0x03 4 0 0x8000 (zeros 4); let h : FrameHeader := frameHeader f;
      isAccepted s 0x04 0 f && decide (h.len ≤ 1024 ∧ h.tag = 0 ∧ h.addr < 2 ^ 16) && windowReady s && inAreas h.addr h.len && enablesOk h &&
        !(fullEnables h) && !(inCommandAreas h.addr h.len)),
    (let s : State := { linked with host := { linked.host with spare := some { lane := 0, byWhom := 0 }, unacked := [(0,
                                                                { ftype := 3, vc := 0 })] } };
      let f : List Byte := frame 4 0x03 4 0 0x4800 (zeros 4); let h : FrameHeader := frameHeader f;
      isAccepted s 0x04 0 f && decide (h.len ≤ 1024 ∧ h.tag = 0 ∧ h.addr < 2 ^ 16) && windowReady s && inAreas h.addr h.len && enablesOk h &&
        decide (fullEnables h = true ∨ inCommandAreas h.addr h.len = true)),
    (let s : State := { linked with host := { linked.host with spare := some { lane := 0, byWhom := 0 }, unacked := [(0,
                                                                { ftype := 3, vc := 0 })] } };
      let f : List Byte := (frame 5 0 0 0 (1024 * 65536 + 0x4000) []); let h : FrameHeader := frameHeader f; let o : Nat := rrdOffset h;
      let n : Nat := rrdLen h;
      isAccepted s 0x05 0 f && decide (h.be = 0 ∧ h.len = 0 ∧ h.addr < 2 ^ 27 ∧ 4 ≤ n ∧ n ≤ 1024 ∧ n % 4 = 0) && inAreas o n),
    (let s : State := { linked with host := { linked.host with spare := some { lane := 0, byWhom := 0 }, unacked := [(0,
                                                                { ftype := 3, vc := 0 })] } };
      let f : List Byte := (frame 5 0 0 0 (4 * 65536 + 0x20) []); let h : FrameHeader := frameHeader f; let o : Nat := rrdOffset h;
      let n : Nat := rrdLen h;
      isAccepted s 0x05 0 f && decide (h.be = 0 ∧ h.len = 0 ∧ h.addr < 2 ^ 27 ∧ 4 ≤ n ∧ n ≤ 1024 ∧ n % 4 = 0) && !(inAreas o n) && decide (n = 4 ∧
        o % 4 = 0)),
    (let s : State := { linked with host := { linked.host with spare := some { lane := 0, byWhom := 0 }, unacked := [(0,
                                                                { ftype := 3, vc := 0 })] } };
      let f : List Byte := (frame 5 0 0 0 (8 * 65536 + 0x20) []); let h : FrameHeader := frameHeader f; let o : Nat := rrdOffset h;
      let n : Nat := rrdLen h;
      isAccepted s 0x05 0 f && decide (h.be = 0 ∧ h.len = 0 ∧ h.addr < 2 ^ 27 ∧ 4 ≤ n ∧ n ≤ 1024 ∧ n % 4 = 0) && !(inAreas o n) && decide (n ≠ 4 ∨
        o % 4 ≠ 0)),
    (let s : State := { linked with host := { linked.host with spare := some { lane := 0, byWhom := 0 }, unacked := [(0,
                                                                { ftype := 3, vc := 0 })] } };
      let l : Fin 2 := 0;
      !(sendsFrames (linkOf l s))),
    (let s : State := { linked with host := { linked.host with expect := 4095 } }; let l : Fin 2 := 0;
      sendsFrames (linkOf l s) && decide (firstAdmitted (linkOf l s) ((linkOf l s).unacked.any fun e => e.2.isMirror) [] (linkOf l s).held = none)),
    (let s : State := { one with host := { stage := .up, linkUp := true, vc := Vector.replicate 3 { txHdrLimit := 8, txDataLimit := 512 },
                                            held := [{ ftype := 1, vc := 1 }] } };
      let l : Fin 2 := 0;
      (if let some _ := firstAdmitted (linkOf l s) ((linkOf l s).unacked.any fun e => e.2.isMirror) [] (linkOf l s).held then
        (sendsFrames (linkOf l s)) else false)),
    (let s : State := { linked with host := { linked.host with spare := some { lane := 0, byWhom := 0 }, unacked := [(0,
                                                                { ftype := 3, vc := 0 })] } };
      let l : Fin 2 := 1; let ty : Nat := 0x82; let k : Link := linkOf l s;
      let deafNow : Bool := decide ((k.linkUp = false ∧ k.stage ≠ .active) ∨ k.rxDiscard = true ∨ k.stage = .retrain);
      decide (ty ∈ [0x80, 0x81, 0x82] ∧ deafNow)),
    (let s : State := { linked with host := { linked.host with spare := some { lane := 0, byWhom := 0 }, unacked := [(0,
                                                                { ftype := 3, vc := 0 })] } };
      let l : Fin 2 := 0; let f : List Byte := frameNo 0 1 0x0F 6 (zeros 6); let ty : Nat := 0x82; let k : Link := linkOf l s;
      let deafNow : Bool := decide ((k.linkUp = false ∧ k.stage ≠ .active) ∨ k.rxDiscard = true ∨ k.stage = .retrain);
      decide (ty ∈ [0x80, 0x81, 0x82] ∧ ¬ deafNow) && !(linkFrameGood f ty)),
    (let s : State := { linked with host := { linked.host with spare := some { lane := 0, byWhom := 0 }, unacked := [(0,
                                                                { ftype := 3, vc := 0 })] } };
      let l : Fin 2 := 0; let f : List Byte := withCv (leBytes 1 0x80 ++ leBytes 1 1 ++ zeros 6); let ty : Nat := 0x80;
      let k : Link := linkOf l s;
      let deafNow : Bool := decide ((k.linkUp = false ∧ k.stage ≠ .active) ∨ k.rxDiscard = true ∨ k.stage = .retrain);
      decide (ty ∈ [0x80, 0x81, 0x82] ∧ ¬ deafNow) && linkFrameGood f ty && !(linkFrameClear f)),
    (let s : State := { linked with host := { linked.host with spare := some { lane := 0, byWhom := 0 }, unacked := [(0,
                                                                { ftype := 3, vc := 0 })] } };
      let l : Fin 2 := 0; let f : List Byte := withCv (leBytes 8 0x80); let k : Link := linkOf l s;
      let deafNow : Bool := decide ((k.linkUp = false ∧ k.stage ≠ .active) ∨ k.rxDiscard = true ∨ k.stage = .retrain);
      decide (¬ deafNow) && linkFrameClear f && linkFrameGood f 0x80),
    (let s : State := { linked with host := { linked.host with spare := some { lane := 0, byWhom := 0 }, unacked := [(0,
                                                                { ftype := 3, vc := 0 })] } };
      let l : Fin 2 := 0; let f : List Byte := (withCv (leBytes 8 0x81)); let k : Link := linkOf l s;
      let deafNow : Bool := decide ((k.linkUp = false ∧ k.stage ≠ .active) ∨ k.rxDiscard = true ∨ k.stage = .retrain);
      decide (¬ deafNow) && linkFrameClear f && linkFrameGood f 0x81),
    (let s : State := { linked with host := { linked.host with spare := some { lane := 0, byWhom := 0 }, unacked := [(0,
                                                                { ftype := 3, vc := 0 })] } };
      let l : Fin 2 := 0; let f : List Byte := withCv (leBytes 1 0x82 ++ leBytes 1 3 ++ zeros 6); let k : Link := linkOf l s;
      let deafNow : Bool := decide ((k.linkUp = false ∧ k.stage ≠ .active) ∨ k.rxDiscard = true ∨ k.stage = .retrain);
      decide (¬ deafNow) && linkFrameClear f && linkFrameGood f 0x82 && decide (3 ≤ uAt f 1 1)),
    (let s : State := { linked with host := { linked.host with spare := some { lane := 0, byWhom := 0 }, unacked := [(0,
                                                                { ftype := 3, vc := 0 })] } };
      let l : Fin 2 := 0; let f : List Byte := (withCv (leBytes 8 0x82)); let v : Fin 3 := 0; let k : Link := linkOf l s;
      let deafNow : Bool := decide ((k.linkUp = false ∧ k.stage ≠ .active) ∨ k.rxDiscard = true ∨ k.stage = .retrain);
      decide (¬ deafNow) && linkFrameClear f && linkFrameGood f 0x82 && decide (uAt f 1 1 = v.val)),
    (let k : Link := { unacked := [(1, { ftype := 1, vc := 1 })] }; let pre : List (Nat × TxMsg) := []; let post : List (Nat × TxMsg) := [];
      let x : Nat × TxMsg := (1, { ftype := 1, vc := 1 }); let low : Nat := 1;
      decide (k.unacked = pre ++ x :: post ∧ (∀ y ∈ pre, y.1 % 4096 ≠ low) ∧ x.1 % 4096 = low)),
    (let k : Link := { unacked := [(1, { ftype := 1, vc := 1 })] }; let low : Nat := 0x82;
      decide (∀ y ∈ k.unacked, y.1 % 4096 ≠ low)),
    (let s : State := { linked with host := { linked.host with spare := some { lane := 0, byWhom := 0 }, unacked := [(0,
                                                                { ftype := 3, vc := 0 })] } };
      let l : Fin 2 := 1;
      decide ((linkOf l s).unacked = [])),
    (let s : State := { linked with host := { linked.host with spare := some { lane := 0, byWhom := 0 }, unacked := [(0,
                                                                { ftype := 3, vc := 0 })] } };
      let l : Fin 2 := 0;
      (if let some _ := (linkOf l s).spare then (decide ((linkOf l s).unacked ≠ [])) else false)),
    (let s : State := { linked with host.linkUp := true, host.stage := .up, host.unacked := [(0, { ftype := 1, vc := 1 })], host.replaysInRow := 4 };
      let l : Fin 2 := 0;
      decide ((linkOf l s).unacked ≠ [] ∧ (linkOf l s).spare = none ∧ 4 ≤ (linkOf l s).replaysInRow)),
    (let s : State := { linked with host.linkUp := true, host.stage := .up, host.unacked := [(0, { ftype := 1, vc := 1 })], host.replaysInRow := 3 };
      let l : Fin 2 := 0;
      decide ((linkOf l s).unacked ≠ [] ∧ (linkOf l s).spare = none ∧ (linkOf l s).replaysInRow < 4)),
    (let s : State := { linked with host := { linked.host with spare := some { lane := 0, byWhom := 0 }, unacked := [(0,
                                                                { ftype := 3, vc := 0 })] } };
      let l : Fin 2 := 1;
      decide ((linkOf l s).linkUp = false ∨ (linkOf l s).stage ≠ .up)),
    (let s : State := { linked with host := { linked.host with spare := some { lane := 0, byWhom := 0 }, unacked := [(0,
                                                                { ftype := 3, vc := 0 })] } };
      let l : Fin 2 := 0;
      (if let some _ := (linkOf l s).spare then ((linkOf l s).linkUp && decide ((linkOf l s).stage = .up)) else false)),
    (let s : State := { linked with host := { linked.host with expect := 4095 } }; let l : Fin 2 := 0;
      (linkOf l s).linkUp && decide ((linkOf l s).stage = .up ∧ (linkOf l s).spare = none)) ] : List Bool).all id = true := by
  decide +kernel

/-- The hypotheses of each clause of O58 are met. -/
theorem test_TheLifeMemoryKeepsItsRecords : (
  [ (let s : State := { exporting true with codec := { one.codec with requests := [lifeReq] } };
      decide (s.life.flush = none)),
    (let s : State := { up with life := { up.life with flush := some { trigger := 3, clean := false, startAt := 0 } } };
      (if let some f := s.life.flush then (decide (3 ≤ f.trigger ∧ s.clock < f.startAt + 800)) else false)),
    (let s : State := { up with life := { up.life with flush := some { trigger := 3, clean := false, startAt := 0 } }, clock := 1000 };
      (if let some f := s.life.flush then (decide (f.trigger < 3 ∨ f.startAt + 800 ≤ s.clock)) else false)),
    (let s : State := { up with life := { up.life with flush := some { trigger := 3, clean := false, startAt := 0 } }, clock := 1000 };
      (if let some f := s.life.flush then (decide (f.trigger < 3 ∨ f.startAt + 800 ≤ s.clock) && lifeWritable s && SMap.wf 0 s.life.acc &&
        decide (∀ e ∈ s.life.acc, e.1 < 131072) && Memory.wf s.life.nv.mram && decide (s.life.nv.synd = [] ∧ s.mem.ondie = [])) else false)),
    (let s : State := { up with life := { up.life with headerOk := false, repairs := [[3, 1]] } };
      !(lifeWritable s)),
    (let s : State := { exporting true with codec := { one.codec with requests := [lifeReq] } };
      lifeWritable s && decide (s.life.flush = none)),
    (let s : State := { up with life := { up.life with flush := some { trigger := 3, clean := false, startAt := 0 } }, clock := 1000 };
      (if let some _ := s.life.flush then (lifeWritable s) else false)),
    (let s : State := { up with life := { up.life with flush := some { trigger := 3, clean := false, startAt := 0 } }, clock := 1000 };
      decide (verupRuns s = false ∨ s.clock < s.life.wbAt + 800000000 * pnat s.life.params 1 0 60)),
    (let s : State := { up with clock := 48000000001 };
      verupRuns s && decide (s.life.wbAt + 800000000 * pnat s.life.params 1 0 60 ≤ s.clock)),
    (let s := doing 0x1605 [] { up with life := { up.life with flush := some { trigger := 3, clean := false, startAt := 0 } }, clock := 1000 };
      let c := cmd 0x1605 [];
      isDoing s 0x1605 c),
    (let pl : List Byte := [255, 255, 15];
      let s := doing 0x1601 pl { up with life := { up.life with flush := some { trigger := 3, clean := false, startAt := 0 } }, clock := 1000 };
      let c := cmd 0x1601 pl;
      isDoing s 0x1601 c && decide (listTarget c.payload 0 ≠ 0)),
    (let pl : List Byte := [0, 0, 1, 0, 0, 0, 0, 0, 1, 0, 0, 0, 17, 14];
      let s := doing 0x1601 pl { up with life := { up.life with flush := some { trigger := 3, clean := false, startAt := 0 } }, clock := 1000 };
      let c := cmd 0x1601 pl;
      (if let .error _ := judgeList [⟨1, 1, 1, 3600, some 60⟩] noRelation s.life.params (listItems c.payload 0) then (isDoing s 0x1601 c &&
        decide (listTarget c.payload 0 = 0)) else false)),
    (let s := doing 0x1601 [] { up with life := { up.life with flush := some { trigger := 3, clean := false, startAt := 0 } }, clock := 1000 };
      let c := cmd 0x1601 [];
      (if let .ok _ := judgeList [⟨1, 1, 1, 3600, some 60⟩] noRelation s.life.params (listItems c.payload 0) then (isDoing s 0x1601 c &&
        decide (listTarget c.payload 0 = 0)) else false)),
    (let pl : List Byte := [0, 0, 16];
      let s := doing 0x1602 pl { up with life := { up.life with flush := some { trigger := 3, clean := false, startAt := 0 } }, clock := 1000 };
      let c := cmd 0x1602 pl; let off : Nat := uAt c.payload 0 4;
      isDoing s 0x1602 c && decide (1048576 ≤ off)),
    (let s := doing 0x1602 [] { up with life := { up.life with flush := some { trigger := 3, clean := false, startAt := 0 } }, clock := 1000 };
      let c := cmd 0x1602 []; let off : Nat := uAt c.payload 0 4; let n : Nat := uAt c.payload 4 2;
      isDoing s 0x1602 c && decide (off < 1048576 ∧ (n = 0 ∨ 1008 < n ∨ 1048576 < off + n))),
    (let pl : List Byte := [0, 0, 0, 0, 240, 3];
      let s := doing 0x1602 pl { up with life := { up.life with flush := some { trigger := 3, clean := false, startAt := 0 } }, clock := 1000 };
      let c := cmd 0x1602 pl; let off : Nat := uAt c.payload 0 4; let n : Nat := uAt c.payload 4 2;
      isDoing s 0x1602 c && decide (1 ≤ n ∧ n ≤ 1008 ∧ off + n ≤ 1048576)),
    (let pl : List Byte := [255, 255, 15];
      let s := doing 0x1603 pl { up with life := { up.life with flush := some { trigger := 3, clean := false, startAt := 0 } }, clock := 1000 };
      let c := cmd 0x1603 pl; let port : Nat := uAt c.payload 0 1;
      isDoing s 0x1603 c && decide (16 ≤ port)),
    (let pl : List Byte := [15, 0, 0, 32];
      let s := doing 0x1603 pl { up with life := { up.life with flush := some { trigger := 3, clean := false, startAt := 0 } }, clock := 1000 };
      let c := cmd 0x1603 pl; let port : Nat := uAt c.payload 0 1; let first : Nat := uAt c.payload 2 2;
      isDoing s 0x1603 c && decide (port < 16 ∧ 8192 ≤ first)),
    (let s := doing 0x1603 [] { up with life := { up.life with flush := some { trigger := 3, clean := false, startAt := 0 } }, clock := 1000 };
      let c := cmd 0x1603 []; let port : Nat := uAt c.payload 0 1; let first : Nat := uAt c.payload 2 2; let n : Nat := uAt c.payload 4 2;
      isDoing s 0x1603 c && decide (port < 16 ∧ first < 8192 ∧ (n = 0 ∨ 168 < n ∨ 8192 < first + n))),
    (let pl : List Byte := [15, 0, 0, 0, 168];
      let s := doing 0x1603 pl { up with life := { up.life with flush := some { trigger := 3, clean := false, startAt := 0 } }, clock := 1000 };
      let c := cmd 0x1603 pl; let port : Nat := uAt c.payload 0 1; let first : Nat := uAt c.payload 2 2; let n : Nat := uAt c.payload 4 2;
      isDoing s 0x1603 c && decide (port < 16 ∧ 1 ≤ n ∧ n ≤ 168 ∧ first + n ≤ 8192)),
    (let s := doing 0x1604 [] { up with life := { up.life with flush := some { trigger := 3, clean := false, startAt := 0 } }, clock := 1000 };
      let c := cmd 0x1604 []; let off : Nat := uAt c.payload 0 4; let n : Nat := uAt c.payload 4 2;
      isDoing s 0x1604 c && decide (off < 0xD5000 ∨ 0xF5000 < off + n)),
    (let pl : List Byte := [0, 80, 13];
      let s := doing 0x1604 pl { up with sys.pwrFailN := false, life := { up.life with repairs := [[3, 1]] } }; let c := cmd 0x1604 pl;
      let off : Nat := uAt c.payload 0 4; let n : Nat := uAt c.payload 4 2;
      isDoing s 0x1604 c && decide (0xD5000 ≤ off ∧ off + n ≤ 0xF5000) && !s.sys.pwrFailN),
    (let pl : List Byte := [0, 80, 13]; let s := doing 0x1604 pl { up with life := { up.life with headerOk := false, repairs := [[3, 1]] } };
      let c := cmd 0x1604 pl; let off : Nat := uAt c.payload 0 4; let n : Nat := uAt c.payload 4 2;
      isDoing s 0x1604 c && decide (0xD5000 ≤ off ∧ off + n ≤ 0xF5000) && s.sys.pwrFailN && !(lifeWritable s)),
    (let pl : List Byte := [0, 80, 13];
      let s := doing 0x1604 pl { up with life := { up.life with flush := some { trigger := 3, clean := false, startAt := 0 } }, clock := 1000 };
      let c := cmd 0x1604 pl; let off : Nat := uAt c.payload 0 4; let n : Nat := uAt c.payload 4 2;
      isDoing s 0x1604 c && decide (0xD5000 ≤ off ∧ off + n ≤ 0xF5000) && s.sys.pwrFailN && lifeWritable s),
    (let pl : List Byte := [0, 80, 13];
      let s := doing 0x1606 pl { up with life := { up.life with flush := some { trigger := 3, clean := false, startAt := 0 } }, clock := 1000 };
      let c := cmd 0x1606 pl; let p : Nat := uAt c.payload 1 1;
      isDoing s 0x1606 c && decide (uAt c.payload 0 1 = 0 ∧ 16 ≤ p)),
    (let s := doing 0x1606 [] { up with sys.pwrFailN := false, life := { up.life with repairs := [[3, 1]] } }; let c := cmd 0x1606 [];
      let p : Nat := uAt c.payload 1 1;
      isDoing s 0x1606 c && decide (uAt c.payload 0 1 = 0 ∧ p < 16) && !s.sys.pwrFailN),
    (let s := doing 0x1606 [] { up with life := { up.life with headerOk := false, repairs := [[3, 1]] } }; let c := cmd 0x1606 [];
      let p : Nat := uAt c.payload 1 1;
      isDoing s 0x1606 c && decide (uAt c.payload 0 1 = 0 ∧ p < 16) && s.sys.pwrFailN && !(lifeWritable s)),
    (let s := doing 0x1606 [] { up with life := { up.life with flush := some { trigger := 3, clean := false, startAt := 0 } }, clock := 1000 };
      let c := cmd 0x1606 []; let p : Nat := uAt c.payload 1 1;
      isDoing s 0x1606 c && decide (uAt c.payload 0 1 = 0 ∧ p < 16) && s.sys.pwrFailN && lifeWritable s),
    (let s : State := { up with life := { up.life with flush := some { trigger := 3, clean := false, startAt := 0 } }, clock := 1000 };
      let p : Fin 16 := 0; let q : Nat := 1; let n : Nat := 0;
      lifeWritable s && Memory.wf s.life.nv.mram && decide (q < 16 ∧ q ≠ p.val ∧ n < 8192)),
    (let pl : List Byte := pay [(0, 1, 1)];
      let s := doing 0x1606 pl { up with life := { up.life with flush := some { trigger := 3, clean := false, startAt := 0 } }, clock := 1000 };
      let c := cmd 0x1606 pl; let i : Nat := uAt c.payload 2 2; let e : RepairEntry := s.life.repairs.getD i [];
      isDoing s 0x1606 c && decide (uAt c.payload 0 1 = 1 ∧ (s.life.repairs.length ≤ i ∨ uAt e 0 1 ≠ 3 ∨ (uAt e 1 1 ≠ 1 ∧ uAt e 1 1 ≠ 2)))),
    (let pl : List Byte := pay [(0, 1, 1)];
      let s := doing 0x1606 pl { up with sys.pwrFailN := false, life := { up.life with repairs := [[3, 1]] } }; let c := cmd 0x1606 pl;
      let i : Nat := uAt c.payload 2 2; let e : RepairEntry := s.life.repairs.getD i [];
      isDoing s 0x1606 c && decide (uAt c.payload 0 1 = 1 ∧ i < s.life.repairs.length ∧ uAt e 0 1 = 3 ∧ (uAt e 1 1 = 1 ∨ uAt e 1 1 = 2)) &&
        !s.sys.pwrFailN),
    (let pl : List Byte := pay [(0, 1, 1)];
      let s := doing 0x1606 pl { up with life := { up.life with headerOk := false, repairs := [[3, 1]] } }; let c := cmd 0x1606 pl;
      let i : Nat := uAt c.payload 2 2; let e : RepairEntry := s.life.repairs.getD i [];
      isDoing s 0x1606 c && decide (uAt c.payload 0 1 = 1 ∧ i < s.life.repairs.length ∧ uAt e 0 1 = 3 ∧ (uAt e 1 1 = 1 ∨ uAt e 1 1 = 2)) &&
        s.sys.pwrFailN && !(lifeWritable s)),
    (let pl : List Byte := pay [(0, 1, 1)]; let s := doing 0x1606 pl { up with life := { up.life with repairs := [[3, 1]] } };
      let c := cmd 0x1606 pl; let i : Nat := uAt c.payload 2 2; let e : RepairEntry := s.life.repairs.getD i [];
      isDoing s 0x1606 c && decide (uAt c.payload 0 1 = 1 ∧ i < s.life.repairs.length ∧ uAt e 0 1 = 3 ∧ (uAt e 1 1 = 1 ∨ uAt e 1 1 = 2)) &&
        s.sys.pwrFailN && lifeWritable s),
    (let pl : List Byte := [255, 255, 15];
      let s := doing 0x1606 pl { up with life := { up.life with flush := some { trigger := 3, clean := false, startAt := 0 } }, clock := 1000 };
      let c := cmd 0x1606 pl;
      isDoing s 0x1606 c && decide (1 < uAt c.payload 0 1)),
    (let s := doing 0x1608 [] { up with sys.mode := .configure }; let c := cmd 0x1608 [];
      isDoing s 0x1608 c && decide (uAt c.payload 0 2 ≠ 0x4C1F)),
    (let pl : List Byte := [31, 76]; let s := doing 0x1608 pl { up with sys.pwrFailN := false, sys.mode := .configure }; let c := cmd 0x1608 pl;
      isDoing s 0x1608 c && decide (uAt c.payload 0 2 = 0x4C1F) && !s.sys.pwrFailN),
    (let pl : List Byte := [31, 76]; let s := doing 0x1608 pl { up with sys.mode := .configure }; let c := cmd 0x1608 pl;
      isDoing s 0x1608 c && decide (uAt c.payload 0 2 = 0x4C1F) && s.sys.pwrFailN && Memory.wf s.life.nv.mram),
    (let pl : List Byte := [0, 0, 0, 0, 0, 0, 0, 0, 0, 0, 0, 0, 0, 0, 0, 0, 2];
      let s := doing 0x1607 pl { up with life := { up.life with flush := some { trigger := 3, clean := false, startAt := 0 } }, clock := 1000 };
      let c := cmd 0x1607 pl; let z : Nat := uAt c.payload 16 1;
      isDoing s 0x1607 c && decide (1 < z)),
    (let pl : List Byte := [0, 0, 1, 0, 0, 0, 0, 0, 1, 0, 0, 0, 17, 14];
      let s := doing 0x1607 pl { up with life := { up.life with flush := some { trigger := 3, clean := false, startAt := 0 } }, clock := 1000 };
      let c := cmd 0x1607 pl; let a : Nat := uAt c.payload 0 8; let cap : Nat := uAt c.payload 8 8; let z : Nat := uAt c.payload 16 1;
      isDoing s 0x1607 c && decide (z ≤ 1) && uninitRange s a cap),
    (let s := doing 0x1607 [] { up with life := { up.life with flush := some { trigger := 3, clean := false, startAt := 0 } }, clock := 1000 };
      let c := cmd 0x1607 []; let a : Nat := uAt c.payload 0 8; let cap : Nat := uAt c.payload 8 8; let z : Nat := uAt c.payload 16 1;
      isDoing s 0x1607 c && decide (z ≤ 1) && !(uninitRange s a cap) && decide (z = 0 ∧ cap < 1048576)),
    (let pl : List Byte := [0, 0, 0, 0, 0, 0, 0, 0, 0, 0, 16];
      let s := doing 0x1607 pl { exporting true with codec := { one.codec with requests := [lifeReq] } }; let c := cmd 0x1607 pl;
      let a : Nat := uAt c.payload 0 8; let cap : Nat := uAt c.payload 8 8; let z : Nat := uAt c.payload 16 1;
      isDoing s 0x1607 c && decide (z ≤ 1) && !(uninitRange s a cap) && decide (z = 1 ∨ 1048576 ≤ cap) && s.life.export_.isSome),
    (let pl : List Byte := [0, 0, 0, 0, 0, 0, 0, 0, 0, 0, 16]; let s := doing 0x1607 pl one; let c := cmd 0x1607 pl;
      let a : Nat := uAt c.payload 0 8; let cap : Nat := uAt c.payload 8 8; let z : Nat := uAt c.payload 16 1;
      isDoing s 0x1607 c && decide (z ≤ 1) && !(uninitRange s a cap) && decide ((z = 1 ∨ 1048576 ≤ cap) ∧ s.life.export_ = none)),
    (let s : State := { up with life := { up.life with flush := some { trigger := 3, clean := false, startAt := 0 } }, clock := 1000 };
      decide (s.life.export_ = none ∨ deflateUnit s = none)),
    (let s : State := { one with life.export_ := some { addr := 0, cap := 1048576, compress := false } };
      (if let some x := s.life.export_ then ((if let some _ := deflateUnit s then (!x.compress) else false)) else false)),
    (let s : State := exporting true;
      (if let some x := s.life.export_ then ((if let some _ := deflateUnit s then (x.compress && decide (s.life.flush = none ∧ (∀ r ∈ s.codec.requests,
        r.owner ≠ .lifeExport))) else false)) else false)),
    (let s : State := { up with life := { up.life with flush := some { trigger := 3, clean := false, startAt := 0 } }, clock := 1000 };
      decide (s.life.export_ = none ∨ s.life.flush.isSome = true)),
    (let s : State := { one with life.export_ := some { addr := 0, cap := 1048576, compress := false } };
      (if let some x := s.life.export_ then (decide (s.life.flush = none) && !x.compress) else false)),
    (let s : State := exporting true;
      (if let some x := s.life.export_ then (decide (s.life.flush = none) && x.compress &&
        decide (s.codec.requests.find? (fun r => r.owner = .lifeExport) = none)) else false)),
    (let s : State := { exporting true with codec := { one.codec with requests := [lifeReq] } }; let used : Nat := 0;
      let made : List Byte := [255]; let pend : List Bool := []; let next : List Bool := [true];
      (if let some x := s.life.export_ then ((if let some r := s.codec.requests.find? (fun z => z.owner = .lifeExport) then (let ins := (if next = [] then mramBytes s 0 1048576 else
        (mramBytes s 0 1048576).take used); decide (s.life.flush = none) && x.compress &&
        !(compressorMay r next ins made pend made.length)) else false)) else false)),
    (let s : State := { exporting true with codec := { one.codec with requests := [lifeReq] } }; let used : Nat := 0;
      let made : List Byte := []; let pend : List Bool := []; let next : List Bool := [false, true, false];
      (if let some x := s.life.export_ then ((if let some r := s.codec.requests.find? (fun z => z.owner = .lifeExport) then (let ins := (if next = [] then mramBytes s 0 1048576 else
        (mramBytes s 0 1048576).take used); decide (s.life.flush = none) && x.compress &&
        compressorMay r next ins made pend made.length) else false)) else false)),
    (let s : State := { up with life := { up.life with flush := some { trigger := 3, clean := false, startAt := 0 }, headerOk := false }, clock := 1000 };
      (if let some f := s.life.flush then (decide (f.trigger < 3 ∨ f.startAt + 800 ≤ s.clock) && !lifeWritable s) else false)),
    (let s : State := { up with life := { up.life with nv := { up.life.nv with weak := [1] } } }; let off : Nat := 4096; let bs : List Byte := [1];
      Memory.wf s.life.nv.mram && decide (∃ b ∈ s.life.nv.weak, b ≠ 0 ∧ off < 4096 * (b + 1) ∧ 4096 * b < off + bs.length)),
    (let s : State := up; let b : Nat := 1;
      lifeWritable s && decide (b ≠ 0 ∧ b < 256) && ((List.range 16).find? (fun j => nthOr s.life.hdr.remap j 0 == 0xFFFF)).isSome),
    (let s : State := { up with life := { up.life with hdr := { up.life.hdr with remap := Vector.replicate 16 7 } } };
      lifeWritable s && ((List.range 16).all fun j => decide (nthOr s.life.hdr.remap j 0 ≠ 0xFFFF)) && decide (s.sys.mode ≠ .boot ∧ s.sys.mode ≠ .keepalive ∧
        latchedAt s (blockInst lifeSource) = none)),
    (let s : State := up; let p : Nat := 0; let n : Nat := 4;
      lifeWritable s && Memory.wf s.life.nv.mram && decide (p < 16 ∧ n < 8192)),
    (let pl : List Byte := [0, 80, 13]; let s := doing 0x1604 pl { up with life := { up.life with nv := { up.life.nv with synd := [(0, 3)] } } };
      let c := cmd 0x1604 pl; let off : Nat := uAt c.payload 0 4; let n : Nat := uAt c.payload 4 2; let u : State := meetWords off n s;
      isDoing s 0x1604 c && decide (0xD5000 ≤ off ∧ off + n ≤ 0xF5000) && s.sys.pwrFailN && lifeWritable s && lifeWritable u) ] : List Bool).all id = true := by
  decide +kernel

/-- The hypotheses of each clause of O59 are met. -/
theorem test_TheFawnDomainKeepsTimeAndWakes : (
  [ (let s := doing 0x1701 [] { (twin .none_) with twin.linkAt := some 0 }; let c := cmd 0x1701 [];
      isDoing s 0x1701 c && !(hostSteers s)),
    (let s := doing 0x1701 [] up; let c := cmd 0x1701 [];
      isDoing s 0x1701 c && hostSteers s),
    (let pl : List Byte := [128]; let s := doing 0x1702 pl { (twin .none_) with twin.linkAt := some 0 }; let c := cmd 0x1702 pl;
      isDoing s 0x1702 c && decide (iAt c.payload 0 1 = -128)),
    (let s := doing 0x1702 [] { (twin .none_) with twin.linkAt := some 0 }; let c := cmd 0x1702 [];
      isDoing s 0x1702 c && decide (iAt c.payload 0 1 ≠ -128)),
    (let pl : List Byte := [0, 0, 0, 0, 2]; let s := doing 0x1703 pl { (twin .none_) with twin.linkAt := some 0 }; let c := cmd 0x1703 pl;
      let n : Nat := uAt c.payload 0 8;
      isDoing s 0x1703 c && decide (2 ^ 33 ≤ n)),
    (let pl : List Byte := [5]; let s := doing 0x1703 pl { up with fawn.rtc := 163840 }; let c := cmd 0x1703 pl;
      let n : Nat := uAt c.payload 0 8;
      isDoing s 0x1703 c && decide (n < 2 ^ 33 ∧ n ≠ 0 ∧ n ≤ rtcSeconds s)),
    (let s := doing 0x1703 [] { (twin .none_) with twin.linkAt := some 0 }; let c := cmd 0x1703 []; let n : Nat := uAt c.payload 0 8;
      isDoing s 0x1703 c && decide (n < 2 ^ 33 ∧ (n = 0 ∨ rtcSeconds s < n))),
    (let s : State := { (twin .none_) with twin.linkAt := some 0 };
      decide (s.fawn.temp < 80)),
    (let s : State := { (twin .none_) with twin.linkAt := some 0, fawn.rtc := 33 };
      verupRuns s && decide ((discipline s = .twin ∨ discipline s = .ptp ∧ s.time.ptp.state = .locked) ∧
        1000000 < ((rtcNs s : Int) - s.time.tb.toNat).natAbs)),
    (let s : State := { (twin .none_) with twin.linkAt := some 0 };
      verupRuns s && decide ((discipline s = .twin ∨ discipline s = .ptp ∧ s.time.ptp.state = .locked) ∧
        ((rtcNs s : Int) - s.time.tb.toNat).natAbs ≤ 1000000)),
    (let s : State := up;
      decide (verupRuns s = false ∨ discipline s = .free ∨ discipline s = .holdover ∨ discipline s = .ptp ∧ s.time.ptp.state ≠ .locked)),
    (let s : State := { (twin .none_) with twin.linkAt := some 0 };
      decide (s.fawn.alarm = 0 ∨ rtcSeconds s ≠ s.fawn.alarm)),
    (let s : State := { up with fawn.wake := true };
      s.fawn.wake),
    (let s : State := { up with fawn.wake := false, fawn.alarm := 5, fawn.rtc := 163840 };
      !s.fawn.wake && decide (s.fawn.alarm ≠ 0 ∧ rtcSeconds s = s.fawn.alarm)) ] : List Bool).all id = true := by
  decide +kernel

/-- The hypotheses of each clause of O60 are met. -/
theorem test_ResetLeavesTheTablesValues : (
  [ (let n : Nat := 0;
      decide (n < 8)),
    (([0x0C, 0x10, 0x14, 0x20, 0x24, 0x28, 0x40, 0x44, 0x100, 0x104, 0x108, 0x10C, 0x110, 0x114, 0x204, 0x208, 0x20C, 0x210, 0x214, 0x218, 0x21C, 0x220, 0x224, 0x228, 0x22C, 0x234, 0x238, 0x23C, 0x10C0, 0x10C4,
        0x10CC]).any fun _ => (true)) ] : List Bool).all id = true := by
  decide +kernel

end Sys2Proof.Tests
end

section
/-! PROOF. What asking for a warm reset touches (R47): each step of the request leaves all but a few parts of the state as they were, and the
frames compose. -/
namespace Sys2Proof.Machine

/-- t is u but for what the work of a reset request may touch: the mailboxes with their background operations, events and the messages they queue, the
lease with the twin link it is given up on, what the part sends, the scrubber and the flush (R41, R47, R389, R488, Table 15.7). -/
def RequestFrame (u t : State) : Prop :=
  t = { u with
    sys := { u.sys with irqStatus := t.sys.irqStatus, irqFresh := t.sys.irqFresh }
    mbx := t.mbx, evr := t.evr, host := t.host, twinLink := t.twinLink, twin := t.twin, sent := t.sent
    mem := { u.mem with scrub := t.mem.scrub }, life := { u.life with flush := t.life.flush } }

theorem requestFrame_refl (s : State) : RequestFrame s s := rfl

theorem requestFrame_trans {a b c : State} (h : RequestFrame a b) (h2 : RequestFrame b c) : RequestFrame a c := by
  unfold RequestFrame at *; rw [h2]; rw [h]

theorem requestFrame_of_eventsOnly {a b : State} (h : EventsOnly a b) : RequestFrame a b := by
  unfold RequestFrame; rw [eventsOnly_eq h]

theorem requestFrame_ite {p : Prop} [Decidable p] {u a b : State} (h1 : RequestFrame u a) (h2 : RequestFrame u b) :
    RequestFrame u (if p then a else b) := by
  split <;> assumption

/-! ## The transition that the request overtakes (R41) -/

theorem requestFrame_bgStart (k : BgKind) (s : State) : RequestFrame s (bgStart k s) := rfl
theorem requestFrame_bgEnd (k : BgKind) (s : State) : RequestFrame s (bgEnd k s) := rfl

theorem requestFrame_markDone (n : Fin 8) (noIrq : Bool) (s : State) : RequestFrame s (markDone n noIrq s) := by
  unfold markDone
  refine requestFrame_ite rfl (requestFrame_trans ?_ (requestFrame_of_eventsOnly (eventsOnly_raiseIrq _ _)))
  exact rfl

/-- Answering a command touches the mailboxes and the interrupt it raises (R70, R72). -/
theorem requestFrame_finishCommand (c : Command) (r : Reply) (s : State) : RequestFrame s (finishCommand c r s) :=
  requestFrame_trans (b := { s with mbx := _ }) rfl (requestFrame_markDone c.mb c.noIrq _)

theorem requestFrame_answerWaiting (c : Command) (r : Reply) (s : State) : RequestFrame s (answerWaiting c r s) :=
  requestFrame_trans (requestFrame_finishCommand c r s) rfl

/-- No transition is left, and the command that waited for one is answered (R41). -/
theorem requestFrame_dropTransition (s : State) : RequestFrame { s with sys := { s.sys with transition := none } } (dropTransition s) := by
  unfold dropTransition
  split
  next h => unfold RequestFrame; rw [← h]
  next tr h =>
    have ended : RequestFrame { s with sys := { s.sys with transition := none } }
        (bgEnd .transition { s with sys := { s.sys with transition := none }, twin := { s.twin with takeAtCommit := false } }) := rfl
    cases tr.waiting with
    | none => exact ended
    | some c => exact requestFrame_trans ended (requestFrame_answerWaiting _ _ _)

/-! ## The scrub that ends (R389) -/

theorem requestFrame_stopScrub (s : State) : RequestFrame s (stopScrub s) := by
  unfold stopScrub
  have reported : RequestFrame s (evScrubDone true s) := requestFrame_of_eventsOnly (eventsOnly_emit _ _)
  exact requestFrame_ite (requestFrame_trans reported rfl) (requestFrame_refl s)

/-! ## The lease given up (Table 15.7) -/

theorem requestFrame_send (ch : Chan) (d : List Byte) (s : State) : RequestFrame s (send ch d s) := rfl
theorem requestFrame_setLink (l : Fin 2) (f : Link → Link) (s : State) : RequestFrame s (setLink l f s) := by
  unfold setLink; exact requestFrame_ite rfl rfl

theorem requestFrame_sendFrame (l : Fin 2) (d : List Byte) (s : State) : RequestFrame s (sendFrame l d s) := by
  unfold sendFrame
  exact requestFrame_trans (requestFrame_setLink l _ s) (requestFrame_send _ _ _)

/-- A held message of a link goes out. -/
theorem requestFrame_sendHeld (l : Fin 2) (m : TxMsg) (s : State) : RequestFrame s (sendHeld l m s) := by
  unfold sendHeld
  exact requestFrame_trans (requestFrame_sendFrame l _ s) (requestFrame_setLink l _ _)

theorem requestFrame_sendNext (l : Fin 2) (s : State) : RequestFrame s (sendNext l s) := by
  unfold sendNext
  refine requestFrame_ite ?_ (requestFrame_refl s)
  split
  · exact requestFrame_sendHeld l _ s
  · exact requestFrame_refl s

theorem requestFrame_queueTwin (m : TxMsg) (s : State) : RequestFrame s (queueTwin m s) :=
  requestFrame_ite (requestFrame_trans (requestFrame_setLink 1 _ s) (requestFrame_sendNext 1 _)) (requestFrame_refl s)

/-- A lease message on both paths (R433, R434). -/
theorem requestFrame_sendLease (m : List Byte) (s : State) : RequestFrame s (sendLease m s) :=
  requestFrame_trans (requestFrame_queueTwin _ s) (requestFrame_send _ _ _)

theorem requestFrame_sendRepeated (type cause : Nat) (s : State) : RequestFrame s (sendRepeated type cause s) :=
  requestFrame_trans (b := { s with twin := _ }) rfl (requestFrame_sendLease _ _)

theorem requestFrame_releaseLease (cause : Nat) (s : State) : RequestFrame s (releaseLease cause s) :=
  requestFrame_ite (requestFrame_trans (b := { s with twin := _ }) rfl (requestFrame_sendRepeated 5 cause _)) (requestFrame_refl s)

/-! ## The flush (R488) -/

theorem requestFrame_startFlush (k : Nat) (s : State) : RequestFrame s (startFlush k s) := by
  unfold startFlush
  refine requestFrame_ite (requestFrame_refl s) ?_
  split
  · exact rfl
  · exact requestFrame_trans (b := { s with life := _ }) rfl (requestFrame_bgStart _ _)

/-- Where the MRAM may be written, a flush runs once one has been asked for (R488, R490). -/
theorem startFlush_flush_isSome (k : Nat) {s : State} (h : lifeWritable s = true) : (startFlush k s).life.flush.isSome = true := by
  unfold startFlush
  rw [h]
  cases hf : s.life.flush <;> rfl

/-- A reset request leaves alone what tells whether the MRAM may be written (R482, R493, R405). -/
theorem requestFrame_lifeWritable {u t : State} (h : RequestFrame u t) : lifeWritable t = lifeWritable u := by
  rw [h]; rfl

/-! ## The request -/

/-- s with a warm reset of a kind asked for and no transition left (R41, R47). -/
def resetAsked (kind : Nat) (s : State) : State :=
  { s with sys := { s.sys with transition := none, resetPending := true, resetKind := kind, resetTb := s.time.tb } }

/-- The first part of a request: the transition is overtaken and the request noted (R41, R47). -/
def noteRequest (kind : Nat) (s : State) : State :=
  { dropTransition s with sys := { (dropTransition s).sys with resetPending := true, resetKind := kind, resetTb := s.time.tb } }

/-- The second part, outside BOOT: the scrub ends, the lease is given up and a flush starts (R47, R389, Table 15.7). -/
def beforeFlush (s : State) : State := bgStart .reset (releaseLease 0 (stopScrub s))

theorem requestReset_of_pending (kind : Nat) {s : State} (h : s.sys.resetPending = true) : requestReset kind s = s := by
  simp [requestReset, h]

theorem requestReset_of_not_pending (kind : Nat) {s : State} (h : s.sys.resetPending = false) :
    requestReset kind s = if (noteRequest kind s).sys.mode = .boot then noteRequest kind s else startFlush 3 (beforeFlush (noteRequest kind s)) := by
  rw [requestReset, h]; rfl

theorem requestFrame_noteRequest (kind : Nat) (s : State) : RequestFrame (resetAsked kind s) (noteRequest kind s) := by
  unfold RequestFrame resetAsked noteRequest
  rw [requestFrame_dropTransition s]

theorem requestFrame_beforeFlush (s : State) : RequestFrame s (beforeFlush s) :=
  requestFrame_trans (requestFrame_stopScrub s) (requestFrame_trans (requestFrame_releaseLease 0 _) (requestFrame_bgStart .reset _))

/-- The state after a request that none preceded: resetAsked, but for the work that the request starts (R47). -/
theorem requestFrame_requestReset (kind : Nat) {s : State} (h : s.sys.resetPending = false) :
    RequestFrame (resetAsked kind s) (requestReset kind s) := by
  have noted := requestFrame_noteRequest kind s
  rw [requestReset_of_not_pending kind h]
  exact requestFrame_ite noted (requestFrame_trans noted (requestFrame_trans (requestFrame_beforeFlush _) (requestFrame_startFlush 3 _)))

/-- A request outside BOOT starts the flush of R47 where the MRAM may be written. -/
theorem requestReset_flush_isSome (kind : Nat) {s : State} (h : s.sys.resetPending = false) (hb : s.sys.mode ≠ .boot)
    (hw : lifeWritable s = true) : (requestReset kind s).life.flush.isSome = true := by
  have noted := requestFrame_noteRequest kind s
  have mode : (noteRequest kind s).sys.mode ≠ .boot := by rw [noted]; exact hb
  have writable : lifeWritable (beforeFlush (noteRequest kind s)) = true := by
    rw [requestFrame_lifeWritable (requestFrame_trans noted (requestFrame_beforeFlush _))]
    exact hw
  rw [requestReset_of_not_pending kind h, if_neg mode]
  exact startFlush_flush_isSome 3 writable

/-- Nothing fires while a warm reset is asked for (R47). -/
theorem mayFire_of_resetPending {s : State} (h : s.sys.resetPending = true) : mayFire s = false := by
  simp [mayFire, firePermit, h]

end Sys2Proof.Machine
end

section
/-! PROOF. What a write to the window does, register by register and byte by byte (R10 to R12, R64, R67, R70, R71), and the scope statement on
register writes. -/
namespace Sys2Proof.Machine

/-! ## Fields of a written word -/

theorem bitOf_toNat {w : Nat} (v : BitVec w) (i : Nat) : bitOf v.toNat i = v.getLsbD i := by
  rw [bitOf, ← BitVec.testBit_toNat, Nat.testBit_eq_decide_div_mod_eq]
  exact Bool.beq_eq_decide_eq _ _

theorem setWidth_eq_iff_toNat_mod {w n : Nat} (v : BitVec w) (k : BitVec n) : v.setWidth n = k ↔ v.toNat % 2 ^ n = k.toNat := by
  rw [← BitVec.toNat_inj, BitVec.toNat_setWidth]

/-! ## From the instruction to the register -/

theorem exec_registerWrite (p : Port) {o : BitVec 16} (v : Word) {s : State} (hw : windowReady s = true) (ha : o.toNat % 4 = 0) :
    exec (.registerWrite p o v) s = .next (writeWord p o.toNat v.toNat s) := by
  change Host.Outcome.next _ = _
  rw [hw, ha]; rfl

/-- Where a write has no effect at an offset, neither has the instruction, whether the window answers and the offset is aligned or not. -/
theorem exec_registerWrite_ignored {p : Port} {o : BitVec 16} {v : Word} {s : State} (h : writeWord p o.toNat v.toNat s = s) :
    exec (.registerWrite p o v) s = .next s := by
  change Host.Outcome.next _ = _
  rw [h, ite_self]

theorem exec_sysResetWrite (p : Port) (v : Word) {s : State} (hw : windowReady s = true) :
    exec (.sysResetWrite p v) s = .next (writeReg p 0x18 v.toNat s) := by
  change Host.Outcome.next _ = _
  rw [hw]; rfl

theorem exec_sysSafestopWrite (p : Port) (v : Word) {s : State} (hw : windowReady s = true) :
    exec (.sysSafestopWrite p v) s = .next (writeReg p 0x1C v.toNat s) := by
  change Host.Outcome.next _ = _
  rw [hw]; rfl

theorem exec_mbxPortWrite (p : Port) (v : Word) {s : State} (hw : windowReady s = true) :
    exec (.mbxPortWrite p v) s = .next (writeReg p 0x1080 v.toNat s) := by
  change Host.Outcome.next _ = _
  rw [hw]; rfl

theorem exec_mbxEvrRdWrite (p : Port) (v : Word) {s : State} (hw : windowReady s = true) :
    exec (.mbxEvrRdWrite p v) s = .next (writeReg p 0x10C4 v.toNat s) := by
  change Host.Outcome.next _ = _
  rw [hw]; rfl

theorem writeWord_register (p : Port) {o : Nat} (v : Nat) (s : State) (h : o < 0x4000) : writeWord p o v s = writeReg p o v s := by
  rw [writeWord, if_neg (by omega), if_neg (by omega)]

theorem writeWord_area (p : Port) {o : Nat} (v : Nat) (s : State) (h : 0x4000 ≤ o) (h2 : o < 0x8000) :
    writeWord p o v s = writeAreaBytes o ((leBytes 4 v).map fun b => (b, true)) s := by
  rw [writeWord, if_neg (by omega), if_pos h]

theorem writeWord_ring (p : Port) {o : Nat} (v : Nat) (s : State) (h : 0x8000 ≤ o) : writeWord p o v s = s := by
  rw [writeWord, if_pos h]

/-- A write to a register is writeReg at its offset. -/
theorem exec_registerWrite_register (p : Port) {o : BitVec 16} (v : Word) {s : State} (hw : windowReady s = true) (ha : o.toNat % 4 = 0)
    (h : o.toNat < 0x4000) : exec (.registerWrite p o v) s = .next (writeReg p o.toNat v.toNat s) := by
  rw [exec_registerWrite p v hw ha, writeWord_register p _ s h]

/-! ## The registers that are live in BOOT (R67, Tables 3.10 and 3.12) -/

theorem writeReg_sysReset (p : Port) (v : Nat) (s : State) :
    writeReg p 0x18 v s = if v % 65536 = 0xA5C3 then requestReset 2 s else s := by
  simp [writeReg, liveInBoot]

theorem writeReg_scratch (p : Port) (v : Word) (s : State) :
    writeReg p 0x20 v.toNat s = { s with sys := { s.sys with scratch := v } } := by
  simp [writeReg, liveInBoot]

theorem writeReg_irqStatus (p : Port) (v : Word) (s : State) :
    writeReg p 0x28 v.toNat s = setIrq (s.sys.irqStatus &&& ~~~(v.setWidth 15 &&& ~~~freshIrq s)) s.sys.irqEnHost s := by
  simp [writeReg, liveInBoot]

theorem writeReg_irqEnHost (p : Port) (v : Word) (s : State) :
    writeReg p 0x2C v.toNat s = setIrq s.sys.irqStatus (v.setWidth 15) s := by
  simp [writeReg, liveInBoot]

theorem writeReg_irqEnMgt (p : Port) (v : Word) (s : State) :
    writeReg p 0x30 v.toNat s = { s with sys := { s.sys with irqEnMgt := v.setWidth 15 } } := by
  simp [writeReg, liveInBoot]

/-- Clearing status bits raises no masked bit, so it queues no interrupt message (R82). -/
theorem setIrq_clears (m : BitVec 15) (s : State) :
    setIrq (s.sys.irqStatus &&& m) s.sys.irqEnHost s = { s with sys := { s.sys with irqStatus := s.sys.irqStatus &&& m } } := by
  have falls : s.sys.irqStatus &&& m &&& s.sys.irqEnHost &&& ~~~(s.sys.irqStatus &&& s.sys.irqEnHost) = 0 := by
    ext i hi
    simp only [BitVec.getElem_and, BitVec.getElem_not, BitVec.ofNat_eq_ofNat, BitVec.getElem_zero]
    cases s.sys.irqStatus[i] <;> cases s.sys.irqEnHost[i] <;> simp
  simp [setIrq, irqMasked, falls]

/-- A new enable queues one interrupt message when a masked bit rises with the link up (R82, R112). -/
theorem setIrq_enables (en : BitVec 15) (s : State) :
    setIrq s.sys.irqStatus en s = { s with
      sys := { s.sys with irqEnHost := en }
      host := { s.host with held := s.host.held ++
        (if s.sys.irqStatus &&& en &&& ~~~(s.sys.irqStatus &&& s.sys.irqEnHost) ≠ 0 ∧ s.host.linkUp = true
          then [{ ftype := 0x06, vc := 0, data := leBytes 4 (s.sys.irqStatus &&& en).toNat }] else []) } } := by
  by_cases h : s.sys.irqStatus &&& en &&& ~~~(s.sys.irqStatus &&& s.sys.irqEnHost) ≠ 0 ∧ s.host.linkUp = true
  · have rises : ((s.sys.irqStatus &&& en &&& ~~~(s.sys.irqStatus &&& s.sys.irqEnHost) != 0) && s.host.linkUp) = true := by
      simpa using h
    simp only [setIrq, irqMasked, rises, if_pos h, if_true]
  · have quiet : ((s.sys.irqStatus &&& en &&& ~~~(s.sys.irqStatus &&& s.sys.irqEnHost) != 0) && s.host.linkUp) = false := by
      simpa using h
    simp only [setIrq, irqMasked, quiet, if_neg h, List.append_nil]
    rfl

/-! ## The registers of the running Verup (Table 3.15) -/

section Running
variable {s : State} (hv : verupRuns s = true)
include hv

/-- The registers of MBn: MBX_CTLn, MBX_STATn, and two offsets that ignore a write. -/
theorem writeReg_mailbox (p : Port) {n : Fin 8} {o : Nat} (v : Nat) (ho : o / 16 = 0x100 + n.val) :
    writeReg p o v s =
      if o % 16 = 0 then controlMailbox p n (bitOf v 0) (bitOf v 1) s
      else if o % 16 = 4 then setBox n (fun m => { m with
        dbReject := m.dbReject && !bitOf v 4, foreign := m.foreign && !bitOf v 5
        lockedWrite := m.lockedWrite && !bitOf v 6
        timeout := m.timeout && (!bitOf v 7 || m.timeoutAt == some (ctrlClock s)) }) s
      else s := by
  have hn := n.isLt
  have hbox : ∀ h, (⟨(o - 0x1000) / 16, h⟩ : Fin 8) = n := fun h => Fin.ext (by show (o - 0x1000) / 16 = n.val; omega)
  rw [writeReg, hv, if_neg (by simp), if_neg (by omega), if_neg (by omega), if_neg (by omega), if_neg (by omega), if_neg (by omega),
    if_neg (by omega), dif_pos (by omega)]
  simp only [hbox]

theorem writeReg_mbxCtl (p : Port) (n : Fin 8) (v : Nat) :
    writeReg p (0x1000 + 16 * n.val) v s = controlMailbox p n (bitOf v 0) (bitOf v 1) s := by
  rw [writeReg_mailbox hv p v (n := n) (by omega), if_pos (by omega)]

theorem writeReg_mbxStat (p : Port) (n : Fin 8) (v : Nat) :
    writeReg p (0x1004 + 16 * n.val) v s = setBox n (fun m => { m with
      dbReject := m.dbReject && !bitOf v 4, foreign := m.foreign && !bitOf v 5
      lockedWrite := m.lockedWrite && !bitOf v 6
      timeout := m.timeout && (!bitOf v 7 || m.timeoutAt == some (ctrlClock s)) }) s := by
  rw [writeReg_mailbox hv p v (n := n) (by omega), if_neg (by omega), if_pos (by omega)]

theorem writeReg_wdog (p : Port) (v : Nat) :
    writeReg p 0x1084 v s = if v % 256 = 0 then s else { s with mbx := { s.mbx with wdog := BitVec.ofNat 8 v } } := by
  simp [writeReg, hv]

theorem writeReg_evrCtrl (p : Port) (v : Nat) :
    writeReg p 0x10C8 v s = { s with evr := { s.evr with
      thresh := if 1 ≤ v % 2048 ∧ v % 2048 ≤ 1024 then v % 2048 else s.evr.thresh
      age := v / 65536 % 256, rdBad := s.evr.rdBad && !bitOf v 24 } } := by
  simp [writeReg, hv, bitsOf]

end Running

/-! ## Offsets that ignore a write (R11, R67) -/

/-- The offsets of the writable registers that stand alone; the others are MBX_CTLn and MBX_STATn (Tables 3.10 to 3.16). -/
def writableSingle : List Nat := [0x18, 0x1C, 0x20, 0x28, 0x2C, 0x30, 0x1080, 0x1084, 0x10C4, 0x10C8]

/-- A read-only register, or an offset without a register, ignores the write (R11). -/
theorem writeReg_readOnly (p : Port) {o : Nat} (v : Nat) (s : State) (h : o ∉ writableSingle)
    (hm : ¬(0x1000 ≤ o ∧ o < 0x1080 ∧ o % 16 ≤ 4)) : writeReg p o v s = s := by
  simp only [writableSingle, List.mem_cons, List.not_mem_nil, or_false, not_or] at h
  obtain ⟨h18, h1C, h20, h28, h2C, h30, h1080, h1084, h10C4, h10C8⟩ := h
  simp only [writeReg, h18, h1C, h20, h28, h2C, h30, h1080, h1084, h10C4, h10C8, if_false]
  have hctl : 0x1000 ≤ o ∧ o < 0x1080 → o % 16 ≠ 0 ∧ o % 16 ≠ 4 := by omega
  by_cases hbox : 0x1000 ≤ o ∧ o < 0x1080
  · simp [hbox, hctl hbox]
  · simp [hbox]

/-- Until Verup runs only the live registers take a write, and five of them are writable (R67). -/
theorem writeReg_notRunning (p : Port) {o : Nat} (v : Nat) {s : State} (hv : verupRuns s = false) (h : o ∉ [0x18, 0x20, 0x28, 0x2C, 0x30]) :
    writeReg p o v s = s := by
  by_cases hlive : liveInBoot o = true
  · have low : o < 0x1000 := by simp [liveInBoot] at hlive; omega
    have not1C : o ≠ 0x1C := by rintro rfl; simp [liveInBoot] at hlive
    refine writeReg_readOnly p v s ?_ (by omega)
    simp only [writableSingle, List.mem_cons, List.not_mem_nil, or_false, not_or] at h ⊢
    omega
  · simp [writeReg, hv, hlive]

/-! ## The mailbox areas (R64, R71) -/

theorem writeAreaByte_notRunning (o : Nat) (b : Byte) {s : State} (hv : verupRuns s = false) : writeAreaByte o b s = s := by
  simp [writeAreaByte, hv]

/-- A response area takes no byte (R64). -/
theorem writeAreaByte_response {o : Nat} (b : Byte) (s : State) (h : 0x400 ≤ (o - 0x4000) % 0x800) : writeAreaByte o b s = s := by
  simp [writeAreaByte, Nat.not_lt.mpr h]

/-- MBn with LOCKED_WRITE set (R71). -/
def lockedWriteSet (n : Fin 8) (s : State) : State := setBox n (fun m => { m with lockedWrite := true }) s

theorem lockedWriteSet_state (n : Fin 8) (s : State) : (lockedWriteSet n s).mbx.box[n].state = s.mbx.box[n].state := by
  simp [lockedWriteSet, setBox]

theorem lockedWriteSet_lockedWriteSet (n : Fin 8) (s : State) : lockedWriteSet n (lockedWriteSet n s) = lockedWriteSet n s := by
  simp [lockedWriteSet, setBox]

theorem verupRuns_lockedWriteSet (n : Fin 8) (s : State) : verupRuns (lockedWriteSet n s) = verupRuns s := rfl

/-- An offset in the command area of MBn names it, and lies in the half of its areas that takes writes (Table 3.5). -/
theorem commandArea_offset {n : Fin 8} {o : Nat} (h1 : cmdArea n ≤ o) (h2 : o < cmdArea n + 0x400) :
    0x4000 ≤ o ∧ o < 0x8000 ∧ (o - 0x4000) % 0x800 < 0x400 ∧ (o - 0x4000) / 0x800 = n.val := by
  have hn := n.isLt
  unfold cmdArea at h1 h2
  omega

theorem writeAreaByte_locked {n : Fin 8} {o : Nat} (b : Byte) {s : State} (hv : verupRuns s = true)
    (hs : s.mbx.box[n].state = .pending ∨ s.mbx.box[n].state = .exec) (h1 : cmdArea n ≤ o) (h2 : o < cmdArea n + 0x400) :
    writeAreaByte o b s = lockedWriteSet n s := by
  obtain ⟨low, high, command, box⟩ := commandArea_offset h1 h2
  rcases hs with hs | hs <;>
    simp only [writeAreaByte, hv, low, high, command, box, hs, n.isLt, decide_true, Bool.and_self, if_true, dif_pos, lockedWriteSet]

theorem writeAreaByte_free {n : Fin 8} {o : Nat} (b : Byte) {s : State} (hv : verupRuns s = true)
    (hs : s.mbx.box[n].state = .idle ∨ s.mbx.box[n].state = .done) (h1 : cmdArea n ≤ o) (h2 : o < cmdArea n + 0x400) :
    writeAreaByte o b s = { s with mbx := { s.mbx with area := Mem.write s.mbx.area o b } } := by
  obtain ⟨low, high, command, box⟩ := commandArea_offset h1 h2
  rcases hs with hs | hs <;>
    simp only [writeAreaByte, hv, low, high, command, box, hs, n.isLt, decide_true, Bool.and_self, if_true, dif_pos]

theorem writeAreaBytes_cons (o : Nat) (b : Byte) (bs : List Byte) (s : State) :
    writeAreaBytes o ((b :: bs).map fun b => (b, true)) s = writeAreaBytes (o + 1) (bs.map fun b => (b, true)) (writeAreaByte o b s) := by
  simp [writeAreaBytes]

/-- Bytes written into the command area of a PENDING or EXEC mailbox set LOCKED_WRITE alone (R71). -/
theorem writeAreaBytes_locked {n : Fin 8} (b : Byte) (bs : List Byte) {o : Nat} {s : State} (hv : verupRuns s = true)
    (hs : s.mbx.box[n].state = .pending ∨ s.mbx.box[n].state = .exec) (h1 : cmdArea n ≤ o) (h2 : o + bs.length < cmdArea n + 0x400) :
    writeAreaBytes o ((b :: bs).map fun b => (b, true)) s = lockedWriteSet n s := by
  induction bs generalizing b o s with
  | nil => rw [writeAreaBytes_cons, writeAreaByte_locked b hv hs h1 h2]; rfl
  | cons c bs ih =>
    simp only [List.length_cons] at h2
    rw [writeAreaBytes_cons, writeAreaByte_locked b hv hs h1 (by omega),
      ih c (verupRuns_lockedWriteSet n s ▸ hv) ((lockedWriteSet_state n s).symm ▸ hs) (by omega) (by omega),
      lockedWriteSet_lockedWriteSet]

/-- Bytes written into the command area of an IDLE or DONE mailbox stand there (R64). -/
theorem writeAreaBytes_free {n : Fin 8} (bs : List Byte) {o : Nat} {s : State} (hv : verupRuns s = true)
    (hs : s.mbx.box[n].state = .idle ∨ s.mbx.box[n].state = .done) (h1 : cmdArea n ≤ o) (h2 : o + bs.length ≤ cmdArea n + 0x400) :
    writeAreaBytes o (bs.map fun b => (b, true)) s = { s with mbx := { s.mbx with area := Mem.writeN s.mbx.area o bs } } := by
  induction bs generalizing o s with
  | nil => rfl
  | cons b bs ih =>
    simp only [List.length_cons] at h2
    rw [writeAreaBytes_cons, writeAreaByte_free b hv hs h1 (by omega)]
    exact ih hv hs (by omega) (by omega)

/-- Bytes that each have no effect have none together. -/
theorem writeAreaBytes_ignored (bs : List Byte) {o : Nat} {s : State} (h : ∀ i < bs.length, ∀ b, writeAreaByte (o + i) b s = s) :
    writeAreaBytes o (bs.map fun b => (b, true)) s = s := by
  induction bs generalizing o with
  | nil => rfl
  | cons b bs ih =>
    rw [writeAreaBytes_cons, show writeAreaByte o b s = s from h 0 (by simp) b]
    refine ih fun i hi b => ?_
    rw [Nat.add_assoc, Nat.add_comm 1]
    exact h (i + 1) (by simpa using hi) b

/-- Until Verup runs the areas and the ring take no write (R67). -/
theorem writeWord_notRunning (p : Port) {o : Nat} (v : Nat) {s : State} (hv : verupRuns s = false) (h : o ∉ [0x18, 0x20, 0x28, 0x2C, 0x30]) :
    writeWord p o v s = s := by
  rcases Nat.lt_or_ge o 0x4000 with low | low
  · rw [writeWord_register p v s low, writeReg_notRunning p v hv h]
  · rcases Nat.lt_or_ge o 0x8000 with mid | high
    · rw [writeWord_area p v s low mid]
      exact writeAreaBytes_ignored _ fun i _ b => writeAreaByte_notRunning _ b hv
    · exact writeWord_ring p v s high

/-! ## Offsets of the statement as numbers -/

theorem toNat_mbxOffset (base : BitVec 16) (hb : base.toNat < 0x2000) (n : Fin 8) :
    (base + 16 * BitVec.ofNat 16 n.val).toNat = base.toNat + 16 * n.val := by
  have hn := n.isLt
  simp [BitVec.toNat_add, BitVec.toNat_mul]; omega

theorem toNat_areaOffset (base : BitVec 16) (hb : base.toNat < 0x4800) (n : Fin 8) (k : Fin 256) :
    (base + 0x800 * BitVec.ofNat 16 n.val + 4 * BitVec.ofNat 16 k.val).toNat = base.toNat + 0x800 * n.val + 4 * k.val := by
  have hn := n.isLt
  have hk := k.isLt
  simp [BitVec.toNat_add, BitVec.toNat_mul]; omega

/-! ## The statement, clause by clause -/

/-- The key of SYS_RESET alone asks for a warm reset (R47, Table 3.11). -/
theorem exec_sysResetWrite_cases (p : Port) (v : Word) {s : State} (hw : windowReady s = true) :
    exec (.sysResetWrite p v) s = .next (if v.setWidth 16 = (0xA5C3 : BitVec 16) then requestReset 2 s else s) := by
  rw [exec_sysResetWrite p v hw, writeReg_sysReset]
  simp only [setWidth_eq_iff_toNat_mod]
  rfl

/-- What a request by SYS_RESET leaves (R41, R47, R488). -/
theorem requestReset_leaves (s : State) : let t := requestReset 2 s
    t.sys.resetPending = true ∧ mayFire t = false ∧ t.sys.mode = s.sys.mode ∧ t.job = s.job ∧ t.cfg = s.cfg ∧ t.mem = { s.mem with scrub := t.mem.scrub } ∧
      t.life.nv = s.life.nv ∧ t.axes = s.axes ∧ t.time = s.time ∧ t.fawn = s.fawn ∧
      (s.sys.resetPending = true → t = s) ∧
      (s.sys.resetPending = false → t.sys.resetKind = 2 ∧ t.sys.resetTb = s.time.tb ∧ t.sys.transition = none ∧
        (s.sys.mode ≠ .boot → lifeWritable s = true → t.life.flush.isSome = true)) := by
  intro t
  cases hp : s.sys.resetPending with
  | true =>
    have ht : t = s := requestReset_of_pending 2 hp
    rw [ht]
    exact ⟨hp, mayFire_of_resetPending hp, rfl, rfl, rfl, rfl, rfl, rfl, rfl, rfl, fun _ => rfl, fun h => absurd h (by decide)⟩
  | false =>
    have frame : RequestFrame (resetAsked 2 s) t := requestFrame_requestReset 2 hp
    have pending : t.sys.resetPending = true := by rw [frame]; rfl
    have flush := requestReset_flush_isSome 2 hp
    refine ⟨pending, mayFire_of_resetPending pending, ?_, ?_, ?_, ?_, ?_, ?_, ?_, ?_, fun h => absurd h (by decide),
      fun _ => ⟨?_, ?_, ?_, flush⟩⟩ <;> rw [frame] <;> rfl

/-- The live registers, in BOOT too (R47, R67, R82). -/
theorem registerWrite_live (p : Port) (v : Word) {s : State} (hw : windowReady s = true) :
    (exec (.registerWrite p 0x20 v) s = .next { s with sys := { s.sys with scratch := v } }) ∧
    (exec (.registerWrite p 0x28 v) s = .next { s with sys := { s.sys with
      irqStatus := s.sys.irqStatus &&& ~~~(v.setWidth 15 &&& ~~~freshIrq s) } }) ∧
    (exec (.registerWrite p 0x2C v) s = .next (setIrq s.sys.irqStatus (v.setWidth 15) s)) ∧
    (exec (.registerWrite p 0x30 v) s = .next { s with sys := { s.sys with irqEnMgt := v.setWidth 15 } }) ∧
    (exec (.registerWrite p 0x18 v) s = exec (.sysResetWrite p v) s) := by
  refine ⟨?_, ?_, ?_, ?_, ?_⟩ <;> rw [exec_registerWrite_register p v hw (by decide) (by decide)]
  · exact congrArg _ (writeReg_scratch p v s)
  · exact congrArg _ ((writeReg_irqStatus p v s).trans (setIrq_clears _ s))
  · exact congrArg _ (writeReg_irqEnHost p v s)
  · exact congrArg _ (writeReg_irqEnMgt p v s)
  · exact (exec_sysResetWrite p v hw).symm

/-- MBX_CTLn does ACK, then RING, as its bits say (R70). -/
theorem registerWrite_mbxCtl (p : Port) (n : Fin 8) (v : Word) {s : State} (hw : windowReady s = true) (hv : verupRuns s = true) :
    ∃ t, (if v.getLsbD 1 then exec (.mbxAck p n) s else .next s) = .next t ∧
      exec (.registerWrite p (0x1000 + 16 * BitVec.ofNat 16 n.val) v) s = (if v.getLsbD 0 then exec (.mbxRing p n) t else .next t) := by
  have hn := n.isLt
  have offset : (0x1000 + 16 * BitVec.ofNat 16 n.val : BitVec 16).toNat = 0x1000 + 16 * n.val := toNat_mbxOffset 0x1000 (by decide) n
  rw [exec_registerWrite_register p v hw (by omega) (by omega), offset, writeReg_mbxCtl hv, bitOf_toNat, bitOf_toNat]
  refine ⟨if v.getLsbD 1 then ackMailbox p n s else s, ?_, ?_⟩
  · cases v.getLsbD 1 <;> rfl
  · cases v.getLsbD 0 <;> rfl

/-- The flags of MBX_STATn clear where written as 1 (R12, Table 3.15). -/
theorem registerWrite_mbxStat (p : Port) (n : Fin 8) (v : Word) {s : State} (hw : windowReady s = true) (hv : verupRuns s = true) :
    exec (.registerWrite p (0x1004 + 16 * BitVec.ofNat 16 n.val) v) s = .next { s with mbx := { s.mbx with
      box := s.mbx.box.set n { s.mbx.box[n] with
        dbReject := s.mbx.box[n].dbReject && !v.getLsbD 4, foreign := s.mbx.box[n].foreign && !v.getLsbD 5
        lockedWrite := s.mbx.box[n].lockedWrite && !v.getLsbD 6
        timeout := s.mbx.box[n].timeout && (!v.getLsbD 7 || s.mbx.box[n].timeoutAt == some (s.clock / 2)) } } } := by
  have hn := n.isLt
  have offset : (0x1004 + 16 * BitVec.ofNat 16 n.val : BitVec 16).toNat = 0x1004 + 16 * n.val := toNat_mbxOffset 0x1004 (by decide) n
  rw [exec_registerWrite_register p v hw (by omega) (by omega), offset, writeReg_mbxStat hv]
  simp only [bitOf_toNat]
  rfl

/-- A limit of zero is not taken by MBX_WDOG (Table 3.15). -/
theorem registerWrite_wdog (p : Port) (v : Word) {s : State} (hw : windowReady s = true) (hv : verupRuns s = true) :
    exec (.registerWrite p 0x1084 v) s =
      .next (if v.setWidth 8 = (0 : BitVec 8) then s else { s with mbx := { s.mbx with wdog := v.setWidth 8 } }) := by
  rw [exec_registerWrite_register p v hw (by decide) (by decide)]
  refine congrArg _ ((writeReg_wdog hv p v.toNat).trans ?_)
  simp only [setWidth_eq_iff_toNat_mod, BitVec.ofNat_toNat]
  rfl

/-- MBX_EVR_CTRL takes THRESH in its range and AGE, and clears RD_BAD where written as 1 (R12, Table 3.15). -/
theorem registerWrite_evrCtrl (p : Port) (v : Word) {s : State} (hw : windowReady s = true) (hv : verupRuns s = true) :
    exec (.registerWrite p 0x10C8 v) s = .next { s with evr := { s.evr with
      thresh := if 1 ≤ v.toNat % 2048 ∧ v.toNat % 2048 ≤ 1024 then v.toNat % 2048 else s.evr.thresh
      age := v.toNat / 65536 % 256, rdBad := s.evr.rdBad && !v.getLsbD 24 } } := by
  rw [exec_registerWrite_register p v hw (by decide) (by decide), ← bitOf_toNat]
  exact congrArg _ (writeReg_evrCtrl hv p v.toNat)

/-- A word of an area is written byte by byte. -/
theorem exec_registerWrite_area (p : Port) {o : BitVec 16} (v : Word) {s : State} (hw : windowReady s = true) (ha : o.toNat % 4 = 0)
    (h : 0x4000 ≤ o.toNat) (h2 : o.toNat < 0x8000) :
    exec (.registerWrite p o v) s = .next (writeAreaBytes o.toNat ((leBytes 4 v.toNat).map fun b => (b, true)) s) := by
  rw [exec_registerWrite p v hw ha, writeWord_area p _ s h h2]

section Areas
variable (p : Port) (n : Fin 8) (k : Fin 256) (v : Word) {s : State} (hw : windowReady s = true) (hv : verupRuns s = true)
include hw

/-- A word of a response area stays (R64). -/
theorem registerWrite_response :
    exec (.registerWrite p (0x4400 + 0x800 * BitVec.ofNat 16 n.val + 4 * BitVec.ofNat 16 k.val) v) s = .next s := by
  have hn := n.isLt
  have hk := k.isLt
  have offset := toNat_areaOffset 0x4400 (by decide) n k
  have base : (0x4400 : BitVec 16).toNat = 0x4400 := rfl
  rw [exec_registerWrite_area p v hw (by omega) (by omega) (by omega)]
  refine congrArg _ (writeAreaBytes_ignored _ fun i hi b => writeAreaByte_response b s ?_)
  have four : i < 4 := hi
  omega

include hv

/-- A word written into the command area of a PENDING or EXEC mailbox sets LOCKED_WRITE alone (R71). -/
theorem registerWrite_lockedCommand (hs : s.mbx.box[n].state = .pending ∨ s.mbx.box[n].state = .exec) :
    exec (.registerWrite p (0x4000 + 0x800 * BitVec.ofNat 16 n.val + 4 * BitVec.ofNat 16 k.val) v) s = .next (lockedWriteSet n s) := by
  have hn := n.isLt
  have hk := k.isLt
  have offset : (0x4000 + 0x800 * BitVec.ofNat 16 n.val + 4 * BitVec.ofNat 16 k.val : BitVec 16).toNat = cmdArea n + 4 * k.val :=
    toNat_areaOffset 0x4000 (by decide) n k
  have area : cmdArea n = 0x4000 + 0x800 * n.val := rfl
  rw [exec_registerWrite_area p v hw (by omega) (by omega) (by omega), offset]
  exact congrArg _ (writeAreaBytes_locked _ _ hv hs (by omega) (by simp only [leBytes, List.length_cons, List.length_nil]; omega))

/-- A word written into the command area of an IDLE or DONE mailbox stands there (R64). -/
theorem registerWrite_freeCommand (hs : s.mbx.box[n].state = .idle ∨ s.mbx.box[n].state = .done) :
    exec (.registerWrite p (0x4000 + 0x800 * BitVec.ofNat 16 n.val + 4 * BitVec.ofNat 16 k.val) v) s = .next { s with mbx := { s.mbx with
      area := Mem.writeN s.mbx.area (cmdArea n + 4 * k.val) (leBytes 4 v.toNat) } } := by
  have hn := n.isLt
  have hk := k.isLt
  have offset : (0x4000 + 0x800 * BitVec.ofNat 16 n.val + 4 * BitVec.ofNat 16 k.val : BitVec 16).toNat = cmdArea n + 4 * k.val :=
    toNat_areaOffset 0x4000 (by decide) n k
  have area : cmdArea n = 0x4000 + 0x800 * n.val := rfl
  rw [exec_registerWrite_area p v hw (by omega) (by omega) (by omega), offset]
  exact congrArg _ (writeAreaBytes_free _ hv hs (by omega) (by simp only [leBytes, List.length_cons, List.length_nil]; omega))

end Areas

/-- The ring, the read-only registers and the offsets without a register ignore a write (R10, R11). -/
theorem registerWrite_readOnly (p : Port) {o : BitVec 16} (v : Word) (s : State)
    (h : 0x8000 ≤ o.toNat ∨ (o.toNat < 0x4000 ∧ ¬(0x1000 ≤ o.toNat ∧ o.toNat < 0x1080 ∧ o.toNat % 16 ≤ 4) ∧ o.toNat ∉ writableSingle)) :
    exec (.registerWrite p o v) s = .next s := by
  apply exec_registerWrite_ignored
  rcases h with ring | ⟨low, notMailbox, notSingle⟩
  · exact writeWord_ring p _ s ring
  · rw [writeWord_register p _ s low]
    exact writeReg_readOnly p _ s notSingle notMailbox

/-- Settles O16: each clause is the lemma of its register, and the writes of SYS_RESET leave what requestReset_leaves says. -/
theorem registerWritesFollowTheAccessCodes : Obligations.RegisterWritesFollowTheAccessCodes := by
  unfold Obligations.RegisterWritesFollowTheAccessCodes
  refine ⟨fun p v s hw => ?_, fun p v s hw hv => ?_, fun p o v s _ h => registerWrite_readOnly p v s h,
    fun p o v s hv h => exec_registerWrite_ignored (writeWord_notRunning p _ hv h)⟩
  · obtain ⟨scratch, irqStatus, irqEnHost, irqEnMgt, sysReset⟩ := registerWrite_live p v hw
    refine ⟨scratch, irqStatus, irqEnHost.trans (congrArg _ (setIrq_enables _ s)), irqEnMgt, sysReset, fun key => ?_, fun key => ?_⟩
    · rw [exec_sysResetWrite_cases p v hw, if_neg key]
    · exact ⟨requestReset 2 s, by rw [exec_sysResetWrite_cases p v hw, if_pos key], requestReset_leaves s⟩
  · have register {o : BitVec 16} := exec_registerWrite_register p (o := o) v hw
    exact ⟨(register (by decide) (by decide)).trans (exec_sysSafestopWrite p v hw).symm,
      (register (by decide) (by decide)).trans (exec_mbxPortWrite p v hw).symm,
      (register (by decide) (by decide)).trans (exec_mbxEvrRdWrite p v hw).symm,
      fun limit => by rw [registerWrite_wdog p v hw hv, if_neg limit],
      fun limit => by rw [registerWrite_wdog p v hw hv, if_pos limit],
      registerWrite_evrCtrl p v hw hv,
      fun n => registerWrite_mbxCtl p n v hw hv,
      fun n => registerWrite_mbxStat p n v hw hv,
      fun n k hs => registerWrite_lockedCommand p n k v hw hv hs,
      fun n k hs => registerWrite_freeCommand p n k v hw hv hs,
      fun n k => registerWrite_response p n k v hw⟩

end Sys2Proof.Machine
end
